-- ==== Sys2Proof/Word.lean ====
section
/-! DEFINITION. The word types of the model and their plainest arithmetic. -/
namespace Sys2Proof

/-- One byte of a payload, a ring entry or a frame. -/
abbrev Byte := BitVec 8

/-- An IEEE binary32 bit pattern (06 R140). -/
abbrev F32 := BitVec 32

/-- One half-word of Tarn data memory (07 R155). -/
abbrev W16 := BitVec 16

/-- A sparse table: keys strictly rising, a key not listed holds its default. -/
abbrev Tbl (α : Type) := List (Nat × α)

end Sys2Proof
end

