-- ==== Sys2Proof/Syntax.lean ====
section
/-! DEFINITION. The commands of the block: one constructor of `Instr` for each row of spec/opcode_table.json. -/
namespace Sys2Proof

/-- A command descriptor (02 R28): OPCODE, FLAGS, TENANT, TAG, LENGTH, the reserved word, and the 48 bytes of PAYLOAD. -/
structure Desc where
  opcode  : Nat
  flags   : Nat
  tenant  : Nat
  tag     : Nat
  length  : Nat
  rsvd    : Nat
  payload : List Byte
  deriving DecidableEq, Repr, Inhabited

/-- A command as a mailbox hands it to firmware: the mailbox number of 22 R403, the descriptor, the indirect
payload a Causeway mailbox or a network control session carries with it (02 R25), and whether the PCIe read of an
indirect payload fails (02 R30). -/
structure Req where
  mb        : Nat
  desc      : Desc
  carried   : List Byte
  readFails : Bool
  deriving DecidableEq, Repr, Inhabited

/-- A frame as it arrives at a MAC, destination address first, without its FCS; `eighth` is the position of the
capture within the Mere cycle (13 R273); `taken` the bytes that have left the buffer it meets since the frame before (of a network port
the Inlet buffer, 10 R217; of a field port its receive buffer, 11 R237); `fec` the codewords corrected, codewords not corrected and symbols
corrected that RS-FEC has counted on the port since then (10 R228). -/
structure RxFrame where
  bytes  : List Byte
  fcsOk  : Bool
  eighth : Nat
  taken  : Nat := 0
  fec    : Nat × Nat × Nat := (0, 0, 0)
  deriving DecidableEq, Repr, Inhabited

/-- What a field port receives: a PLCA BEACON, or a frame in a transmit opportunity (11 R231, R237, R239). -/
inductive FldRx where
  | beacon
  | frame (f : RxFrame) (opportunity : Nat)
  deriving DecidableEq, Repr

/-- The register access paths of 20 R382. -/
inductive Path where
  | pf
  | vf (n : Nat)
  | chain
  | causeway
  | wellhead
  deriving DecidableEq, Repr

/-- A peer heartbeat (16 R320): the sender's state, EPOCH, UNFIT, YIELD and last completed frame of T0. -/
structure Heartbeat where
  state : Nat
  epoch : Nat
  unfit : Bool
  yld   : Bool
  frame : Nat
  deriving DecidableEq, Repr, Inhabited

/-- The active device's values for one receive stream and one frame (05 R128, 16 R324): ratio, correction, slip
(0 none, 1 drop, 2 repeat) at an instant, realignment, the mode-switch step, the positions the active device holds
filled, the samples of the packets the standby lacks, and whether its Eddy history was lost (18 R352). -/
structure TwinStream where
  stream  : Nat
  rho     : Nat
  corr    : Int
  slip    : Nat
  slipAt  : Nat
  realign : Bool
  step    : Nat
  fill    : List Nat
  data    : List (Nat × List F32)
  wiped   : Bool
  deriving DecidableEq, Repr, Inhabited

/-- A schedule entry that has fired, with AUX of its event, whether it only reported BUSY, and the instant of a repeating one (13 R284). -/
structure SchedShot where
  entry : Nat
  aux   : Nat
  idle  : Bool
  last  : Option Nat
  deriving DecidableEq, Repr, Inhabited

/-- A frame's values from the active device (05 R128, 16 R324): before the frame the ratios, realignments and mode-switch steps of its
streams (`ahead`); at its end streams, host-ring entries, key transitions (source, port, node, key, held), shed tenants, the Tarn tasks
whose output is zero, that overran, and that a fault has stopped with its cause (09 R208), the schedule entries that have fired (13 R284),
the buses that carry zeros for a lost table, the queues whose context was lost, and before the frame the local ports (and whether it is the
output) whose Eddy history was lost (18 R352). -/
structure TwinVals where
  tenant  : Nat
  frame   : Nat
  ahead   : Bool
  streams : List TwinStream
  rings   : List (Nat × List (List F32))
  keys    : List (Nat × Nat × Nat × Nat × Bool)
  shed    : Bool
  zeroed  : List Nat
  overran : List Nat
  faults  : List (Nat × Nat)
  acts    : List SchedShot
  buses   : List Nat
  queues  : List Nat
  ports   : List (Nat × Bool)
  onTime  : Bool
  deriving DecidableEq, Repr, Inhabited

/-- The answer of a device to enumeration (17 R336): the lane it was found on at the manager, its hop count, the
lane path from the manager, its TWIN_ID, BOOT_SEL and boot stage, and whether the topology was broken there. -/
structure EnumInfo where
  ident   : Nat
  lane    : Nat
  hops    : Nat
  path    : List Nat
  twinId  : Nat
  bootSel : Nat
  stage   : Nat
  broken  : Bool
  deriving DecidableEq, Repr, Inhabited

/-- One pin frame of a local port (12 R249, R263, R264): its BCLK periods, whether its rate class is the port's RATE, the bits on
SAIn_DIN at the capture edges from the active FS edge and from the opposite one, for an AES3 frame by subframe the sample word, whether
the parity fails and the validity bit, whether a Z preamble leads it, and what the line carried in the device's own slots in their order
(line watch, 16 R327) and in the proof slot (16 R331). -/
structure PinFrame where
  bclks    : Nat
  classOk  : Bool
  din      : List Bool
  din2     : List Bool
  words    : List (BitVec 32)
  parity   : List Bool
  validity : List Bool
  zLead    : Bool
  watched  : List (BitVec 32)
  proof    : BitVec 32
  deriving DecidableEq, Repr, Inhabited

/-- What one SCRUB_READ, or one read by the word's owner, meets (18 R351, R353). -/
inductive MemOwner where
  | jitter (stream pos : Nat)
  | queueCtx (q : Nat)
  | eddyState (stream : Nat)
  | eddyPort (code : Nat) (output : Bool)
  | poolState (bus : Nat)
  | tarnLocal (core addr : Nat)
  | tarnCluster (cluster addr : Nat)
  | tarnImem (core addr : Nat)
  | hbmWindow (task word : Nat)
  | wellhead
  | other
  deriving DecidableEq, Repr

/-- The sixteen-bit ALU register form (08 R186), reserved bits included. -/
structure AluArgs where
  core : Nat
  s    : Bool
  vec  : Bool
  dd   : BitVec 4
  da   : BitVec 4
  db   : BitVec 4
  rsv  : BitVec 7
  deriving DecidableEq, Repr

/-- The ALU immediate form (08 R188). -/
structure ImmArgs where
  core : Nat
  s    : Bool
  vec  : Bool
  rsv  : Bool
  dd   : BitVec 4
  imm  : BitVec 16
  deriving DecidableEq, Repr

/-- The accumulator form (08 R189). -/
structure AccArgs where
  core : Nat
  s    : Bool
  ad   : BitVec 3
  as_  : BitVec 3
  dr   : BitVec 4
  imm  : BitVec 10
  deriving DecidableEq, Repr

/-- The MAC-class form (08 R184, R185). -/
structure MacArgs where
  core : Nat
  s    : Bool
  acc  : BitVec 2
  b    : Bool
  x    : BitVec 2
  y    : BitVec 2
  m1   : BitVec 2
  p1   : BitVec 3
  r1   : BitVec 2
  t2   : Bool
  m2   : BitVec 2
  p2   : BitVec 3
  r2   : BitVec 2
  rsv  : BitVec 3
  deriving DecidableEq, Repr

/-- The load and store form (08 R183). -/
structure LdArgs where
  core : Nat
  sz   : BitVec 2
  reg  : BitVec 5
  ptr  : BitVec 3
  mod  : BitVec 2
  off  : BitVec 13
  deriving DecidableEq, Repr

/-- The commands of the block: SCS commands (each with the request that carries it), hardware and firmware steps,
register accesses, pin and partner events, and Tarn instructions. -/
inductive Instr where
  -- Sundique Command Set, groups 0x01 to 0x0F (22 R392 to R400)
  | deviceReset (r : Req)
  | deviceMailboxSet (r : Req)
  | tenantCreate (r : Req)
  | tenantDestroy (r : Req)
  | tenantQuotaSet (r : Req)
  | tenantBind (r : Req)
  | tenantUnbind (r : Req)
  | tenantQuery (r : Req)
  | queueCreate (r : Req)
  | queueDestroy (r : Req)
  | queueQuery (r : Req)
  | queueStats (r : Req)
  | queueIntSet (r : Req)
  | queueIntMode (r : Req)
  | streamOpen (r : Req)
  | streamClose (r : Req)
  | streamModify (r : Req)
  | streamQuery (r : Req)
  | streamKeySet (r : Req)
  | streamStats (r : Req)
  | mclkBind (r : Req)
  | mclkQuery (r : Req)
  | mclkEstimatorSet (r : Req)
  | mclkModeSet (r : Req)
  | mclkStreamQuery (r : Req)
  | mclkSynBind (r : Req)
  | eddyQuery (r : Req)
  | mixBusCreate (r : Req)
  | mixBusDestroy (r : Req)
  | mixBusSet (r : Req)
  | mixKeyBind (r : Req)
  | mixConfig (r : Req)
  | mixStats (r : Req)
  | tarnLoad (r : Req)
  | tarnUnload (r : Req)
  | tarnParam (r : Req)
  | tarnQuery (r : Req)
  | tarnRestart (r : Req)
  | tarnStats (r : Req)
  | netModeSet (r : Req)
  | netPortConfig (r : Req)
  | netFilterSet (r : Req)
  | netStats (r : Req)
  | netTxAllow (r : Req)
  | fldPortConfig (r : Req)
  | fldGpioKeySet (r : Req)
  | fldKeyQuery (r : Req)
  | fldStats (r : Req)
  | lpAssign (r : Req)
  | saiConfig (r : Req)
  | aesConfig (r : Req)
  | lpStart (r : Req)
  | lpStop (r : Req)
  | aesCsSet (r : Req)
  | lpStats (r : Req)
  | timeTbConfig (r : Req)
  | timeAdjust (r : Req)
  | timeQuery (r : Req)
  | timeCalSync (r : Req)
  | timeSchedule (r : Req)
  | refConfig (r : Req)
  | refSelect (r : Req)
  | refQuery (r : Req)
  | refSynSet (r : Req)
  | twinConfig (r : Req)
  | twinSwitch (r : Req)
  | twinQuery (r : Req)
  | twinClear (r : Req)
  | twinProofSet (r : Req)
  | cascadeEnumerate (r : Req)
  | cascadeQuery (r : Req)
  | cascadeForward (r : Req)
  | cascadeLegacySet (r : Req)
  /-- The transfer's outcome on the bus is the environment's: whether SDA is held low and after which recovery
  pulse it is released (0 none needed, 10 never), the RESULT 0 to 3, the index of a NACKed byte and the bytes read. -/
  | i2cXfer (r : Req) (sdaPulses : Nat) (result : Nat) (nackAt : Nat) (rdata : List Byte)
  | powerToleranceSet (r : Req)
  | powerQuery (r : Req)
  | powerGateSet (r : Req)
  | healthQuery (r : Req)
  | healthPolicySet (r : Req)
  | lakebedStoreRead (r : Req)
  | lakebedStoreWrite (r : Req)
  | healthLogRead (r : Req)
  | healthSpareForce (r : Req)
  | firmwareLoad (r : Req)
  | firmwareActivate (r : Req)
  | firmwareCommit (r : Req)
  | firmwareStatus (r : Req)
  -- mailbox engines, firmware and management pairs (02)
  | mbxDoorbell (mb : Nat) (val : BitVec 64)
  | mbxRspCiWrite (mb : Nat) (val : BitVec 32)
  | cmdTake (mb : Nat)
  | cmdStart (carried : List Byte) (readFails : Bool)
  | netControlDatagram (session : Nat) (seq : Nat) (body : List Byte) (tag : List Byte) (srcAddr : List Byte) (srcPort : Nat)
  | mgmtFailover (phase : Nat) (carried : List Byte) (readFails : Bool)
  | mgmtDown
  | fwLoaded (ok : Bool)
  | fwHandoverTaken (newPairOk : Bool)
  | fwPauseTimeout
  -- queues and rings (03)
  | queueDoorbell (fn : Nat) (off : Nat) (size : Nat) (val : BitVec 64)
  | coalTimeExpiry (q : Nat)
  | hostTxFrame (q : Nat)
  -- resets, supplies, clocks, boot (14, 19, 23)
  | vfFlr (n : Nat)
  | pfFlr
  | perst
  | powerOnReset
  | resetNLow
  | supplyDrop (rail : Nat)
  | thermalTrip (sensor : Nat)
  | thermalClear
  | backupPowerLoss
  | resetRelease (straps : BitVec 9)
  | soscRunning
  | foscQualWindow (osc : Nat) (dev : Int)
  | xaQualWindow (dev : Int)
  | rootPllLock
  | missingEdgeTrip (src : Nat)
  | clkRetry
  | swTimeout (domain : Nat)
  | foscSpareCheck (dev : Int)
  | lcPllFail (k : Nat) (dev : Option Int)
  | secureBoot (image : List Byte)
  | readiness (ok : Bool)
  -- frames, media clocks, streams (01, 04, 05)
  | frameBoundary (t : Nat)
  | mclkUpdate
  | estimatorWindow (stream : Nat)
  | netRxFrame (port : Nat) (f : RxFrame)
  | noPacketForL (stream : Nat)
  | legIdleTimeout (stream : Nat) (leg : Nat)
  | calendarSlot (stream : Nat) (leg : Nat)
  -- network ports (10)
  | netLinkChange (port : Nat) (up : Bool) (localFault remoteFault : Bool)
  | netModeDone (group : Nat)
  | pllCalDone (k : Nat)
  | adaptDone (port : Nat)
  | txnrHoldExpiry (port : Nat) (cls : Nat)
  | pauseHoldExpiry (port : Nat) (cls : Nat)
  | pauseWdExpiry (port : Nat) (cls : Nat)
  | wdHoldExpiry (port : Nat) (cls : Nat)
  | lpiIdleExpiry (port : Nat)
  -- field ports and keys (11)
  | fldRxFrame (port : Nat) (f : FldRx)
  | plcaBeaconTimeout (port : Nat)
  | beaconResume (port : Nat)
  | plcaCycle (port : Nat) (overran : Bool)
  | fldPacketDeadline (port : Nat)
  | collision (port : Nat) (late : Bool)
  | backoffExpiry (port : Nat)
  | keyTimeout (port : Nat) (node : Nat)
  | stuckTimeExpiry (src port node key : Nat)
  | gpioDebounceAccept (pin : Nat) (level : Bool)
  -- local audio ports (12)
  | lpTrigger (code : Nat)
  | lpPinFrame (code : Nat) (f : PinFrame)
  | unmuteCountDone (code : Nat)
  | lpStopDone (code : Nat) (early : Bool)
  | lpClockLoss (code : Nat)
  | rateMeasure (code : Nat) (meas : Nat)
  | aesLock (n : Nat)
  | aesBlockEnd (n : Nat) (csA csB : List Byte) (zMissing : Bool)
  | aesSettleExpiry (n : Nat)
  -- time bases and calendar (13)
  | xbTick (cycles : Nat)
  | xbStop
  | calCommitWrite (val : BitVec 32)
  | calLoad
  | schedEntryFire (e : Nat)
  | tbSlewDone (tb : Nat)
  | tbAnchorWrite (tb : Nat) (sec ns : Nat)
  -- references and synthesis (15)
  | dpllUpdate
  | refWindow (cand : Nat) (active : Bool) (freq : Int)
  | refActivityLoss (cand : Nat)
  | syncInEdge
  | synRelockDone (n : Nat)
  | apllUnlock
  -- twin operation (16)
  | heartbeatSend
  | heartbeatRx (path : Nat) (hb : Heartbeat)
  | hbPathMiss (path : Nat)
  | leaseExpiry
  | standbyClaim
  | twinPeerOeLow
  | soloWaitExpiry
  | lineWatchClaim (port slot : Nat)
  | holdoffTakeback
  | twinValuesRx (v : TwinVals)
  | shadowCompareRx (tenant frame : Nat) (crcs : List (Nat × Nat)) (late : Bool)
  | twinResyncDone
  -- cascade and chain bus (17)
  | cwLinkUp (lane : Nat)
  | cwLaneDown (lane : Nat) (lost : List Nat) (managerLost : Bool)
  | enumRequest (lane : Nat)
  | enumResponse (info : EnumInfo)
  | enumTimeout
  | fwdResponseRx (device : Nat) (rsp : List Byte)
  | fwdTimeout (device : Nat)
  | chainAddrWrite (via : Nat) (val : BitVec 32)
  | chainPartialWrite
  | chainBusTimeout
  -- power, health, memory, spares (18, 19)
  | weirWindow
  | weirCommitWrite (val : BitVec 64)
  | powerStateEntry
  | wakeEvent (kind : Nat)
  | telemetryTick (margins : List (Nat × Nat)) (temps : List Int)
  | scrubRead (owner : MemOwner) (loc : Nat) (uncorrectable raced : Bool)
  | residueCheckFail (kind : Nat) (bank : Nat)
  | rowReplaceDone (hbm : Bool) (row : Nat)
  | lakebedWearPass (weak failed : List Nat)
  -- Tarn array and core events (07, 09)
  | tarnRunStart (task : Nat)
  | tarnRunEnd (task : Nat)
  | tarnSpareTakeover (cluster core : Nat)
  | tarnCoreFail (cluster core : Nat)
  | interruptEntry (core : Nat)
  | dmaDone (core ch : Nat) (moved : Nat) (uncorrectable : Bool)
  -- Tarn instructions (08)
  | tNop (core : Nat)
  | tWait (core : Nat) (rsv : BitVec 26)
  | tB (core : Nat) (cc : BitVec 4) (rsv : BitVec 8) (target : BitVec 14)
  | tCall (core : Nat) (rsv : BitVec 12) (target : BitVec 14)
  | tRet (core : Nat) (rsv : BitVec 26)
  | tRte (core : Nat) (rsv : BitVec 26)
  | tRti (core : Nat) (rsv : BitVec 26)
  | tTrap (core : Nat) (rsv : BitVec 18) (code : BitVec 8)
  | tBreak (core : Nat) (rsv : BitVec 26)
  | tSignal (core : Nat) (rsv : BitVec 22) (n : BitVec 4)
  | tLoop (core : Nat) (k form : Bool) (n : BitVec 10) (stop : BitVec 14)
  | tRepeat (core : Nat) (rsv : BitVec 14) (n : BitVec 12)
  | tMvc (core : Nat) (dir : Bool) (cr : BitVec 6) (pair : BitVec 3) (rsv : BitVec 16)
  | tLd (a : LdArgs)
  | tSt (a : LdArgs)
  | tLdai (core : Nat) (areg : BitVec 5) (imm : BitVec 21)
  | tMovr (core : Nat) (dir : Bool) (areg : BitVec 5) (pair : BitVec 3) (rsv : BitVec 17)
  | tModp (core : Nat) (k : BitVec 3) (m : BitVec 23)
  | tMov (a : AluArgs)
  | tAdd (a : AluArgs)
  | tSub (a : AluArgs)
  | tAdc (a : AluArgs)
  | tSbc (a : AluArgs)
  | tNeg (a : AluArgs)
  | tAbs (a : AluArgs)
  | tMin (a : AluArgs)
  | tMax (a : AluArgs)
  | tAnd (a : AluArgs)
  | tOr (a : AluArgs)
  | tXor (a : AluArgs)
  | tNot (a : AluArgs)
  | tAsl (a : AluArgs)
  | tAsr (a : AluArgs)
  | tLsr (a : AluArgs)
  | tCmp (a : AluArgs)
  | tTst (a : AluArgs)
  | tLdi (a : ImmArgs)
  | tAddi (a : ImmArgs)
  | tSubi (a : ImmArgs)
  | tAndi (a : ImmArgs)
  | tOri (a : ImmArgs)
  | tXori (a : ImmArgs)
  | tCmpi (a : ImmArgs)
  | tShi (a : ImmArgs)
  | tAclr (a : AccArgs)
  | tAclrv (a : AccArgs)
  | tAmov (a : AccArgs)
  | tAadd (a : AccArgs)
  | tAsub (a : AccArgs)
  | tAneg (a : AccArgs)
  | tAabs (a : AccArgs)
  | tAsh (a : AccArgs)
  | tExt (a : AccArgs)
  | tExtv (a : AccArgs)
  | tExtw (a : AccArgs)
  | tMval (a : AccArgs)
  | tMvag (a : AccArgs)
  | tMvda (a : AccArgs)
  | tMvga (a : AccArgs)
  | tDeph (a : AccArgs)
  | tDivs (core : Nat) (f l : Bool) (a : BitVec 3) (dv : BitVec 4) (rsv : BitVec 17)
  | tMac (a : MacArgs)
  | tMsu (a : MacArgs)
  | tMpy (a : MacArgs)
  | tMpyn (a : MacArgs)
  -- registers (20) and the rows added at the end of the table
  | devRstKeyWrite (path : Path) (key : BitVec 8)
  | armedLapse
  | twinFenceWrite (path : Path) (val : BitVec 32)
  | w1cWrite (path : Path) (off size : Nat) (val : BitVec 64)
  | counterLowRead (path : Path) (off : Nat)
  | registerWrite (path : Path) (off size : Nat) (val : BitVec 64)
  | voteSweep
  | twinPeerOeHigh
  | ptpMasterLoss (tb : Nat)
  | aesLockLoss (n : Nat)
  | apllRelock
  | lcPllRequalify (k : Nat) (dev : Int)
  | timeTransferRx (tb : Nat) (offset : Int)
  | cascadeLegFrameRx (lane : Nat) (dst : Nat) (streamId : List Byte) (bytes : List Byte)
  | configMirrorRx (r : Req) (choice : Nat)
  | resetAfterResponse
  | gpioInputChange (pin : Nat) (level : Bool)
  | mgmtFailoverDone (carried : List Byte) (readFails : Bool)
  | powerStateEntryDone
  | wakeDone
  | receiveLpiChange (port : Nat) (on : Bool)
  | lpiWakeTimeExpiry (port : Nat)
  | mirrorWrite (t : Nat)
  deriving DecidableEq, Repr

end Sys2Proof
end

