-- ==== Sys2Proof/Decode.lean ====
section
/-! DEFINITION. The table's words: no row of spec/opcode_table.json gives a command any bits. -/
namespace Sys2Proof

/-- The command that a word of `nbits` bits spells: none, since no row of the opcode table has a field or a bit (log
entry 5). A command reaches the block through its pending queue, never as a table word. -/
def decodeTableWord (_nbits _w : Nat) : Option Instr := none

end Sys2Proof
end

