-- ==== Sys2Proof/Config.lean ====
section
/-! DEFINITION. What one device or its environment fixes and the spec leaves open: free values without a body, and the
constants that a standard outside the spec or the die itself supplies. -/
namespace Sys2Proof.Config

/-- The free value number `n` of a run: every value the spec leaves open is this constant applied to the counter
`State.free`, reduced to the range the spec states (log entry 1). -/
opaque freeWord : Nat → BitVec 64

/-- DEV_SERIAL (20 R424): fused, no structure (log entry 2). -/
opaque serial : BitVec 64

/-- The nonce and the associated data of a control datagram (02 R27): how they are formed is not stated. `up` is the direction from the
device (log entry 3). -/
opaque ctlNonce : (up : Bool) → (seq : Nat) → Fin 12 → Byte
opaque ctlAad : (up : Bool) → (seq : Nat) → List Byte

/-- The proportional gain of a loop of type 2 and damping 1 with a bandwidth in 0.001 Hz, in 2^-32 per second (05 R111, R115, 15 R308): how the
bandwidth of a loop is defined is not stated (log entry 107). -/
opaque loopGain : (bw : Nat) → BitVec 40

/-- The stored coefficients of Eddy (05 R117, R120), signed, for a quality, an input and an output rate: phase and tap (log entry 108). -/
opaque eddyStored : (mastering : Bool) → (fsIn fsOut phase tap : Nat) → BitVec 30

/-- The cubic interpolation of four neighbouring stored coefficients (05 R117); the formula is not stated (log entry 108). -/
opaque eddyCubic : (a b c d : BitVec 30) → (frac : BitVec 34) → BitVec 30

/-- The fraction bits of Eddy's coefficients and of its accumulator (05 R120, log entry 108). -/
opaque coeffFrac : BitVec 5
opaque accFrac : BitVec 6

/-- What a PTP instance tells of itself (13 R277), which the spec does not give: its clock identity by time base; class, accuracy, variance
and time source of its clock, by time base and TB_STATUS; and by profile and message (11 Announce, 0 Sync, 1 a request) the interval, 2^(k - 7)
seconds (log entry 30). -/
opaque ptpIdentity : (tb : Nat) → Fin 8 → Byte
opaque ptpQuality : (tb status : Nat) → Byte × Byte × BitVec 16 × Byte
opaque ptpInterval : (profile kind : Nat) → Fin 12

/-- The addresses and the DSCP that PTP messages over UDP are sent with, by timestamp port and by profile (log entry 30). -/
opaque portAddress : (port : Nat) → (v6 : Bool) → Fin 16 → Byte
opaque ptpDscp : (profile : Nat) → BitVec 6

/-- The key of a sealed-key slot of Lakebed (02 R27): 32 bytes nobody outside can read. -/
opaque sealedKey : (slot : Nat) → Nat → Byte

/-- Check 1 of 02 R43: header magic and length (the image format is not given, log entry 4). -/
opaque imgHeaderOk : List Byte → Bool

/-- Check 2 of 02 R43: SHA-384 of the header's public key equals the fused root key hash (log entry 4). -/
opaque imgKeyOk : List Byte → Bool

/-- Check 3 of 02 R43: the ECDSA P-384 signature verifies (log entry 4). -/
opaque imgSigOk : List Byte → Bool

/-- The security version number of an image, 0 to 63 (02 R43; where it stands in the header is not given, log entry 4). -/
opaque imgSvn : List Byte → BitVec 6

/-- The version word of an image (02 firmware.status, log entry 4). -/
opaque imgVersion : List Byte → BitVec 32

/-- The row a memory word lies in (18 R361): SRAM word or HBM3 unit index to a row number; the geometry is not given (log entry 38). -/
opaque rowOf : (hbm : Bool) → (loc : Nat) → Nat

/-- The HBM3 bank a row lies in (18 R350, log entry 38). -/
opaque bankOf : (row : Nat) → Nat

end Sys2Proof.Config
end

