-- ==== Sys2Proof/Machine/State.lean ====
section
/-! DEFINITION. The state of the device: everything the spec gives it, as plain data, with `State.reset`. -/
namespace Sys2Proof.Machine

/-- Why a step stops the machine. -/
inductive Fault where
  /-- Raised by the rows that write a register (REGISTER_WRITE, W1C_WRITE, MBX_DOORBELL, MBX_RSP_CI_WRITE, QUEUE_DOORBELL,
  CAL_COMMIT_WRITE, WEIR_COMMIT_WRITE, CHAIN_ADDR_WRITE, TWIN_FENCE_WRITE) when a reserved (RV) field is written with a value it does not
  read as: 20 R375 says that some such fields are live test controls whose effect "this manual does not define". Safe: the machine
  stops (log entry 47). -/
  | reservedTestControl (off : Nat)
  deriving DecidableEq, Repr

/-- Why the model has no meaning for a command. -/
inductive Refusal where
  /-- Raised by an arm of `exec` that has no meaning yet. Safe. -/
  | notModelled (mnemonic : String)
  deriving DecidableEq, Repr

/-! ### Records shared by every chapter -/

/-- An event record before it is written to a queue (03 R65). -/
structure Ev where
  typ    : Nat
  tenant : Nat
  tag    : Nat
  object : Nat
  status : Nat
  aux    : Nat
  deriving DecidableEq, Repr, Inhabited

/-- An event waiting for its queue: `fn` is the function (0 PF0, t+1 tenant t), `comp` a completion record (22 R406). -/
structure EvOut where
  fn   : Nat
  comp : Bool
  ev   : Ev
  deriving DecidableEq, Repr, Inhabited

/-- What a command touches or a pending command holds (02 R36, R37). -/
inductive Obj where
  | tenant (t : Nat)
  | queue (q : Nat)
  /-- The queue a tenant-rights mailbox names by its local index. -/
  | lq (t i : Nat)
  | stream (key : Nat)
  | bus (key : Nat)
  | task (n : Nat)
  | group (g : Nat)
  | port (code : Nat)
  | domain (d : Nat)
  | image
  | topology
  | device (n : Nat)
  deriving DecidableEq, Repr

/-- What a pending command still has to do (22 R403). -/
inductive PendWhat where
  | tenantDestroy (t : Nat)
  | modeSwitch (stream : Nat)
  | taskLoad (task : Nat)
  | netMode (group : Nat)
  | lpStop (codes : List Nat)
  | enumerate
  | forward (device : Nat) (result : Nat)
  | gate (domain : Nat) (setting : Nat)
  | fwLoad (slot : Nat) (image : List Byte)
  | fwActivate (slot : Nat)
  deriving DecidableEq, Repr

/-- A command answered with ACCEPTED_PENDING (02 R36). -/
structure PendCmd where
  mb     : Nat
  opcode : Nat
  tag    : Nat
  tenant : Nat
  what   : PendWhat
  holds  : List Obj
  /-- No record is written: its VF was reset (02 R38), or the active twin answers (16 R323). -/
  mute   : Bool := false
  deriving DecidableEq, Repr

/-- A slot on SAIn_DOUT: whether it is counted from the opposite FS edge rather than from the active one, the BCLK period of its first
bit from there, and its bits in the order sent (12 R249). -/
structure PinSlot where
  opposite : Bool
  start    : Nat
  bits     : List Bool
  deriving DecidableEq, Repr

/-- What leaves the device during a step. -/
inductive Out where
  /-- An MSI-X message of a function (0 PF0, n VF n) and vector, with the address and data of its table entry. -/
  | msix (fn vec : Nat) (addr data : Nat)
  /-- The datagram of a network control session (02 R27): session, destination address and port, sequence, body, tag. -/
  | datagram (session : Nat) (addr : List Byte) (port seq : Nat) (body tag : List Byte)
  /-- The value a register read returns. -/
  | read (path : Path) (off : Nat) (val : Nat)
  /-- A frame to a network port, with its traffic class and its egress timestamp's byte position, if it has one. -/
  | netFrame (port cls : Nat) (bytes : List Byte)
  /-- A frame sent in a transmit opportunity of a field port. -/
  | fldFrame (port : Nat) (bytes : List Byte)
  /-- A PLCA BEACON, a COMMIT or a jam of a field port (0 BEACON, 1 JAM). -/
  | fldSignal (port kind : Nat)
  /-- A frame on SAIn_DOUT: whether the line is held 0 outside the slots listed, or left high-Z there, and those slots (12 R249, R251,
  R262). -/
  | saiFrame (code : Nat) (held : Bool) (slots : List PinSlot)
  /-- A frame of an AES3 output: whether a Z preamble opens it, V, and the sample word, user bit and channel-status bit of each subframe
  (12 R266, R267). -/
  | aesFrame (code : Nat) (z v : Bool) (words : List (BitVec 32)) (user status : List Bool)
  /-- The output of a local port goes high-Z (0) or low (1) and stays so (12 R252). -/
  | pinLine (code level : Nat)
  /-- SAI28_BCLK and SAI28_FS become outputs at 49.152 MHz and 48 kHz, or inputs again (12 R268). -/
  | saiClock (on : Bool)
  /-- A packet of a loop stream from Outlet to Inlet (01 R8). -/
  | loopPacket (peer : Nat) (bytes : List Byte)
  /-- A heartbeat on a path. -/
  | heartbeat (path : Nat) (hb : Heartbeat)
  /-- Values of a frame sent to the standby device (16 R324). -/
  | twinValues (v : TwinVals)
  /-- Output CRCs of a frame for the shadow compare (16 R325). -/
  | shadow (tenant frame : Nat) (crcs : List (Nat × Nat))
  /-- The PCIe Device Readiness Status message; retry status ends (19 R372). -/
  | pcieReady
  /-- A mirrored command, with the number its choices are drawn under (16 R323). -/
  | mirror (r : Req) (choice : Nat)
  /-- A message on a Causeway lane: 1 enumeration request, 2 enumeration answer, 3 forwarded descriptor (VC 0), 4 completion (VC 1), 5
  response (VC 1), 6 firmware image (VC 0), 7 audio of a cascade leg (VC 2). -/
  | lane (lane kind : Nat) (bytes : List Byte)
  /-- A transfer on a peripheral I2C port (17 R347). -/
  | i2c (port addr : Nat) (wdata : List Byte) (rlen : Nat)
  /-- A value to Causeway's time-transfer lane (17 R339). -/
  | timeTransfer (tb : Nat) (val : Nat)
  /-- A PAUSE or PFC frame request, or LPI signalling, on a port (10). -/
  | linkSignal (port kind : Nat)
  deriving DecidableEq, Repr

/-! ### Control, mailboxes and boot (02) -/

/-- A command that a mailbox engine has taken and firmware has not started (02 R34): its descriptor as it stood when CI passed it
(R33), the rights it was taken under (manager, or the tenant: 02 device.mailbox_set), the indirect payload that came with it on a
Causeway link or in a control datagram (R25), the source address and port of that datagram (R27), and whether a function-level reset
discards its answer (R38). -/
structure Taken where
  desc    : Desc
  mgr     : Bool
  own     : Option Nat
  carried : Option (List Byte) := none
  peer    : List Byte × Nat := ([], 0)
  quiet   : Bool := false
  deriving DecidableEq, Repr, Inhabited

/-- A mailbox (02 R25, R32 to R34): indices modulo 128, the status bits, the two rings; `side` is what came with the descriptor of an
entry, its indirect payload and the source of its datagram; `taken` the commands taken and not started, oldest first. -/
structure Mbx where
  pi       : Nat := 0
  dbResult : Nat := 0
  cmdCi    : Nat := 0
  rspPi    : Nat := 0
  rspCi    : Nat := 0
  busySeen : Bool := false
  dbErr    : Bool := false
  slotErr  : Bool := false
  irqEn    : Bool := false
  cmd      : List Host.Cell := []
  rsp      : List Host.Cell := []
  side     : Tbl (List Byte × List Byte × Nat) := []
  taken    : List Taken := []
  deriving DecidableEq, Repr, Inhabited

/-- Rights and addressing of the chain-bus mailbox or a network control session (02 device.mailbox_set). -/
structure Session where
  rights  : Nat := 0
  tenant  : Nat := 0
  udpPort : Nat := 0
  keySlot : Nat := 0
  address : List Byte := []
  rxSeq   : Option Nat := none
  txSeq   : Nat := 0
  dropAt  : Option Nat := none
  deriving DecidableEq, Repr, Inhabited

/-- A Lakebed image slot (02 R43, R45). -/
structure Slot where
  verified : Bool := false
  svn      : Nat := 0
  version  : Nat := 0
  image    : List Byte := []
  /-- It holds the image the device was shipped with, whose bytes the spec does not give (23 R422). -/
  factory  : Bool := false
  deriving DecidableEq, Repr, Inhabited

/-- The command in execution when a management pair failed (02 R39): the mailbox, the command, whether its commit had taken place,
and the response that is owed then. -/
structure InFlight where
  mb        : Nat
  cmd       : Taken
  committed : Bool
  response  : List Byte
  deriving DecidableEq, Repr, Inhabited

/-- Wellhead, its firmware and the boot state (02). -/
structure Ctl where
  stage     : Nat := 0
  source    : Nat := 0
  slot      : Nat := 0
  trial     : Bool := false
  svn       : Nat := 0
  rollback  : Nat := 0
  failCode  : Nat := 0
  /-- Management pairs that have not failed (02 R39, R40). -/
  pairs     : Nat := 2
  mgmtDown  : Bool := false
  paused    : Bool := false
  /-- firmware.activate has been accepted: no command is taken, and PAUSED sets once every taken one is answered. -/
  handover  : Bool := false
  /-- A management-pair failover runs (02 R39). -/
  failover  : Bool := false
  /-- READY of the PCIe mailboxes has been set since the last host-port reset (19 R370, R372). -/
  hostUp    : Bool := false
  inFlight  : Option InFlight := none
  rrNext    : Nat := 1
  pf0Turn   : Bool := false
  slots     : Tbl Slot := []
  preferred : Nat := 0
  version   : Nat := 0
  chain     : Session := { rights := 1 }
  sessions  : Tbl Session := []
  authDrop  : Nat := 0
  pend      : List PendCmd := []
  removed   : List Obj := []
  deriving DecidableEq, Repr, Inhabited

/-! ### Tenants, queues and interrupts (03) -/

/-- One MSI-X table entry and its pending bit (PCIe specification). -/
structure Vec where
  addr   : Nat := 0
  data   : Nat := 0
  masked : Bool := true
  pend   : Bool := false
  deriving DecidableEq, Repr, Inhabited

/-- A function: PF0 is 0, VF n is n. `latch` holds the half-latch of each access path (20 R380). -/
structure Fn where
  mbxRsp   : Bool := false
  evqLost  : Bool := false
  dbStray  : Bool := false
  underrun : Bool := false
  d2hFull  : Bool := false
  strayCnt : Nat := 0
  lostCnt  : Nat := 0
  vecs     : Tbl Vec := []
  held     : List Ev := []
  latch    : Tbl (Nat × Nat) := []
  /-- The mirror registers of a VF (20 R385): SEQ, the Mere cycle of the last update (AGE_MS counts from it), and the last values
  written. -/
  seq      : Nat := 0
  mirrorAt : Option Nat := none
  tmMclk   : Nat := 0
  tmQuota  : List Nat := []
  tmUse    : List Nat := []
  tmStreams : Nat := 0
  tmPower  : Nat := 0
  deriving DecidableEq, Repr, Inhabited

/-- A queue context (03 R56), without its live indices. -/
structure QCtx where
  typ       : Nat
  mem       : Nat
  sfmt      : Nat
  state     : Nat
  tenant    : Nat
  entLog    : Nat
  ringLog   : Nat
  depth     : Nat
  base      : Nat
  vector    : Nat
  coalCount : Nat
  coalTime  : Nat
  link      : Nat
  deriving DecidableEq, Repr, Inhabited

/-- A queue: the context in force, the context a command has written for the next frame boundary, the indices, and what
03 R54 to R66 give a ring: counters, arming, coalescing, SEQ, GAP. `ctx = none` before the first boundary. -/
structure Queue where
  lq       : Nat
  typ      : Nat
  tenant   : Nat
  ctx      : Option QCtx := none
  next     : Option QCtx := none
  destroy  : Bool := false
  pi       : Nat := 0
  ci       : Nat := 0
  produced : Nat := 0
  consumed : Nat := 0
  dbRef    : Nat := 0
  full     : Nat := 0
  under    : Nat := 0
  badEnt   : Nat := 0
  irqs     : Nat := 0
  armed    : Bool := false
  unsig    : Nat := 0
  timeUp   : Bool := false
  seq      : Nat := 0
  gap      : Bool := false
  lost     : Nat := 0
  refAt    : Option Nat := none
  runUnder : Bool := false
  /-- Of a host-to-device audio ring: the data of the frame in progress (03 R59). -/
  frame    : List (List F32) := []
  deriving DecidableEq, Repr, Inhabited

/-! ### Media clocks (05 R105 to R113) -/

/-- A binding given by mclk.bind. BW in 0.01 Hz, SLEW_LIMIT in microseconds, MC_OFFSET in samples. -/
structure Bind where
  source    : Nat := 0
  rateTb    : Nat := 0
  object    : Nat := 0
  bw        : Nat := 100
  slewLimit : Nat := 100
  mcOffset  : Int := 0
  align     : Bool := false
  deriving DecidableEq, Repr, Inhabited

/-- A tenant's media clock: the accumulator in units of 2^-56 sample modulo 2^104 (MC_EXT in [103:56], FRAC in [55:24], the guard bits
below), INC, the integrator of its loop (2^-32 INC), state (0 free, 1 acquiring, 2 locked, 3 holdover), offset in use and phase error in
units of 2^-32 sample, the INC of the last 1,000 updates, updates spent within 0.01 sample, the second of the last MCLK_CLAMP, the binding
staged for the next boundary, and what mclk.query answers for at the last update (accumulator, INC, state, error). -/
structure MClk where
  acc      : Nat := 0
  inc      : Nat := 0
  integ    : Int := 0
  state    : Nat := 0
  bind     : Bind := {}
  offUse   : Int := 0
  err      : Int := 0
  incs     : List Nat := []
  lockMs   : Nat := 0
  clampAt  : Option Nat := none
  staged   : Option Bind := none
  lost     : Bool := false
  snap     : Option (Nat × Nat × Nat × Int) := none
  deriving DecidableEq, Repr, Inhabited

/-! ### Pool (06) -/

/-- An input reference, ordered as (KIND, OBJECT, CH) (06 R130, R140). -/
structure InRef where
  kind : Nat
  obj  : Nat
  ch   : Nat
  deriving DecidableEq, Repr, Inhabited

/-- A key bind on a crosspoint (06 R152): source 0 station key, 1 GPIO; `on` the latch or held target. -/
structure KeyBind where
  src     : Nat
  port    : Nat
  node    : Nat
  key     : Nat
  latch   : Bool
  gainOn  : Nat
  gainOff : Nat
  ramp    : Nat
  on      : Bool
  deriving DecidableEq, Repr, Inhabited

/-- A crosspoint (06 R132, R138): present gain and ramp; `live` from the boundary at which it starts; `next` the target,
RAMP and removal a command has set for the next boundary; `removing` while it ramps out. -/
structure Xp where
  input    : InRef
  ch       : Nat
  code     : Nat := 0x8000
  g        : F32 := 0
  g0       : F32 := 0
  d        : F32 := 0
  k        : Nat := 0
  left     : Nat := 0
  target   : F32 := 0
  live     : Bool := false
  removing : Bool := false
  /-- Its input is closed: it goes when the close takes effect (06 R151), that of a task at the task's block boundary. -/
  gone     : Bool := false
  task     : Option Nat := none
  next     : Option (Nat × Nat × Bool) := none
  bind     : Option KeyBind := none
  late     : Bool := false
  deriving DecidableEq, Repr, Inhabited

/-- A bus (06 R131 to R136): its queue, attributes, crosspoints in the order of 06 R140, counters, and the last frame it
completed (one list of WIDTH samples per instant). -/
structure Bus where
  lq       : Nat
  q        : Nat
  mixMinus : Bool
  width    : Nat
  rank     : Nat
  late     : Bool
  gOut     : Nat
  ramp     : Nat
  parent   : Nat
  exclude  : InRef
  /-- What a mix-minus bus is charged (06 R148). -/
  charge   : Nat := 0
  live     : Bool := false
  closing  : Bool := false
  xps      : List Xp := []
  clip     : Nat := 0
  clamp    : Nat := 0
  clipAt   : Option Nat := none
  /-- Its table or ramp state was lost: it carries zeros for this frame (18 R351). -/
  ue       : Bool := false
  out      : List (List F32) := []
  deriving DecidableEq, Repr, Inhabited

/-- A tenant's mix (06 R148, R149): default RAMP, MIX_PRIORITY, counters, shed state, and the buses by LQ. -/
structure Mix where
  ramp      : Nat := 480
  priority  : Nat := 128
  badSample : Nat := 0
  shedFrames : Nat := 0
  shed      : Bool := false
  fading    : Bool := false
  /-- Samples of the shed fade that have been made. -/
  faded     : Nat := 0
  buses     : Tbl Bus := []
  deriving DecidableEq, Repr, Inhabited

/-- Amounts of the six quotas (03 R48), with the two directions of ch48 in thirds (03 R49). -/
structure Use where
  queues : Nat := 0
  rx     : Nat := 0
  tx     : Nat := 0
  xp     : Nat := 0
  cores  : Nat := 0
  keys   : Nat := 0
  hbm    : Nat := 0
  deriving DecidableEq, Repr, Inhabited

/-- A tenant (01 R7, 03 R47 to R52): rate, period, the quotas (`rx` and `tx` of `quota` both hold the one ch48 quota), their
use, the interrupt mode with the mode a command has set for the next boundary, and the frame in progress. -/
structure Tenant where
  rate96     : Bool := false
  period     : Nat := 0
  perFn      : Bool := false
  nextPerFn  : Option Bool := none
  /-- The binding that tenant.bind or tenant.unbind has set for the next boundary (02 R38, 03 R52). -/
  nextBound  : Option Bool := none
  /-- Network ports its host rings may send to (10 R223). -/
  txMask     : Nat := 0
  quota      : Use := {}
  use        : Use := {}
  destroying : Bool := false
  frame      : Nat := 0
  /-- Samples by which an ALIGN has shortened the frame in progress (05 R113). -/
  skip       : Nat := 0
  mclk       : MClk := {}
  mix        : Mix := {}
  /-- Schedule entries applied since the last frame's values were sent to a standby (13 R284). -/
  acted      : List SchedShot := []
  /-- Key transitions given to Pool since then (06 R152). -/
  keyed      : List (Nat × Nat × Nat × Nat × Bool) := []
  /-- Tasks that have overrun since then, and that faults have stopped (09 R208). -/
  overran    : List Nat := []
  faulted    : List (Nat × Nat) := []
  /-- The standby's values for the frame in progress (16 R324), and the ratios of the frame that comes (05 R128). -/
  vals       : Option TwinVals := none
  ratios     : Option TwinVals := none
  deriving DecidableEq, Repr, Inhabited

/-! ### Streams (04, 05 R114 to R126) -/

/-- A key slot (04 R84). -/
structure Key where
  cipher : Nat
  keyId  : Nat
  mkey   : List Byte
  salt   : List Byte
  deriving DecidableEq, Repr, Inhabited

/-- One leg of a stream: policer tokens (in units of 1/(1,000 x SPP x 1.2e9) token) with the Mere cycle they stand for,
the highest extended sequence number, the rollover counter with its replay window, the last admission, the AAF timestamp
last carried, and for transmit the IPv4 identification and the packet that a single-transmit
standby has built and not sent. -/
structure Leg where
  tokens   : Nat := 0
  tokAt    : Nat := 0
  seqHi    : Option Int := none
  idxHi    : Option Nat := none
  window   : List Nat := []
  admitAt  : Option Nat := none
  up       : Bool := false
  tsSeq    : Option (Int × Nat) := none
  ipId     : Nat := 0
  fenced   : Option (List Byte) := none
  deriving DecidableEq, Repr, Inhabited

/-- One sample instant of a jitter buffer (04 R93), whose position gives its presentation time: the samples of all channels,
the extended sequence number of the packet that filled it, and whether it has been presented. -/
structure JSlot where
  data      : List F32
  seq       : Int
  presented : Bool := false
  deriving DecidableEq, Repr, Inhabited

/-- A stream clock estimator (05 R114, R115): settings of mclk.estimator_set, r (44 fraction bits), the integrator of its loop (its part
of r, 2^-76), the window minimum, the state of 05 mclk.stream_query, whether r stands at its clamp, milliseconds of acquisition left,
and the anchor of its predictions (position, arrival). -/
structure Est where
  bw        : Nat := 10
  window    : Nat := 50
  acqTime   : Nat := 10
  slipAlarm : Nat := 10
  phaseTc   : Nat := 500
  r         : Nat := 17592186044416
  integ     : Int := 0
  minErr    : Option Int := none
  state     : Nat := 0
  limited   : Bool := false
  acqLeft   : Nat := 0
  predPos   : Nat := 0
  predTime  : Nat := 0
  deriving DecidableEq, Repr, Inhabited

/-- A mode switch (05 R126): new mode, XFADE, phase (1 growing delay, 2 filling and crossfading, 3 shedding delay), frames
left of the delay to grow or shed, and samples left of filling and crossfade. -/
structure Switch where
  mode  : Nat
  xfade : Nat
  phase : Nat
  slips : Nat
  left  : Nat
  /-- Its first frame boundary has passed. -/
  live  : Bool := false
  deriving DecidableEq, Repr, Inhabited

/-- An instant of a conversion's output: whether it is lost (concealed), and its samples. -/
structure Inst where
  lost : Bool
  data : List F32
  deriving DecidableEq, Repr, Inhabited

/-- An instant of a conversion's input that has been presented: its position and its samples as presented. -/
structure Past where
  pos  : Nat
  lost : Bool
  data : List F32
  deriving DecidableEq, Repr, Inhabited

/-- A conversion (05 R116 to R126): mode in force; rho, c and input position (44 fraction bits) and phase error (2^-16 input sample) of
its path; ratio and position of the path a switch brings in; whether the next boundary realigns, and the samples of a realignment still
to make (32 to 1); the delay lines of both paths; the position lock-follow takes next while the other path presents; the input presented
last, newest first; the switch, slip and realignment counters, slips of the present minute and whether it has had its alarm; the Eddy units
held; whether ratio and correction are a former active device's (R128); and whether its history was lost at the last boundary (18 R351). -/
structure Conv where
  mode      : Nat := 0
  rho       : Nat := 0
  pos       : Option Nat := none
  corr      : Int := 0
  phaseErr  : Int := 0
  rho2      : Nat := 0
  pos2      : Option Nat := none
  realign   : Bool := false
  fade      : Nat := 0
  line      : List Inst := []
  line2     : List Inst := []
  followPos : Option Nat := none
  past      : List Past := []
  switch    : Option Switch := none
  slipDrop  : Nat := 0
  slipRep   : Nat := 0
  swSlips   : Nat := 0
  realigns  : Nat := 0
  minute    : Nat := 0
  minSlips  : Nat := 0
  alarmed   : Bool := false
  units     : Nat := 0
  pendUnits : Nat := 0
  taken     : Bool := false
  wiped     : Bool := false
  deriving DecidableEq, Repr, Inhabited

/-- The receive side of a stream (04 R87 to R97). Times are in 2^-16 ns of the stream's TB, modulo 2^48. `head` is the
position the next sample instant takes; positions are extended RTP timestamps (AAF: sample counts). `reanchor` says that the next packet
sets a new anchor (R91), `early` holds the instants of the frame in progress that a lock-follow stream presented before that. -/
structure RxSide where
  anchorRtp : Nat := 0
  anchorNs  : Nat := 0
  anchored  : Bool := false
  reanchor  : Bool := false
  early     : List Inst := []
  hist      : List (Int × Nat) := []
  drops     : Nat := 0
  tsDrops   : Nat := 0
  tsFault   : Bool := false
  slots     : Tbl JSlot := []
  head      : Option Nat := none
  /-- `head` has not come to its presentation since it was set. -/
  fresh     : Bool := false
  gap       : Nat := 0
  lastV     : List F32 := []
  recent    : List (List F32) := []
  fadeIn    : Nat := 17
  active    : Bool := false
  silent    : Bool := false
  admitAt   : Option Nat := none
  out       : List (List F32) := []
  mask      : List Bool := []
  est       : Est := {}
  conv      : Conv := {}
  deriving DecidableEq, Repr, Inhabited

/-- A packet built for the slots of a frame (04 R98, R99): header, payload, SRTP index, and whether its samples are zeros
for want of a frame. -/
structure TxPkt where
  header  : List Byte
  payload : List Byte
  index   : Nat
  zero    : Bool
  deriving DecidableEq, Repr, Inhabited

/-- The transmit side of a stream (04 R98 to R100): SSRC, next sequence number, SRTP index, slot, whether no packet has been
built yet, the STQ (frames of WIDTH samples per instant, oldest first), frames since the last packet, and the packet due for
the legs' next slots (header and payload before encryption, its index, whether its samples are missing). -/
structure TxSide where
  ssrc   : Nat := 0
  seq    : Nat := 0
  index  : Nat := 0
  slot   : Nat := 0
  first  : Bool := true
  stq    : List (List (List F32)) := []
  pkt    : Option TxPkt := none
  dueA   : Bool := false
  dueB   : Bool := false
  deriving DecidableEq, Repr, Inhabited

/-- A stream (04 R71, R80): the stream.open payload in force (144 bytes, with POL_TOL and POL_BURST as in force), its
tenant, queue, enabled legs, keys, a staged stream.modify, and its counters by index (04 R104). -/
structure Stream where
  tenant  : Nat
  cfg     : List Byte
  q       : Nat
  lq      : Nat
  live    : Bool := false
  closing : Bool := false
  peerGone : Bool := false
  legEn   : Nat := 3
  modify  : Option (List Byte) := none
  key     : Option Key := none
  nextKey : Option (Nat × Key) := none
  nextUsed : Bool := false
  newKey  : Option Key := none
  estNext : Option (List Byte) := none
  slots   : Nat := 0
  charge  : Use := {}
  legA    : Leg := {}
  legB    : Leg := {}
  rx      : RxSide := {}
  tx      : TxSide := {}
  ctr     : Tbl Nat := []
  deriving DecidableEq, Repr, Inhabited

/-! ### Time engine (13) -/

/-- The data of a PTP grandmaster as an Announce gives them, with the steps to it and the port that announces it (13 R277). -/
structure PtpClock where
  prio1  : Nat
  cls    : Nat
  acc    : Nat
  var    : Nat
  prio2  : Nat
  gm     : List Byte
  steps  : Nat
  sender : List Byte
  deriving DecidableEq, Repr, Inhabited

/-- A port of a PTP instance (13 R277): its state (0 listening, 1 master, 2 passive, 3 slave), the best master heard with the milliseconds
until it is forgotten, senders heard once, milliseconds of listening left, the transport last heard (0 Ethernet, 1 UDP/IPv4, 2 UDP/IPv6),
milliseconds to the next Announce, Sync and request, their sequence numbers, a Sync that waits for its Follow_Up (sequence, arrival), the
last pair of origin and arrival, the last request with its egress stamp, a Pdelay_Resp that waits for its Follow_Up (sequence, time between
request and answer, the peer's receipt), and the mean path delay. Times are full times in 2^-16 ns. -/
structure PtpPort where
  state     : Nat := 0
  best      : Option PtpClock := none
  bestLeft  : Nat := 0
  once      : List (List Byte) := []
  wait      : Nat := 0
  transport : Option Nat := none
  annLeft   : Nat := 0
  syncLeft  : Nat := 0
  reqLeft   : Nat := 0
  annSeq    : Nat := 0
  syncSeq   : Nat := 0
  reqSeq    : Nat := 0
  pend      : Option (Nat × Int) := none
  sync      : Option (Int × Int) := none
  request   : Option (Nat × Int) := none
  answer    : Option (Nat × Int × Int) := none
  delay     : Int := 0
  deriving DecidableEq, Repr, Inhabited

/-- A time base (13 R271 to R280): the count in units of 2^-48 ns modulo 2^80, the frequency adjustment (1/256 ppb), the
slew not yet applied (2^-48 ns) and its rate (ppm), status, the PTP instance's settings and its ports by their bit of PORTS, the anchor, and in mode 1 the frequency
adjustments of the last seconds, newest first (15 R310). -/
structure TimeBase where
  val      : Nat := 0
  adj      : Int := 0
  slew     : Int := 0
  slewRate : Nat := 0
  mode     : Nat := 0
  valid    : Bool := false
  locked   : Bool := false
  holdover : Bool := false
  stepRef  : Bool := false
  stepped  : Bool := false
  utcKnown : Bool := false
  utcOff   : Int := 0
  anchorAt : Option Nat := none
  sec      : Nat := 0
  ns       : Nat := 0
  gen      : Nat := 0
  low      : Nat := 0
  profile  : Nat := 0xFF
  domain   : Nat := 0
  ports    : Nat := 0
  flags    : Nat := 0
  prio1    : Nat := 0
  prio2    : Nat := 0
  stepThr  : Nat := 1000
  forced   : Bool := false
  refused  : Bool := false
  hist     : List Int := []
  ptp      : Tbl PtpPort := []
  deriving DecidableEq, Repr, Inhabited

/-- Timestamp registers of a port (13 TS_CTRL, TS_ASYM, TS_CORR). -/
structure TsPort where
  defTb   : Nat := 0
  raw     : Bool := false
  asymIn  : Nat := 0
  asymOut : Nat := 0
  corrIn  : Nat := 0
  corrOut : Nat := 0
  deriving DecidableEq, Repr, Inhabited

/-- A date and time of day (13 CAL_TIME), without SUBSEC. -/
structure CalTime where
  sec   : Nat := 0
  min   : Nat := 0
  hour  : Nat := 0
  day   : Nat := 1
  month : Nat := 1
  year  : Nat := 0
  deriving DecidableEq, Repr, Inhabited

/-- The calendar, in the backup domain (13 R282, R283): the time, SUBSEC, the part of a cycle that CAL_TRIM has gathered (2^-20), CAL_SET as
staged, whether a commit waits for the next XB edge,
the time-base instant a time.cal_sync waits for, CAL_TRIM and CAL_STATUS. -/
structure Cal where
  now     : CalTime := {}
  sub     : Nat := 0
  trimAcc : Int := 0
  set     : Nat := 0
  pending : Bool := false
  syncAt  : Option (Nat × Nat) := none
  trim    : Nat := 0
  dateErr : Bool := false
  valid   : Bool := false
  wrap    : Bool := false
  xbStop  : Bool := false
  wday    : Nat := 5
  deriving DecidableEq, Repr, Inhabited

/-- A schedule entry: its owner (tenant, or 0xFFFF for a manager's), its 30-byte payload (13 time.schedule), whether the calendar
has come to one of its instants, and the last instant that fired (calendar seconds). -/
structure Sched where
  owner : Nat
  p     : List Byte
  due   : Bool := false
  last  : Option Nat := none
  deriving DecidableEq, Repr, Inhabited

/-! ### Tarn tasks (09) -/

/-- A task (09 R197 to R210): what tarn.load gave it, where it is placed, its queues, its run state and counters. `order` is
its load order; `inputs` the frames of the block being gathered, newest last; `outs` the output frames still to come. -/
structure Task where
  tenant   : Nat
  cluster  : Nat
  core     : Nat
  library  : Bool
  libId    : Nat
  channels : Nat
  k        : Nat
  phase    : Nat
  resident : Bool
  fmt      : Bool
  cycles   : Nat
  localBase : Nat
  localWords : Nat
  cwBase   : Nat
  cwWords  : Nat
  hbm      : Nat
  input    : InRef
  ref      : InRef
  hasRef   : Bool
  stream   : Nat
  outRate  : Nat
  param    : List Byte
  nextParam : Option (List Byte) := none
  image    : List Byte
  vbase    : Nat := 0
  inBase   : Nat := 0
  outBase  : Nat := 0
  /-- The HBM3 window, by 8-byte unit. -/
  hbmData  : Tbl (BitVec 64) := []
  inQ      : Nat
  outQ     : Nat
  inLq     : Nat
  outLq    : Nat
  late     : Bool := false
  order    : Nat := 0
  live     : Bool := false
  closing  : Bool := false
  stopped  : Bool := false
  restart  : Bool := false
  pendRun  : Bool := false
  running  : Bool := false
  started  : Bool := false
  blocks   : Nat := 0
  overran  : Bool := false
  signals  : List Nat := []
  overruns : Nat := 0
  inClip   : Nat := 0
  sigDrop  : Nat := 0
  overAt   : Option Nat := none
  inputs   : List (List (List F32)) := []
  block    : List (List (List F32)) := []
  /-- The loss marks of the frames gathered, of INPUT and of REF, and those of the block where its stream gives a mask (R202). -/
  maskIn   : List (List Bool) := []
  refIn    : List (List Bool) := []
  masks    : Option (List Bool) := none
  refMasks : Option (List Bool) := none
  coded    : List (List Byte) := []
  out      : List (List F32) := []
  outs     : List (List (List F32)) := []
  deriving DecidableEq, Repr, Inhabited

/-! ### Tarn cores (07, 08) -/

/-- A DMA channel (07 R159): DLOC, DEXT, DCNT and the fields of DCTL; of a running transfer the task whose window it serves, and
DLOC, DEXT, DCNT and DIR as GO checked them. -/
structure Dma where
  dloc : BitVec 24 := 0
  dext : BitVec 32 := 0
  dcnt : BitVec 15 := 0
  task : Nat := 0
  loc  : Nat := 0
  ext  : Nat := 0
  cnt  : Nat := 0
  out  : Bool := false
  dir  : Bool := false
  irq  : Bool := false
  busy : Bool := false
  done : Bool := false
  err  : Bool := false
  code : BitVec 2 := 0
  deriving DecidableEq, Repr, Inhabited

/-- A branch, call or return that waits for its delay slot (07 R166, R167): its address, and where it goes if it is taken, what it
pushes, and whether it pops. -/
structure Branch where
  addr   : BitVec 14
  target : Option (BitVec 14)
  push   : Bool := false
  pop    : Bool := false
  isCall : Bool := false
  /-- The modes of the shadow as they stood when it issued (R175). -/
  shadow : List (BitVec 16) := []
  deriving DecidableEq, Repr, Inhabited

/-- A Tarn core by its logical number 17c + k (07 R153 to R179). `mode` is MODE as last written and `shadow` the modes of the
instructions of its shadow still to issue (R171). `rep` says that a REPEAT is in force, `brk` that the next BREAK is a NOP (08
R194), `waiting` that a WAIT holds issue. `stores` is the store buffer, oldest first: an address and its half-words. `run` is the
task whose run is in progress or, resident, has the core; a core with none, or halted, issues nothing. -/
structure Core where
  d      : Vector W16 16 := Vector.replicate 16 0
  a      : Vector (BitVec 40) 8 := Vector.replicate 8 0
  p      : Vector (BitVec 24) 8 := Vector.replicate 8 0
  m      : Vector (BitVec 24) 8 := Vector.replicate 8 0
  b      : Vector (BitVec 24) 8 := Vector.replicate 8 0
  l      : Vector (BitVec 24) 8 := Vector.replicate 8 0
  sr     : BitVec 16 := 0
  mode   : BitVec 16 := 0
  wc0    : BitVec 16 := 0
  wf0    : BitVec 14 := 0
  wl0    : BitVec 14 := 0
  wc1    : BitVec 16 := 0
  wf1    : BitVec 14 := 0
  wl1    : BitVec 14 := 0
  rc     : Nat := 0
  pc     : BitVec 14 := 0
  stack  : List (BitVec 14) := []
  vbase  : BitVec 14 := 0
  cwbase : BitVec 24 := 0
  cwlim  : BitVec 24 := 0
  epc    : BitVec 14 := 0
  estat  : BitVec 10 := 0
  emode  : BitVec 32 := 0
  eaddr  : BitVec 24 := 0
  ipc    : BitVec 14 := 0
  istat  : BitVec 10 := 0
  imode  : BitVec 32 := 0
  ien    : BitVec 7 := 0
  ipend  : BitVec 7 := 0
  cmsgIn : BitVec 13 := 0
  dma    : Vector Dma 4 := Vector.replicate 4 {}
  shadow : List (BitVec 16) := []
  rep    : Bool := false
  /-- The REPEAT in force has issued no iteration yet. -/
  fresh  : Bool := false
  branch : Option Branch := none
  brk    : Bool := false
  waiting : Bool := false
  /-- A resident task waits for BLOCK, its run over (09 R203). -/
  held : Bool := false
  /-- The scheduler has requested a halt that waits for its boundary (R179). -/
  haltReq : Bool := false
  halted : Bool := false
  stores : List (Nat × List W16) := []
  lmem   : Tbl W16 := []
  imem   : Tbl (BitVec 32) := []
  run    : Option Nat := none
  deriving DecidableEq, Repr, Inhabited

/-- The array (09): cores, cluster memories by cluster, spares in service by cluster with the logical core they serve, and cores
that have failed. -/
structure TarnArray where
  cores  : Tbl Core := []
  cmem   : Tbl (Tbl W16) := []
  spares : Tbl Nat := []
  failed : List Nat := []
  /-- Cores whose tasks came from a failed core: the cluster whose memory holds their regions (R207). -/
  homes  : Tbl Nat := []
  deriving DecidableEq, Repr, Inhabited

/-! ### Clock generation (14) -/

/-- Wellspring (14): CLK_SRC_STATUS and whether oscillators are enabled, whether the fallback set has its clock (step 3 of R296) and whether
the other synchronous domains run on the root, CLK_FAULT, CLK_RETRY, CLK_FOSC_MEAS, the gating mode and the settings given by
power.gate_set, windows in which a source has not been accepted since it was started, whether XA is enabled, the sources whose
device-wide failures last with the retries since, and failures that Sundique has yet to report. FOSC_SEL and CORE_SRC are triplicated
fields. -/
structure Clk where
  sosc     : Bool := false
  enA      : Bool := false
  enB      : Bool := false
  foscA    : Bool := false
  foscB    : Bool := false
  xa       : Bool := false
  root     : Bool := false
  sds      : Nat := 0
  started  : Bool := false
  running  : Bool := false
  fault    : Nat := 0
  retries  : Nat := 0
  devA     : Nat := 0
  devB     : Nat := 0
  auto     : Bool := false
  settings : Tbl Nat := []
  tries    : Tbl Nat := []
  enX      : Bool := false
  failed   : List Nat := []
  tried    : Nat := 0
  report   : List Nat := []
  deriving DecidableEq, Repr, Inhabited

/-! ### Cascade and chain bus (17) -/

/-- A device of the cascade as its manager knows it (17 R336, R342); `fresh` says that the enumeration under way numbers it, `order` is
its place in hop order. -/
structure CwDev where
  ident   : Nat
  fresh   : Bool
  order   : List Nat
  present : Bool
  hops    : Nat
  lane    : Nat
  path    : List Nat
  bootSel : Nat
  stage   : Nat
  deriving DecidableEq, Repr, Inhabited

/-- A forwarded request on its way to worker `dev` (17 R333, R342): the lane it was sent on, none while it waits for VC 0 credits or for
space for its response. -/
structure Fwd where
  dev   : Nat
  lane  : Option Nat
  bytes : List Byte
  deriving DecidableEq, Repr, Inhabited

/-- Causeway (17): CW_STATUS, the lanes of cascade.enumerate with its flags and the answers gathered, the numbered devices, the lane
toward the manager, the forwarded requests without a response, oldest first (what they hold of VC 0 and VC 1 follows from them), the
completions still to come of commands that answered ACCEPTED_PENDING (worker, lane), and legacy cascade with a change staged for a boundary of its
tenant (enable, tenant, TX_MASKs). -/
structure Cway where
  devNum   : Nat := 0
  numbered : Bool := false
  manager  : Bool := false
  topo     : Nat := 0
  link     : Nat := 0
  twinLink : Nat := 0
  lanes    : Nat := 0
  flags    : Nat := 0
  found    : List EnumInfo := []
  devs     : Tbl CwDev := []
  upLane   : Nat := 0
  lostMgr  : Bool := false
  fwds     : List Fwd := []
  owed     : List (Nat × Nat) := []
  legacy   : Option Nat := none
  legacyNext : Option (Bool × Nat × List Nat) := none
  deriving DecidableEq, Repr, Inhabited

/-- The chain-bus interface (17 R343 to R345): CHAIN_ADDR, CHAIN_STATUS, CHAIN_WR_DENIED, and an address written and not yet taken. -/
structure Chain where
  addr     : Nat := 0x4C
  assigned : Bool := false
  addrIn   : Bool := false
  addrOut  : Bool := false
  addrErr  : Bool := false
  busTmo   : Bool := false
  partials : Nat := 0
  denied   : Nat := 0
  deriving DecidableEq, Repr, Inhabited

/-! ### Memory, Lakebed and spares (18) -/

/-- What a record of the fault log tells (14 R293, 18 R358, 23 R419). -/
inductive LogWhat where
  | clock (source : Nat)
  | thermal
  | summary (lost : Nat)
  deriving DecidableEq, Repr, Inhabited

/-- A record of the fault log (18 R358): its sequence number, what it tells, the calendar stamp of CAL_TIME, and its 64 bytes, whose
layout is not given. -/
structure LogRec where
  seq   : Nat
  what  : LogWhat
  stamp : Nat
  data  : List Byte
  deriving DecidableEq, Repr, Inhabited

/-- A copy of the map of logical to physical Lakebed blocks, with its sequence number; the blocks that have not moved are left out
(18 R355). -/
structure MapCopy where
  seq : Nat := 0
  map : Tbl Nat := []
  deriving DecidableEq, Repr, Inhabited

/-- Memories, Lakebed and spares (18): policy, HLTH_MEM_ERR, the five counters, the last margins and temperatures, how many ticks
running a margin has been low, what a spare replaces (`eddyRep`, `poolRep` the replaced bank), the tenants whose state has still to
move from it, banks that failed with no spare left, worn Tarn cores by domain number, corrected errors of rows with the second they
fell in, rows being replaced (HBM3 or SRAM, row, whether by a fault), rows replaced by macro or bank, poisoned words, the repair list,
fault triggers of banks that wait for an insertion of their kind to end (kind, bank), pool blocks left, line writes by physical block, the two
copies of the map of logical to physical blocks, counts at mapping,
exhausted regions, tenant stores with their line tokens and the second they stand for, the fault log with the present second's records
and losses, the configuration store (commands to be applied at readiness), and whether the resume image holds a state. -/
structure Health where
  marginMin : Nat := 40
  scrub     : Nat := 24
  memErr    : Nat := 0
  sramCe    : Nat := 0
  sramUe    : Nat := 0
  hbmCe     : Nat := 0
  hbmUe     : Nat := 0
  lkbCe     : Nat := 0
  margins   : Tbl Nat := []
  temps     : List Int := []
  low       : Tbl Nat := []
  eddyRep   : Option Nat := none
  poolRep   : Option Nat := none
  eddyMove  : List Nat := []
  poolMove  : List Nat := []
  eddyDead  : List Nat := []
  poolDead  : List Nat := []
  wear      : List Nat := []
  rowErrs   : List (Nat × Nat) := []
  rowWait   : List (Bool × Nat × Bool) := []
  rowsUsed  : Tbl Nat := []
  poison    : List (MemOwner × Nat) := []
  repair    : List (Nat × Nat) := []
  trigs     : List (Nat × Nat) := []
  lkbSpares : Nat := 1024
  blocks    : Tbl Nat := []
  mapA      : MapCopy := {}
  mapB      : MapCopy := {}
  mapped    : Tbl Nat := []
  exhausted : List Nat := []
  store     : Tbl (List Host.Cell) := []
  tokens    : Tbl (Nat × Nat) := []
  log       : List LogRec := []
  logNext   : Nat := 0
  logSec    : Nat × Nat × Nat := (0, 0, 0)
  config    : List Req := []
  resume    : Bool := false
  deriving DecidableEq, Repr, Inhabited

/-! ### Network and field ports (10, 11) -/

/-- A lane group (10 R211): mode, FEC (0 as the mode, 1 none), transmit preset, whether its LC PLL calibrates, and whether a mode change
is pending, until whose end the ports of the new mode do not exist. -/
structure NetGroup where
  mode   : Nat := 0
  fec    : Nat := 0
  preset : Nat := 0
  pllCal : Bool := false
  pending : Bool := false
  deriving DecidableEq, Repr, Inhabited

/-- A frame held in a port's traffic class (10 R215, R224): its bytes, whose stream leg it is, of a PTP event message the time base whose
instance sends it and where its header stands (13 R278), whether it follows up a message by its egress stamp, and whether it waits for the
LC PLL rather than for pause alone. -/
structure TxHeld where
  cls    : Nat
  bytes  : List Byte
  leg    : Option (Nat × Nat) := none
  ptp    : Option (Nat × Nat) := none
  follow : Bool := false
  calib  : Bool := false
  deriving DecidableEq, Repr, Inhabited

/-- A frame for Inlet (10 R217): its class, its length as received, its bytes, the tags it may have, the ring it goes to (tenant, LQ, SRC,
stamp), none for a frame that Wellhead takes, and of a PTP message its arrival in each time base. -/
structure InFrame where
  cls    : Nat
  len    : Nat
  bytes  : List Byte
  tags   : Nat
  ring   : Option (Nat × Nat × Nat × Nat × Nat)
  stamps : List (Nat × Int)
  deriving DecidableEq, Repr, Inhabited

/-- A network port (10): the net.port_config in force, link state, flow control, interrupts, counters by index, the frames
that wait, oldest first, and those in the MAC buffer, which Inlet has not taken (R217). `pausedAt` is the Mere cycle since which a class is held, `pausedRem` the cycles below one
microsecond not yet counted. -/
structure NetPort where
  mac        : List Byte := [0, 0, 0, 0, 0, 0]
  maxFrame   : Nat := 1526
  rxFlags    : Nat := 1
  rxClass    : Nat := 0
  defTenant  : Nat := 0xFFFF
  defRing    : Nat := 0xFFFFFFFF
  tagFlags   : Nat := 0
  outerTci   : Nat := 0
  pauseMode  : Nat := 1
  pfcEn      : Nat := 0x7F
  pauseWd    : Nat := 20
  wdHold     : Nat := 100
  txnrHold   : Nat := 20
  hostClass  : Nat := 0
  lpiEn      : Nat := 0
  lpiIdle    : Nat := 50
  link       : Bool := false
  adapting   : Bool := false
  localFault : Bool := false
  remoteFault : Bool := false
  rxLpi      : Bool := false
  txLpi      : Bool := false
  held       : Nat := 0
  wdMask     : Nat := 0
  pausedAt   : Option Nat := none
  pausedRem  : Nat := 0
  int        : Nat := 0
  intEn      : Nat := 0
  half       : Nat := 0
  ctr        : Tbl Nat := []
  queue      : List TxHeld := []
  macBuf     : List InFrame := []
  deriving DecidableEq, Repr, Inhabited

/-- A field port (11): its fld.port_config in force with the one staged for the next cycle, PLCA state, counters by index, the
stream packets that wait for their cycle, oldest first, the frame CSMA/CD has on the medium with its attempts, the frames sent right behind
it, frames that wait, and the bytes in its receive buffer (R237). -/
structure FldPort where
  configured : Bool := false
  role       : Nat := 0
  nodeId     : Nat := 0
  nodeCount  : Nat := 0
  toTimer    : Nat := 32
  burstCount : Nat := 0
  burstTimer : Nat := 128
  wakeEn     : Bool := false
  maxNode    : Nat := 1522
  tenant     : Nat := 0xFFFF
  defRing    : Nat := 0xFFFFFFFF
  mac        : List Byte := [0, 0, 0, 0, 0, 0]
  keyEtype   : Nat := 0x88B5
  keyTimeout : Nat := 1000
  stuckTime  : Nat := 10
  staged     : Option (List Byte) := none
  plca       : Bool := false
  lost       : Bool := false
  half       : Nat := 0
  ctr        : Tbl Nat := []
  legPkts    : List TxHeld := []
  cur        : Option TxHeld := none
  attempts   : Nat := 0
  backing    : Bool := false
  behind     : List TxHeld := []
  queue      : List TxHeld := []
  rxFill     : Nat := 0
  deriving DecidableEq, Repr, Inhabited

/-- The keys of a node of a field port (11 R239 to R242): the sequence number of its last frame, raw and delivered states,
blocked and latched-off keys, whether it is absent, and whether its next frame is a first state. -/
structure KeyNode where
  seq       : Nat := 0
  raw       : Nat := 0
  delivered : Nat := 0
  blocked   : Nat := 0
  latched   : Nat := 0
  absent    : Bool := false
  first     : Bool := true
  deriving DecidableEq, Repr, Inhabited

/-- A GPIO key (11 R244). -/
structure GpioKey where
  polarity  : Nat
  debounce  : Nat
  tenant    : Nat
  stuckTime : Nat
  raw       : Bool := false
  delivered : Bool := false
  blocked   : Bool := false
  latched   : Bool := false
  first     : Bool := true
  deriving DecidableEq, Repr, Inhabited

/-! ### Local audio ports (12) -/

/-- A local port by its code of 12 R247: its owner, and the owner before until its boundary; the sai.config or aes.config
payload in force with the one staged; its charge; the state of R252 with the frames counted; a start that waits (trigger, TB,
TIME) and whether its boundary has passed; `mid`, that the pin frame in progress began before the trigger; clocks and rate; interrupts and counters; channel status received and sent; the
captured pin frames that wait for lock-follow, each with its number and the media-clock accumulator at its ending edge, and the tenant
instant the first of them takes; fades; the instant last given to Pool; the last data frame's number and its stamp in RATE_TB;
of an AES3 input each channel's last sample, the value it last presented and its gap; the lock-follow output position (the tenant
instant the next pin frame carries), the wait last measured and the slip decided (the instant, and whether it drops); the accumulator at
the last data edge of an output; the conversion of its output, with the tenant signal as its input, and the tenant samples by which a
mode switch delays that; the instants for Pool; the words of its slots in the pin frame under way and in the one before, and that frame's proof pattern; and
the conversion of its input. `frames` numbers pin frames; `zPos` counts frames since the Z preamble; `minute` and `minSlips` count slips
for the alarm. -/
structure LpPort where
  tenant    : Nat := 0xFFFF
  prev      : Nat := 0xFFFF
  cfg       : List Byte := []
  next      : Option (List Byte) := none
  charge    : Use := {}
  state     : Nat := 0
  cnt       : Nat := 0
  start     : Option (Nat × Nat × Nat) := none
  startLive : Bool := false
  mid       : Bool := false
  stopReq   : Bool := false
  clk       : Bool := false
  cls       : Nat := 0
  meas      : Nat := 0
  bpf       : Nat := 0
  sync      : Bool := false
  frames    : Nat := 0
  int       : Nat := 0
  intEn     : Nat := 0
  ctr       : Tbl Nat := []
  csA       : List Byte := List.replicate 24 0
  csB       : List Byte := List.replicate 24 0
  outCsA    : List Byte := List.replicate 24 0
  outCsB    : List Byte := List.replicate 24 0
  nextCsA   : Option (List Byte) := none
  nextCsB   : Option (List Byte) := none
  legacy    : Bool := false
  settled   : Bool := false
  fifo      : List (Nat × Nat × Inst) := []
  inNext    : Option Nat := none
  fadeIn    : Nat := 16
  fadeOut   : Nat := 16
  last      : List F32 := []
  edge      : Option (Nat × Nat) := none
  words     : List F32 := []
  shown     : List F32 := []
  vGap      : List Nat := []
  zPos      : Nat := 0
  minute    : Nat := 0
  minSlips  : Nat := 0
  outPos    : Option Nat := none
  outWait   : Int := 0
  outSlip   : Option (Nat × Bool) := none
  outAcc    : Option Nat := none
  outc      : Conv := {}
  delay     : Nat := 0
  out       : List (List F32) := []
  sent      : List (BitVec 32) := []
  before    : List (BitVec 32) := []
  proof     : BitVec 32 := 0
  conv      : Conv := {}
  est       : Est := {}
  deriving DecidableEq, Repr, Inhabited

/-! ### References and synthesis (15) -/

/-- A reference candidate (15 R302 to R304): REF_CANDn state (0 disabled, 1 unqualified, 2 qualified, 3 failed), the frequency of
its last window (0.001 ppm), seconds of qualification left, and the Mere cycle at which it qualified. -/
structure Cand where
  state  : Nat := 0
  freq   : Int := 0
  left   : Nat := 10
  qualAt : Nat := 0
  deriving DecidableEq, Repr, Inhabited

/-- Stillwater (15): ref.config in force with the one staged, the candidates, state (0 free run, 1 acquiring, 2 locked, 3 pulling,
4 holdover), a force of ref.select (its MODE), ORIGIN and the last candidate in use, the phase error e (1/256,000 ns), the output
frequency offset, the integrator of the locked loop (2^-32 of its unit) and the frequency held (1/256 ppb), the history (one mean per second, newest first, with the second in progress),
REF_FAULT, REF_INn and the last SYNC_IN edge. The candidate in use is the triplicated field REF_SEL. -/
structure Refs where
  flags    : Nat := 0
  in0      : Nat := 0
  in1      : Nat := 0
  qualTime : Nat := 10
  slope    : Nat := 500
  bw       : Nat := 100
  reject   : Nat := 150
  wtr      : Nat := 300
  hoAvg    : Nat := 60
  xaCal    : Int := 0
  priority : List Nat := []
  syncMask : Nat := 0xFF
  staged   : Option (List Byte) := none
  cands    : Tbl Cand := []
  state    : Nat := 0
  force    : Nat := 0
  origin   : Nat := 0x7F
  lastCand : Nat := 0x7F
  err      : Int := 0
  freq     : Int := 0
  integ    : Int := 0
  held     : Int := 0
  hist     : List Int := []
  histSum  : Int := 0
  histN    : Nat := 0
  fault    : Nat := 0
  syncAt   : Option Nat := none
  apll     : Bool := true
  deriving DecidableEq, Repr, Inhabited

/-- A synthesiser (15 R311 to R314): HOLDER (0 none, 1 media clock, 2 Stillwater, 3 legacy cascade), its tenant, MULT and RATE (0xFF
10 MHz), whether it is locked, gliding or relocking, whether SYN_LOCKED is owed, its output (1/64 Hz), the SYNC_IN edge it is phased
to, and one it owes. -/
structure Syn where
  holder  : Nat := 0
  tenant  : Nat := 0
  mult    : Nat := 0
  rate    : Nat := 0
  locked  : Bool := false
  gliding : Bool := false
  relock  : Bool := false
  owes    : Bool := false
  freq    : Nat := 0
  phased  : Option Nat := none
  phaseTo : Option Nat := none
  deriving DecidableEq, Repr, Inhabited

/-! ### Twin operation (16) -/

/-- The twin controller (16): settings of twin.config with those staged for a T0 boundary, EPOCH, alarms, counters, what the peer last
said and on which paths it is heard, its TWIN_OE_N (`peerOe` low) and whether it has been seen high since the claim, the instant the
lease counts from, that of a displacement and of clean standby, a planned handover or claim for the next T0 boundary, divergent frames
since joining, a copy of the peer's state in progress, heartbeats stopped for a data-plane fault, proof slots, line-watch mismatches by
port, and the output CRCs of frames not yet compared. -/
structure Twin where
  txMode     : Nat := 0
  hbLane     : Nat := 0
  watchN     : Nat := 1
  holdoff    : Nat := 60
  soloWait   : Nat := 2000
  staged     : Option (List Byte) := none
  epoch      : Nat := 0
  alarm      : Nat := 0
  divFrames  : Nat := 0
  scMiss     : Nat := 0
  valMiss    : Nat := 0
  proofErr   : Nat := 0
  hbMiss0    : Nat := 0
  hbMiss1    : Nat := 0
  peerState  : Nat := 0
  peerEpoch  : Nat := 0
  heard      : Bool := false
  down1      : Bool := false
  down2      : Bool := false
  peerOe     : Bool := false
  seenHigh   : Bool := false
  leaseAt    : Option Nat := none
  displaced  : Option Nat := none
  standbyAt  : Option Nat := none
  planned    : Bool := false
  takeback   : Bool := false
  claimNext  : Bool := false
  diverged   : Nat := 0
  resync     : Bool := false
  stopped    : Bool := false
  chosen     : Nat := 0
  proof      : Tbl Nat := []
  misses     : Tbl Nat := []
  crcs       : List (Nat × Nat × List (Nat × Nat)) := []
  deriving DecidableEq, Repr, Inhabited

/-! ### The device block (19, 20, 23) -/

/-- A triplicated field (20 R377). -/
inductive TripField where
  | bind (k : Nat)
  | armed
  | foscSel
  | coreSrc
  | refSel
  | role
  | own
  | fence
  | budgetSt
  | reserveSt
  | budget
  | reserve
  | netTxEn (n : Nat)
  | fldTxEn (n : Nat)
  | lpTxEn (code : Nat)
  | mclkOe
  | gpioOe
  deriving DecidableEq, Repr

/-- The three copies of a triplicated field. -/
structure Trip where
  a : Nat
  b : Nat
  c : Nat
  deriving DecidableEq, Repr, Inhabited

/-- DEV block: causes, faults, counters, straps, and the pins of 23 that drive them. -/
structure Dev where
  rstCause : Nat := 0
  straps   : Nat := 0
  /-- Reset is held: POR_N, RESET_N or a supply is low. -/
  held     : Bool := false
  /-- A thermal trip holds the reset; a trip waits to be recorded (23 R419). -/
  thermal  : Bool := false
  tripped  : Bool := false
  /-- device.reset has been answered (19 R370). -/
  resetDue : Bool := false
  safe     : Bool := false
  bootHalt : Bool := false
  voteFail : Bool := false
  voteFixCnt  : Nat := 0
  voteFailCnt : Nat := 0
  badAccess   : Nat := 0
  faultN   : Bool := false
  deriving DecidableEq, Repr, Inhabited

/-- GPIO registers (20 R387): pin levels, outputs, wake settings and edges; the output enables are triplicated. -/
structure Gpio where
  inp     : Nat := 0
  out     : Nat := 0
  wakeEn  : Nat := 0
  wakeLvl : Nat := 0
  edge    : Nat := 0
  deriving DecidableEq, Repr, Inhabited

/-- A peripheral I2C port (17 R347, 20 PI2C_STATUS), with I2C_STUCK_CNT (R348). -/
structure I2cPort where
  busy   : Bool := false
  sda    : Bool := true
  scl    : Bool := true
  result : Nat := 0
  speed  : Nat := 0
  stuck  : Nat := 0
  deriving DecidableEq, Repr, Inhabited

/-! ### Power (19) -/

/-- What a Weir request asks for (19 R363). -/
inductive WeirWhat where
  | eddyFault (bank : Nat)
  | poolFault (bank : Nat)
  | cluster (c : Nat)
  | eddyBank (bank : Nat)
  | poolBank (bank : Nat)
  | serdes (group : Nat)
  | hbmExit
  | lakebed (lines : Nat)
  | gate (domain setting : Nat)
  deriving DecidableEq, Repr

/-- A request waiting for credits (19 R364). -/
structure WeirReq where
  cls     : Nat
  credits : Nat
  what    : WeirWhat
  deriving DecidableEq, Repr

/-- Weir and the power policy (19). Tolerances: the device's, and those tenants state; 0xFFFF_FFFF states none. `credits` were admitted in
the last window, `resUsed` of them from RESERVE within it. -/
structure Pwr where
  state     : Nat := 0
  entering  : Option Nat := none
  waking    : Bool := false
  tol       : Nat := 20
  tenantTol : Tbl Nat := []
  weirQ     : List WeirReq := []
  credits   : Nat := 0
  resUsed   : Nat := 0
  commit    : Bool := false
  commitErr : Bool := false
  deriving DecidableEq, Repr, Inhabited

/-- The whole device. -/
structure State where
  /-- Commands waiting, first in first out. -/
  pending : List Instr := []
  /-- Model's own: how many free values have been drawn (log entry 1). -/
  free    : Nat := 0
  /-- Model's own: Mere cycles since reset (log entry 6); rate limits and ages are counted on it (log entry 9). -/
  mere    : Nat := 0
  /-- Model's own: how many media-clock updates, DPLL updates, Weir windows, vote sweeps and telemetry ticks there have been,
  which places the next one on its Mere-time grid (log entry 6). -/
  grid    : Tbl Nat := []
  /-- What the last step sent out of the device. -/
  out     : List Out := []
  /-- Events raised in a step and not yet written; empty between steps. -/
  evs     : List EvOut := []
  host    : List Host.Cell := []
  mbx     : Tbl Mbx := []
  ctl     : Ctl := {}
  fns     : Tbl Fn := []
  queues  : Tbl Queue := []
  tenants : Tbl Tenant := []
  /-- Streams by 65,536 x direction + number. -/
  streams : Tbl Stream := []
  tbs     : Tbl TimeBase := []
  tsPorts : Tbl TsPort := []
  cal     : Cal := {}
  clk     : Clk := {}
  cway    : Cway := {}
  chain   : Chain := {}
  health  : Health := {}
  tarn    : TarnArray := {}
  sched   : Tbl Sched := []
  tasks   : Tbl Task := []
  netGroups : Tbl NetGroup := []
  netPorts : Tbl NetPort := []
  /-- Bytes in the Inlet buffer (10 R217). -/
  inlet   : Nat := 0
  /-- The pattern filters, as net.filter_set gave them (10 R219). -/
  filters : Tbl (List Byte) := []
  fld     : Tbl FldPort := []
  /-- Key nodes by 256 x port + node, and GPIO keys by pin (11). -/
  keys    : Tbl KeyNode := []
  gpioKeys : Tbl GpioKey := []
  lps     : Tbl LpPort := []
  refs    : Refs := {}
  syns    : Tbl Syn := []
  twin    : Twin := {}
  gpio    : Gpio := {}
  i2c     : Tbl I2cPort := []
  eddyBanks : Nat := 12
  poolBanks : Nat := 8
  dev     : Dev := {}
  pwr     : Pwr := {}
  votes   : List (TripField × Trip) := []
  deriving DecidableEq, Repr, Inhabited

/-- The machine right after reset. -/
def State.reset : State :=
  { tbs := (List.range 16).map (fun t => (t, {}))
    ctl := { slots := [(0, { verified := true, factory := true })] }
    dev := { rstCause := 1 } }

end Sys2Proof.Machine
end

