-- ==== Sys2Proof/Machine/Numbers.lean ====
section
/-! DEFINITION. Numbers: rounding, IEEE binary32 as Pool and Eddy compute it (06 R137 to R144), sample codings (04 R79, 06
R142, R143), and the checksums of frames. -/
namespace Sys2Proof.Machine

/-! ### Rounding -/

/-- The quotient of naturals rounded half to even. -/
def divEven (n d : Nat) : Nat :=
  let q := n / d
  let r := n % d
  if 2 * r < d then q else if d < 2 * r then q + 1 else if q % 2 = 0 then q else q + 1

/-- The quotient of an integer and a natural rounded half to even. -/
def divEvenI (n : Int) (d : Nat) : Int :=
  match n with
  | .ofNat k => (divEven k d : Int)
  | .negSucc k => -((divEven (k + 1) d : Nat) : Int)

/-- The quotient rounded to nearest, ties away from zero. -/
def divAway (n : Int) (d : Nat) : Int :=
  if 0 ≤ n then (((2 * n.toNat + d) / (2 * d) : Nat) : Int) else -(((2 * n.natAbs + d) / (2 * d) : Nat) : Int)

/-- The quotient truncated toward zero. -/
def divTrunc (n : Int) (d : Nat) : Int := if 0 ≤ n then ((n.toNat / d : Nat) : Int) else -((n.natAbs / d : Nat) : Int)

/-! ### binary32 -/

/-- Sign, exponent and fraction of a pattern. -/
def fSign (x : F32) : Bool := bitOf x 31
where
  /-- Bit `k` of a pattern. -/
  bitOf (x : F32) (k : Nat) : Bool := x.getLsbD k

def fExp (x : F32) : Nat := (x.toNat / 2 ^ 23) % 256

def fFrac (x : F32) : Nat := x.toNat % 2 ^ 23

def isNaN (x : F32) : Bool := fExp x == 255 && fFrac x != 0

def isInf (x : F32) : Bool := fExp x == 255 && fFrac x == 0

/-- The magnitude of a finite pattern in units of 2^-149. -/
def fMag (x : F32) : Nat := if fExp x = 0 then fFrac x else (2 ^ 23 + fFrac x) * 2 ^ (fExp x - 1)

/-- The value of a finite pattern in units of 2^-149. -/
def fVal (x : F32) : Int := if fSign x then -(fMag x : Int) else (fMag x : Int)

/-- The quiet NaN. -/
def nanF : F32 := 0x7FC00000#32

/-- Infinity of a sign. -/
def infF (neg : Bool) : F32 := if neg then 0xFF800000#32 else 0x7F800000#32

/-- 1.0. -/
def oneF : F32 := 0x3F800000#32

/-- The pattern of magnitude (n / d) x 2^-149, rounded half to even; a subnormal result becomes zero (06 R140). -/
def roundMag (n d : Nat) : Nat :=
  let k := Nat.log2 (n / d) - 23
  let m := divEven n (d * 2 ^ k)
  if m < 2 ^ 23 then 0 else if 0x7F800000 ≤ k * 2 ^ 23 + m then 0x7F800000 else k * 2 ^ 23 + m

/-- The binary32 nearest to (v / d) x 2^-149, ties to even, subnormals flushed; `neg` is the sign of a zero. -/
def roundF (neg : Bool) (v : Int) (d : Nat) : F32 :=
  let s := if v = 0 then neg else decide (v < 0)
  BitVec.ofNat 32 ((if s then 2 ^ 31 else 0) + roundMag v.natAbs d)

/-- x times y plus z, rounded once (06 R140). -/
def fma (x y z : F32) : F32 :=
  if isNaN x || isNaN y || isNaN z then nanF
  else
    let sp := fSign x != fSign y
    if isInf x || isInf y then
      if (isInf x && fMag y == 0) || (isInf y && fMag x == 0) then nanF
      else if isInf z && fSign z != sp then nanF else infF sp
    else if isInf z then z
    else
      let p := fVal x * fVal y + fVal z * (2 ^ 149 : Nat)
      roundF (sp && fSign z) p (2 ^ 149)

/-- -x. -/
def fNeg (x : F32) : F32 := x ^^^ 0x80000000#32

/-- x times y, rounded once. -/
def fMul (x y : F32) : F32 := fma x y (if fSign x != fSign y then 0x80000000#32 else 0)

/-- x plus y, rounded once. -/
def fAdd (x y : F32) : F32 := fma x oneF y

/-- x times the ratio n / d, rounded once. -/
def fScale (x : F32) (n d : Nat) : F32 := if isNaN x || isInf x then x else roundF (fSign x) (fVal x * n) d

/-- (x times m plus y times n) / d, rounded once. -/
def fBlend (x y : F32) (m n d : Nat) : F32 :=
  if isNaN x || isInf x then fScale x m d else if isNaN y || isInf y then fScale y n d
  else roundF (fSign x && fSign y) (fVal x * m + fVal y * n) d

/-- |a - b| in units of 2^-149. -/
def fDist (a b : F32) : Nat := (fVal a - fVal b).natAbs

/-- A finite value held to plus or minus 2^24 (06 R141), and whether the limit was reached. -/
def clamp24 (x : F32) : F32 × Bool :=
  if !isNaN x && decide (2 ^ (149 + 24) ≤ (if isInf x then 2 ^ 280 else fMag x)) then ((if fSign x then 0xCB800000#32 else 0x4B800000#32), true)
  else (x, false)

/-- A sample a host or an AAF FLOAT32 stream supplies: NaN becomes 0, infinity 1.0 of its sign; whether it was bad
(04 R79, 06 R141). -/
def cleanF (x : F32) : F32 × Bool :=
  if isNaN x then (0, true) else if isInf x then ((if fSign x then 0xBF800000#32 else oneF), true) else (x, false)

/-! ### Gain codes (06 R137) -/

/-- Whether the positive binary32 pattern `b`, taken half a unit up where `half`, is at most 10^(g / 5120). -/
def gainLe (g : Int) (b : Nat) (half : Bool) : Bool :=
  let m := 2 * (2 ^ 23 + b % 2 ^ 23) + b2 half
  let e := b / 2 ^ 23          -- value = m x 2^(e - 151)
  if 0 ≤ g then decide (m ^ 5120 * 2 ^ (e * 5120) ≤ 10 ^ g.toNat * 2 ^ (151 * 5120))
  else decide (m ^ 5120 * 2 ^ (e * 5120) * 10 ^ g.natAbs ≤ 2 ^ (151 * 5120))
where
  /-- 1 for true. -/
  b2 (b : Bool) : Nat := if b then 1 else 0

/-- The largest pattern in [lo, lo + 2^n) that is at most 10^(g / 5120), where `lo` is. -/
def gainSearch (g : Int) : Nat → Nat → Nat
  | 0, lo => lo
  | n + 1, lo => if gainLe g (lo + 2 ^ n) false then gainSearch g n (lo + 2 ^ n) else gainSearch g n lo

/-- The linear factor of a gain code: 0 for mute, else 10^(G / 5120) rounded to the nearest binary32. -/
def gainF (code : Nat) : F32 :=
  if code % 65536 = 0x8000 then 0
  else if code % 65536 = 0 then oneF
  else
    let c := code % 65536
    let g : Int := if c < 32768 then (c : Int) else (c : Int) - 65536
    let b := gainSearch g 29 0x30000000
    BitVec.ofNat 32 (if gainLe g b true then b + 1 else b)

/-! ### Integer and G.711 samples -/

/-- v / 2^n as binary32. -/
def ofScaled (v : Int) (n : Nat) : F32 := roundF false (v * (2 ^ 149 : Nat)) (2 ^ n)

/-- An n-bit integer output: x times 2^(n-1), rounded half to even and clipped, and whether it clipped (06 R142). -/
def toScaled (x : F32) (n : Nat) : Int × Bool :=
  let v := if isInf x then (if fSign x then -((2 ^ 200 : Nat) : Int) else ((2 ^ 200 : Nat) : Int)) else divEvenI (fVal x * (2 ^ (n - 1) : Nat)) (2 ^ 149)
  let lo : Int := -((2 ^ (n - 1) : Nat) : Int)
  let hi : Int := ((2 ^ (n - 1) : Nat) : Int) - 1
  if v < lo then (lo, true) else if hi < v then (hi, true) else (v, false)

/-- The 14-bit value of a mu-law code (ITU-T G.711, log entry 10). -/
def muExpand (c : Nat) : Int :=
  let u := 255 - c % 256
  let m := ((2 * (u % 16) + 33) * 2 ^ (u / 16 % 8) : Nat) - 33
  if u / 128 = 0 then (m : Int) else -(m : Int)

/-- The 13-bit value of an A-law code (ITU-T G.711, log entry 10). -/
def aExpand (c : Nat) : Int :=
  let u := (c % 256) ^^^ 0x55
  let seg := u / 16 % 8
  let m := if seg = 0 then 2 * (u % 16) + 1 else (2 * (u % 16) + 33) * 2 ^ (seg - 1)
  if u / 128 = 1 then (m : Int) else -(m : Int)

/-- The segment of a magnitude: how often it halves, `n` times at most, before it is below `lim`. -/
def segment (lim : Nat) : Nat → Nat → Nat
  | 0, _ => 0
  | n + 1, v => if v < lim then 0 else segment lim n (v / 2) + 1

/-- The mu-law code of a 14-bit value (ITU-T G.711, log entry 10). -/
def muCompress (v : Int) : Nat :=
  let a := min 0x1FFF ((if v < 0 then (-v - 1).toNat else v.toNat) + 33)
  let seg := segment 64 8 a
  let low := 15 - (a / 2 ^ (seg + 1)) % 16
  (if v < 0 then 0 else 128) + (7 - min seg 7) * 16 + low

/-- The A-law code of a 13-bit value (ITU-T G.711, log entry 10). -/
def aCompress (v : Int) : Nat :=
  let a := min 2047 ((if v < 0 then (-v - 1).toNat else v.toNat) / 2)
  let seg := segment 32 7 a
  let ix := if a < 16 then a else (a / 2 ^ seg) % 16 + (seg + 1) * 16
  (ix + (if v < 0 then 0 else 128)) ^^^ 0x55

/-! ### Checksums -/

/-- The ones' complement sum of 16-bit words (IP, UDP). -/
def onesSum : List Byte → Nat → Nat
  | a :: b :: r, acc => onesSum r (acc + a.toNat * 256 + b.toNat)
  | [a], acc => acc + a.toNat * 256
  | [], acc => acc

/-- The folded 16-bit sum. -/
def fold16 (n : Nat) : Nat :=
  let a := n % 65536 + n / 65536
  a % 65536 + a / 65536

/-- The Internet checksum of bytes. -/
def inetSum (bs : List Byte) : Nat := 0xFFFF - fold16 (onesSum bs 0)

/-- CRC-32 (IEEE 802.3), one byte at a time, `n` bits left of the byte. -/
def crcBits : Nat → BitVec 32 → BitVec 32
  | 0, c => c
  | n + 1, c => crcBits n (if c.getLsbD 0 then (c >>> 1) ^^^ 0xEDB88320#32 else c >>> 1)

/-- CRC-32 of bytes. -/
def crc32 (bs : List Byte) : BitVec 32 :=
  ~~~ (bs.foldl (fun c b => crcBits 8 (c ^^^ b.setWidth 32)) 0xFFFFFFFF#32)

/-- CRC-16-CCITT (polynomial 0x1021, initial 0xFFFF), most significant bit first. -/
def crc16Bits : Nat → BitVec 16 → BitVec 16
  | 0, c => c
  | n + 1, c => crc16Bits n (if c.getLsbD 15 then (c <<< 1) ^^^ 0x1021#16 else c <<< 1)

/-- CRC-16-CCITT of bytes. -/
def crc16 (bs : List Byte) : BitVec 16 :=
  bs.foldl (fun c b => crc16Bits 8 (c ^^^ ((b.setWidth 16 : BitVec 16) <<< 8))) 0xFFFF#16

end Sys2Proof.Machine
end

