-- ==== Sys2Proof/Machine/Ops.lean ====
section
/-! DEFINITION. The named operations over tables, memories, byte fields, triplicated fields, messages, event queues and
host rings that every command's meaning is written over. -/
namespace Sys2Proof.Machine

/-! ### Sparse tables and memories -/

/-- The entry of key `k`. -/
def tget {α : Type} : Tbl α → Nat → Option α
  | [], _ => none
  | (i, v) :: t, k => if i = k then some v else tget t k

/-- The entry of key `k`, or the default `d`. -/
def tgetD {α : Type} (t : Tbl α) (k : Nat) (d : α) : α := (tget t k).getD d

/-- `t` with `v` at key `k`; keys stay strictly rising. -/
def tset {α : Type} : Tbl α → Nat → α → Tbl α
  | [], k, v => [(k, v)]
  | (i, w) :: t, k, v =>
    if k < i then (k, v) :: (i, w) :: t
    else if k = i then (k, v) :: t
    else (i, w) :: tset t k v

/-- `t` without key `k`. -/
def tdel {α : Type} : Tbl α → Nat → Tbl α
  | [], _ => []
  | (i, w) :: t, k => if i = k then t else (i, w) :: tdel t k

/-- `t` with the entry of `k`, if it has one, changed by `f`. -/
def tmod {α : Type} (t : Tbl α) (k : Nat) (f : α → α) : Tbl α :=
  match tget t k with
  | some v => tset t k (f v)
  | none => t

/-- Whether `t` has an entry for `k`. -/
def thas {α : Type} (t : Tbl α) (k : Nat) : Bool := (tget t k).isSome

/-- Every entry of `t` changed by `f`. -/
def tmap {α : Type} (t : Tbl α) (f : Nat → α → α) : Tbl α := t.map (fun p => (p.1, f p.1 p.2))

/-- A memory's content at `a`: an unlisted address reads as `d`. -/
def mget {α : Type} (d : α) (m : Tbl α) (a : Nat) : α := tgetD m a d

/-- A write to a memory; writing the default removes the entry, so equal memories are equal lists. -/
def mset {α : Type} [DecidableEq α] (d : α) (m : Tbl α) (a : Nat) (v : α) : Tbl α :=
  if v = d then tdel m a else tset m a v

/-- `n` bytes of a byte memory from address `a` (unlisted bytes read 0: log entry 7). -/
def mread (m : List Host.Cell) (a : Nat) : Nat → List Byte
  | 0 => []
  | n + 1 => mget 0 m a :: mread m (a + 1) n

/-- Bytes written to a byte memory from address `a` on. -/
def mwrite (m : List Host.Cell) (a : Nat) : List Byte → List Host.Cell
  | [] => m
  | b :: bs => mwrite (mset 0 m a b) (a + 1) bs

/-- The canonical form of a sparse memory: addresses strictly rising, no entry equal to the default. -/
def Memory.wf {α : Type} [DecidableEq α] (d : α) (m : Tbl α) : Bool :=
  decide (m.Pairwise (fun p q => p.1 < q.1)) && m.all (fun p => decide (p.2 ≠ d))

/-! ### Byte fields -/

/-- The number little-endian bytes spell (22 R392). -/
def leNat : List Byte → Nat
  | [] => 0
  | b :: bs => b.toNat + 256 * leNat bs

/-- The number network-order bytes spell. -/
def beNat (bs : List Byte) : Nat := leNat bs.reverse

/-- `k` little-endian bytes of `n`. -/
def putLe : Nat → Nat → List Byte
  | 0, _ => []
  | k + 1, n => BitVec.ofNat 8 n :: putLe k (n / 256)

/-- `k` network-order bytes of `n`. -/
def putBe (k n : Nat) : List Byte := (putLe k n).reverse

/-- `n` bytes of `bs` from offset `o`; bytes beyond the end read 0 (22 R393). -/
def slice (bs : List Byte) (o n : Nat) : List Byte :=
  let c := (bs.drop o).take n
  c ++ List.replicate (n - c.length) 0

/-- The little-endian field of `n` bytes at offset `o`. -/
def fld (bs : List Byte) (o n : Nat) : Nat := leNat (slice bs o n)

/-- The network-order field of `n` bytes at offset `o`. -/
def fldBe (bs : List Byte) (o n : Nat) : Nat := beNat (slice bs o n)

/-- Bits [hi:lo] of `n`. -/
def bits (n hi lo : Nat) : Nat := (n / 2 ^ lo) % 2 ^ (hi + 1 - lo)

/-- Bit `k` of `n`. -/
def bit (n k : Nat) : Bool := (n / 2 ^ k) % 2 == 1

/-- `n` with bit `k` set to `b`. -/
def setBit (n k : Nat) (b : Bool) : Nat :=
  let m := if bit n k then n - 2 ^ k else n
  if b then m + 2 ^ k else m

/-- 1 for true. -/
def b2n (b : Bool) : Nat := if b then 1 else 0

/-- The two's-complement value of the `w` low bits of `n`. -/
def sext (w n : Nat) : Int :=
  let m := n % 2 ^ w
  if m < 2 ^ (w - 1) then (m : Int) else (m : Int) - (2 ^ w : Nat)

/-- The `w`-bit two's-complement code of `z`. -/
def toBits (w : Nat) (z : Int) : Nat := (z % (2 ^ w : Nat)).toNat

/-- `z` held within `lo` and `hi`. -/
def clampI (lo hi z : Int) : Int := if z < lo then lo else if hi < z then hi else z

/-- `n` as a byte, a half-word, a word, a double-word of bytes. -/
def le1 (n : Nat) : List Byte := putLe 1 n
def le2 (n : Nat) : List Byte := putLe 2 n
def le4 (n : Nat) : List Byte := putLe 4 n
def le6 (n : Nat) : List Byte := putLe 6 n
def le8 (n : Nat) : List Byte := putLe 8 n

/-- `k` zero bytes. -/
def zb (k : Nat) : List Byte := List.replicate k 0

/-- `bs` cut or zero-filled to `n` bytes. -/
def fit (n : Nat) (bs : List Byte) : List Byte := slice bs 0 n

/-- `bs` with the bytes `v` at offset `o`. -/
def patch (bs : List Byte) (o : Nat) (v : List Byte) : List Byte :=
  slice bs 0 o ++ v ++ bs.drop (o + v.length)

/-- The 48-bit counter step of 20: counters wrap modulo 2^48. -/
def inc48 (n k : Nat) : Nat := (n + k) % 2 ^ 48

/-- All of `lo` to `hi - 1`. -/
def range (lo hi : Nat) : List Nat := (List.range (hi - lo)).map (· + lo)

/-- Whether all bytes are 0. -/
def allZero (bs : List Byte) : Bool := bs.all (· == 0)

/-! ### Free values -/

/-- The next free value of the run, and the state that has drawn it (log entry 1). -/
def draw (s : State) : BitVec 64 × State := (Config.freeWord s.free, { s with free := s.free + 1 })

/-- A free value below `n` (0 where `n` is 0). -/
def drawBelow (s : State) (n : Nat) : Nat × State :=
  let (w, s) := draw s
  (w.toNat % n, s)

/-- A free value between `lo` and `hi`. -/
def drawInt (s : State) (lo hi : Int) : Int × State :=
  let (w, s) := draw s
  (lo + ((w.toNat : Int) % (hi - lo + 1)), s)

/-- The first of `n` candidates from `start` on, modulo `bound`, that `used` does not list. -/
def firstFree (used : List Nat) (bound : Nat) : Nat → Nat → Option Nat
  | 0, _ => none
  | n + 1, start =>
    if used.contains (start % bound) then firstFree used bound n (start + 1) else some (start % bound)

/-- A number below `bound` that `used` does not list, if there is one: which one is the device's free choice. -/
def pickFree (s : State) (used : List Nat) (bound : Nat) : Option Nat × State :=
  let (w, s) := draw s
  (firstFree used bound (min bound (used.length + 1)) w.toNat, s)

/-! ### Mere time -/

/-- Seconds and milliseconds of Mere time since reset, at 1.2 GHz (05 R106): rate limits count in them (log entry 9). -/
def secs (s : State) : Nat := s.mere / 1200000000
def msecs (s : State) : Nat := s.mere / 1200000

/-! ### Triplicated fields (20 R377) -/

/-- The reset value of a triplicated field: the output enables of 10, 11 and 12 reset to 1, REF_SEL to 0x7F, Weir's
limits to 12 and 3, the rest to 0. -/
def tripReset : TripField → Nat
  | .refSel => 0x7F
  | .budgetSt | .budget => 12
  | .reserveSt | .reserve => 3
  | .netTxEn _ | .fldTxEn _ | .lpTxEn _ => 1
  | _ => 0

/-- The copies of field `f`. -/
def tripCopies (v : List (TripField × Trip)) (f : TripField) : Trip :=
  match v with
  | [] => ⟨tripReset f, tripReset f, tripReset f⟩
  | (g, t) :: r => if g = f then t else tripCopies r f

/-- The majority of three copies; where no two agree, the first (hardware acts on the value of the next sweep). -/
def majority (t : Trip) : Nat := if t.a = t.b ∨ t.a = t.c then t.a else if t.b = t.c then t.b else t.a

/-- What hardware acts on and a read returns. -/
def tripGet (s : State) (f : TripField) : Nat := majority (tripCopies s.votes f)

/-- The list of copies with field `f` replaced. -/
def tripPut (v : List (TripField × Trip)) (f : TripField) (t : Trip) : List (TripField × Trip) :=
  match v with
  | [] => [(f, t)]
  | (g, u) :: r => if g = f then (f, t) :: r else (g, u) :: tripPut r f t

/-- A write updates all three copies. -/
def tripSet (s : State) (f : TripField) (n : Nat) : State := { s with votes := tripPut s.votes f ⟨n, n, n⟩ }

/-- The binding bit of tenant `t` (03 R52, DEV_BINDk). -/
def bound (s : State) (t : Nat) : Bool := bit (tripGet s (.bind (t / 64))) (t % 64)

/-- Bind or unbind tenant `t`. -/
def setBound (s : State) (t : Nat) (b : Bool) : State :=
  tripSet s (.bind (t / 64)) (setBit (tripGet s (.bind (t / 64))) (t % 64) b)

/-! ### Roles and shared outputs (16 R316, R317) -/

/-- The role of 16 R317. -/
def role (s : State) : Nat := tripGet s .role

/-- Whether the device computes values as a standby does, from the active device's (05 R128, 16 R324). -/
def follows (s : State) : Bool := role s == 3 || role s == 4

/-- Whether the device drives the shared outputs: alone, or active and holding TWIN_OE_N while the peer's is high; never while
TWIN_FENCE.FENCE is 1, in the safe state of 14 R292, or before step 3 of the start-up. -/
def drivesShared (s : State) : Bool :=
  s.clk.started && !s.dev.safe && tripGet s .fence == 0 && (role s == 0 || (role s == 2 && tripGet s .own == 1 && !(s.twin.peerOe && s.twin.seenHigh)))

/-! ### Messages of a function -/

/-- What leaves the device, in order. -/
def emit (s : State) (o : Out) : State := { s with out := s.out ++ [o] }

/-- The function of tenant `t`: VF t+1, or PF0 for 0xFFFF (03 R62). -/
def fnOf (t : Nat) : Nat := if t = 0xFFFF then 0 else t + 1

/-- Whether function `f` may send messages and receive events: PF0 always, a VF while its tenant is bound (03 R52). -/
def fnUp (s : State) (f : Nat) : Bool := f == 0 || bound s (f - 1)

/-- Function `f` changed by `g`. -/
def modFn (s : State) (f : Nat) (g : Fn → Fn) : State := { s with fns := tset s.fns f (g (tgetD s.fns f {})) }

/-- An MSI-X message of function `f` on vector `v`: a masked vector sets its pending bit (03 R64). (PRESUMED, log entry 53.) -/
def msix (s : State) (f v : Nat) : State :=
  if fnUp s f then
    let e := tgetD (tgetD s.fns f {}).vecs v {}
    if e.masked then modFn s f (fun fn => { fn with vecs := tset fn.vecs v { e with pend := true } })
    else emit s (.msix f v e.addr e.data)
  else s

/-- The W1C causes of INT_STATUS. -/
inductive IntBit where
  | mbxRsp | evqLost | dbStray | underrun | d2hFull
  deriving DecidableEq, Repr

/-- Whether a cause is set. -/
def intGet (f : Fn) : IntBit → Bool
  | .mbxRsp => f.mbxRsp
  | .evqLost => f.evqLost
  | .dbStray => f.dbStray
  | .underrun => f.underrun
  | .d2hFull => f.d2hFull

/-- A function with a cause set. -/
def intPut (f : Fn) : IntBit → Fn
  | .mbxRsp => { f with mbxRsp := true }
  | .evqLost => { f with evqLost := true }
  | .dbStray => { f with dbStray := true }
  | .underrun => { f with underrun := true }
  | .d2hFull => { f with d2hFull := true }

/-- A cause of INT_STATUS sets; vector 0 fires only on the change from 0 to 1 (03, 20 R376). -/
def setInt (s : State) (f : Nat) (b : IntBit) : State :=
  if intGet (tgetD s.fns f {}) b then s else msix (modFn s f (intPut · b)) f 0

/-! ### Events (03 R65, R66; 22 R404 to R406) -/

/-- An event is raised for function `f`; it is written when the step ends. -/
def raiseEv (s : State) (f : Nat) (comp : Bool) (e : Ev) : State := { s with evs := s.evs ++ [⟨f, comp, e⟩] }

/-- An event of a tenant (Queue column T), or of PF0 for tenant 0xFFFF. -/
def evT (s : State) (t typ obj status aux : Nat) : State := raiseEv s (fnOf t) false ⟨typ, t, 0, obj, status, aux⟩

/-- A device event (Queue column D). -/
def evD (s : State) (typ obj status aux : Nat) : State := raiseEv s 0 false ⟨typ, 0xFFFF, 0, obj, status, aux⟩

/-- The 16 bytes of a record (03 R65). -/
def evBytes (e : Ev) (phase : Bool) (seq : Nat) : List Byte :=
  le2 e.typ ++ le1 (b2n phase) ++ le1 seq ++ le2 e.tenant ++ le2 e.tag ++ le4 e.object ++ le2 e.status ++ le2 e.aux

/-- The number of the queue with local index `lq` of tenant `t` (PF0's own queues carry LQ equal to Q, 03 R53). -/
def findQ (s : State) (t lq : Nat) : Option Nat :=
  (s.queues.find? (fun p => p.2.tenant == t && p.2.lq == lq)).map (·.1)

/-- Occupied entries of a ring. -/
def occ (q : Queue) (c : QCtx) : Nat := (q.pi + 2 ^ (c.ringLog + 1) - q.ci) % 2 ^ (c.ringLog + 1)

/-- Free entries of a ring. -/
def room (q : Queue) (c : QCtx) : Nat := 2 ^ c.ringLog - occ q c

/-- The next index of a ring, modulo 2^(RING_LOG2+1). -/
def nextIdx (c : QCtx) (i : Nat) : Nat := (i + 1) % 2 ^ (c.ringLog + 1)

/-- PHASE of index `i`: 1 on odd passes, the first pass being odd (03 R60). -/
def phase (c : QCtx) (i : Nat) : Bool := i % 2 ^ (c.ringLog + 1) < 2 ^ c.ringLog

/-- The host address of entry `i`. -/
def entryAddr (c : QCtx) (i : Nat) : Nat := c.base + (i % 2 ^ c.ringLog) * 2 ^ c.entLog

/-- A queue that runs: its context is in force and its STATE is 2. -/
def running (q : Queue) : Option QCtx :=
  match q.ctx with
  | some c => if c.state = 2 then some c else none
  | none => none

/-- The interrupt condition of 03 R64. -/
def irqDue (q : Queue) (c : QCtx) : Bool :=
  q.armed && !q.destroy && c.vector != 0xFFFF && q.unsig != 0 && (decide (max c.coalCount 1 ≤ q.unsig) || (c.coalTime != 0 && q.timeUp))

/-- The interrupt of queue `k`, if due: a message on its vector, or a QUEUE_READY record in per-function mode (03 R63). -/
def checkIrq (s : State) (k : Nat) : State :=
  match tget s.queues k with
  | none => s
  | some q =>
    match running q with
    | none => s
    | some c =>
      if irqDue q c then
        let s := { s with queues := tset s.queues k { q with armed := false, unsig := 0, timeUp := false, irqs := inc48 q.irqs 1 } }
        if ((tget s.tenants q.tenant).map (·.perFn)).getD false && q.lq != 0 then evT s q.tenant 0x0301 q.lq 0 0
        else msix s (fnOf q.tenant) c.vector
      else s

/-- `n` new unsignalled entries in queue `k` (03 R64). -/
def addUnsig (s : State) (k n : Nat) : State :=
  checkIrq { s with queues := tmod s.queues k (fun q => { q with unsig := q.unsig + n }) } k

/-- One record written to event queue `k`, which has room. -/
def putRecord (s : State) (k : Nat) (q : Queue) (c : QCtx) (e : Ev) : State :=
  let host := mwrite s.host (entryAddr c q.pi) (evBytes e (phase c q.pi) q.seq)
  let q := { q with pi := nextIdx c q.pi, seq := (q.seq + 1) % 256, produced := inc48 q.produced 1 }
  addUnsig { s with host := host, queues := tset s.queues k q } k 1

/-- The event queue that function `f` can write to: it runs, and the tenant is bound (03 R52, R66). -/
def evQueue (s : State) (f : Nat) : Option (Nat × Queue × QCtx) :=
  if fnUp s f then
    let k := if f = 0 then some 0 else findQ s (f - 1) 0
    match k with
    | none => none
    | some k =>
      match tget s.queues k with
      | none => none
      | some q => if q.typ = 7 then (running q).map (fun c => (k, q, c)) else none
  else none

/-- Held completions are written first, then one EVQ_OVERFLOW record, as far as there is room (03 R66). `n` bounds the
records written. -/
def drain (f : Nat) : Nat → State → State
  | 0, s => s
  | n + 1, s =>
    match evQueue s f with
    | none => s
    | some (k, q, c) =>
      if room q c = 0 then s
      else
        match (tgetD s.fns f {}).held with
        | e :: es => drain f n (putRecord (modFn s f (fun fn => { fn with held := es })) k q c e)
        | [] =>
          if q.lost = 0 then s
          else
            putRecord s k { q with lost := 0 } c ⟨2, if f = 0 then 0xFFFF else f - 1, 0, 0, 0, q.lost % 65536⟩

/-- A lost event: counted, and EVQ_LOST sets (03 R52, R66). -/
def loseEvent (s : State) (f : Nat) : State :=
  setInt (modFn s f (fun fn => { fn with lostCnt := inc48 fn.lostCnt 1 })) f .evqLost

/-- One event is delivered: written, held (a completion), or discarded and counted (03 R66). -/
def deliver (s : State) (o : EvOut) : State :=
  let s := drain o.fn ((tgetD s.fns o.fn {}).held.length + 1) s
  match evQueue s o.fn with
  | some (k, q, c) =>
    if room q c ≠ 0 then putRecord s k q c o.ev
    else if o.comp then modFn s o.fn (fun fn => { fn with held := fn.held ++ [o.ev] })
    else loseEvent { s with queues := tset s.queues k { q with lost := q.lost + 1 } } o.fn
  | none =>
    if o.comp then modFn s o.fn (fun fn => { fn with held := fn.held ++ [o.ev] })
    else loseEvent s o.fn

/-- Deliver the events raised so far. Delivering may raise QUEUE_READY records: `n` bounds the rounds. -/
def flushN : Nat → State → State
  | 0, s => s
  | n + 1, s =>
    match s.evs with
    | [] => s
    | es => flushN n (es.foldl deliver { s with evs := [] })

/-- Deliver every event of the step. An event queue is LQ 0 and raises no QUEUE_READY itself, so two rounds suffice. -/
def flush (s : State) : State := { flushN 2 s with evs := [] }

/-- Records of one frame in ascending TYPE, completions last (22 R404); records of one type keep their order. -/
def insertEv (e : EvOut) : List EvOut → List EvOut
  | [] => [e]
  | x :: xs =>
    let key : EvOut → Nat := fun o => b2n o.comp * 65536 + o.ev.typ
    if key e < key x then e :: x :: xs else x :: insertEv e xs

/-- The events of a frame in the order of 22 R404. -/
def sortEvs (es : List EvOut) : List EvOut := es.foldl (fun acc e => insertEv e acc) []

/-! ### Device-to-host entries (03 R57 to R60, R68) -/

/-- The 16-byte entry header (03 R57). -/
def entryHeader (len kind flags src time tb : Nat) : List Byte :=
  le4 len ++ le1 kind ++ le1 flags ++ le2 src ++ le6 time ++ le2 (tb % 16)

/-- One device-to-host entry: data cut to the entry size with TRUNC, GAP after a loss; discarded and counted in D2H_FULL
where no entry is free, or not written at all while the tenant is unbound (03 R52). -/
def d2hWrite (s : State) (k kind src : Nat) (time : Option (Nat × Nat)) (data : List Byte) : State :=
  match tget s.queues k with
  | none => s
  | some q =>
    match running q with
    | none => s
    | some c =>
      if !fnUp s (fnOf q.tenant) then s
      else if room q c = 0 then
        setInt { s with queues := tset s.queues k { q with full := inc48 q.full 1, gap := true } } (fnOf q.tenant) .d2hFull
      else
        let cap := 2 ^ c.entLog - 16
        let d := data.take cap
        let flags := b2n (phase c q.pi) + 2 * b2n (decide (cap < data.length)) + 4 * b2n q.gap + 8 * b2n time.isSome
        let h := entryHeader d.length kind flags src (time.getD (0, 0)).1 (time.getD (0, 0)).2
        let host := mwrite (mwrite s.host (entryAddr c q.pi + 16) d) (entryAddr c q.pi) h
        let q := { q with pi := nextIdx c q.pi, gap := false, produced := inc48 q.produced 1 }
        addUnsig { s with host := host, queues := tset s.queues k q } k 1

/-! ### Weir requests (19 R364) -/

/-- The queue of requests with `r` after every request of its class or a lower one. -/
def insertReq (r : WeirReq) : List WeirReq → List WeirReq
  | [] => [r]
  | x :: xs => if r.cls < x.cls then r :: x :: xs else x :: insertReq r xs

/-- A heavy operation asks for `n` credits in class `cls`, or in class 1 during a wake; each requester holds at most one request
at a time (19 R364, R369). -/
def askWeir (s : State) (cls n : Nat) (w : WeirWhat) : State :=
  if s.pwr.weirQ.any (·.what == w) then s
  else { s with pwr := { s.pwr with weirQ := insertReq ⟨if cls = 2 ∧ s.pwr.waking then 1 else cls, n, w⟩ s.pwr.weirQ } }

/-! ### Poisoned words (18 R351, R353) -/

/-- The memory word that holds what an owner names, named by its lowest place: 64 bits of SRAM, 64 bytes of HBM3. -/
def wordOf : MemOwner → MemOwner
  | .tarnLocal n a => .tarnLocal n (a / 4 * 4)
  | .tarnCluster c a => .tarnCluster c (a / 4 * 4)
  | .tarnImem n a => .tarnImem n (a / 2 * 2)
  | .hbmWindow t w => .hbmWindow t (w / 8 * 8)
  | o => o

/-- Whether the word of `o` is poisoned. -/
def poisoned (s : State) (o : MemOwner) : Bool := s.health.poison.any (fun e => wordOf e.1 == wordOf o)

/-- The marks of words that `f` selects are cleared; a write to a poisoned word clears its mark (R353). -/
def clearMarks (f : MemOwner → Bool) (s : State) : State := { s with health := { s.health with poison := s.health.poison.filter (fun e => !f e.1) } }
def unpoison (s : State) (o : MemOwner) : State := clearMarks (fun e => wordOf e == wordOf o) s

/-! ### Wake (19 R368, R369) -/

/-- A wake event: a device that is not in Run, or is entering a deeper state, returns to Run (WAKE_DONE ends the wake). From Still and
Sleep the HBM3 stack leaves self-refresh, a heavy operation of class 1. -/
def wake (s : State) : State :=
  if (s.pwr.state ≠ 0 ∨ s.pwr.entering ≠ none) ∧ !s.pwr.waking then
    let s := { s with pwr := { s.pwr with waking := true, entering := none } }
    if 3 ≤ s.pwr.state then askWeir s 2 6 .hbmExit else s
  else s

/-! ### The shape of every step -/

/-- What combinational logic drives from the state at the end of every step: FAULT_N is low while a bit of
DEV_FAULT[2:0] is 1, and until step 3 of the start-up (20 DEV_FAULT, 14 R296, 23 R411). A firmware.activate pauses the control plane once every taken command is answered
(02 R46). -/
def drive (s : State) : State :=
  let done := s.mbx.all (fun p => p.2.taken.isEmpty)
  let s := if s.ctl.handover && done && !s.ctl.paused then { s with ctl := { s.ctl with paused := true } } else s
  { s with dev := { s.dev with faultN := s.clk.started && !(s.dev.safe || s.dev.bootHalt || s.ctl.mgmtDown) } }

/-- Every step: it clears what the step before sent, acts, delivers its events and drives the pins. The queue of waiting
commands is not touched. -/
def run (s : State) (f : State → State) : Host.Outcome State Fault Refusal :=
  .next { drive (flush (f { s with out := [] })) with pending := s.pending }

/-- A step of the fallback set, which runs from step 3 of the start-up on (14 R293, R296). -/
def runBase (s : State) (f : State → State) : Host.Outcome State Fault Refusal := run s (fun s => if s.clk.started then f s else s)

/-- A step of the other synchronous domains, which run on the root alone (14 R293). -/
def runMere (s : State) (f : State → State) : Host.Outcome State Fault Refusal := run s (fun s => if s.clk.running then f s else s)

/-- A message on a Causeway lane, if its link is up (17). -/
def laneOut (s : State) (l kind : Nat) (b : List Byte) : State := if bit s.cway.link l then emit s (.lane l kind b) else s

end Sys2Proof.Machine
end

