-- ==== Sys2Proof/Machine/Crypto.lean ====
section
/-! DEFINITION. The cipher suites of 04 R84 and the protection of control datagrams (02 R27), as the standards the spec names define them:
AES (FIPS 197), GCM (NIST SP 800-38D), SHA-1 and HMAC (FIPS 180, RFC 2104), and the key derivation and packet transforms of RFC 3711 and
RFC 7714. -/
namespace Sys2Proof.Machine

/-! ### AES -/

/-- Multiplication by x in GF(2^8). -/
def xtime (a : Byte) : Byte := (a <<< 1) ^^^ (if a.msb then 0x1B else 0)

/-- The product in GF(2^8). -/
def gmul (a b : Byte) : Byte :=
  ((List.range 8).foldl (fun (p : Byte × Byte) i => (if b.getLsbD i then p.1 ^^^ p.2 else p.1, xtime p.2)) (0, a)).1

/-- The inverse in GF(2^8), a^254; 0 for 0. -/
def ginv (a : Byte) : Byte := ((List.range 7).foldl (fun (p : Byte × Byte) _ => let q := gmul p.2 p.2; (gmul p.1 q, q)) (1, a)).1

/-- The AES S-box. -/
def sbox (a : Byte) : Byte :=
  let b := ginv a
  b ^^^ b.rotateLeft 1 ^^^ b.rotateLeft 2 ^^^ b.rotateLeft 3 ^^^ b.rotateLeft 4 ^^^ 0x63

/-- Bytes combined bit by bit; the shorter list ends it. -/
def xorB (a b : List Byte) : List Byte := List.zipWith (· ^^^ ·) a b

/-- One word of the key schedule after `ws`, newest first, for a key of `nk` words. -/
def keyWord (nk i : Nat) (ws : List (List Byte)) : List Byte :=
  let t := ws.headD []
  let t := if i % nk = 0 then xorB ((t.drop 1 ++ t.take 1).map sbox) [(List.range (i / nk - 1)).foldl (fun a _ => xtime a) 1, 0, 0, 0]
    else if 6 < nk ∧ i % nk = 4 then t.map sbox else t
  xorB (ws.getD (nk - 1) []) t

/-- The round keys of a 16- or 32-byte key. -/
def keySchedule (key : List Byte) : List (List Byte) :=
  let nk := key.length / 4
  let ws := (range nk (4 * (nk + 7))).foldl (fun ws i => keyWord nk i ws :: ws) ((List.range nk).map (fun i => slice key (4 * i) 4)).reverse
  let ws := ws.reverse
  (List.range (nk + 7)).map (fun r => (List.range 4).flatMap (fun i => ws.getD (4 * r + i) []))

/-- Byte `r` of column `c` after ShiftRows. -/
def shiftRows (b : List Byte) : List Byte := (List.range 16).map (fun i => b.getD (i % 4 + 4 * ((i / 4 + i % 4) % 4)) 0)

/-- MixColumns. -/
def mixColumns (b : List Byte) : List Byte :=
  (List.range 16).map (fun i =>
    let at_ := fun j => b.getD (i / 4 * 4 + (i + j) % 4) 0
    xtime (at_ 0) ^^^ (xtime (at_ 1) ^^^ at_ 1) ^^^ at_ 2 ^^^ at_ 3)

/-- AES of one block under round keys. -/
def aesBlock (ks : List (List Byte)) (b : List Byte) : List Byte :=
  let n := ks.length - 1
  let mid := (range 1 n).foldl (fun b r => xorB (mixColumns (shiftRows (b.map sbox))) (ks.getD r [])) (xorB b (ks.headD []))
  xorB (shiftRows (mid.map sbox)) (ks.getD n [])

/-- `n` bytes of keystream: the blocks of a counter that starts at `ctr`, 128 bits. -/
def ctrStream (ks : List (List Byte)) (ctr n : Nat) : List Byte :=
  ((List.range ((n + 15) / 16)).flatMap (fun i => aesBlock ks (putBe 16 ((ctr + i) % 2 ^ 128)))).take n

/-! ### GCM -/

/-- The product of GHASH: bit 0 is the most significant. -/
def ghMul (x y : BitVec 128) : BitVec 128 :=
  ((List.range 128).foldl (fun (p : BitVec 128 × BitVec 128) i =>
    (if x.getMsbD i then p.1 ^^^ p.2 else p.1, (p.2 >>> 1) ^^^ (if p.2.getLsbD 0 then 0xE1000000000000000000000000000000#128 else 0))) (0, y)).1

/-- Data filled with zeros to whole blocks of 16 bytes. -/
def pad16 (b : List Byte) : List Byte := b ++ zb ((16 - b.length % 16) % 16)

/-- GHASH of associated data and ciphertext. -/
def ghash (h : BitVec 128) (aad ct : List Byte) : BitVec 128 :=
  let d := pad16 aad ++ pad16 ct ++ putBe 8 (8 * aad.length) ++ putBe 8 (8 * ct.length)
  (List.range (d.length / 16)).foldl (fun y i => ghMul (y ^^^ BitVec.ofNat 128 (fldBe d (16 * i) 16)) h) 0

/-- The 16-byte tag of a ciphertext; the nonce is 12 bytes. -/
def gcmTag (key iv aad ct : List Byte) : List Byte :=
  let ks := keySchedule key
  let h := BitVec.ofNat 128 (beNat (aesBlock ks (zb 16)))
  xorB (putBe 16 (ghash h aad ct).toNat) (aesBlock ks (iv ++ putBe 4 1))

/-- GCM encryption, which is also decryption, of the bytes themselves. -/
def gcmCrypt (key iv d : List Byte) : List Byte := xorB d (ctrStream (keySchedule key) (beNat iv * 2 ^ 32 + 2) d.length)

/-! ### SHA-1 and HMAC -/

/-- Word `i` of the message schedule, words newest first. -/
def shaWord (ws : List (BitVec 32)) : BitVec 32 := (ws.getD 2 0 ^^^ ws.getD 7 0 ^^^ ws.getD 13 0 ^^^ ws.getD 15 0).rotateLeft 1

/-- The five words of a SHA-1 state after a block of 64 bytes. -/
def shaBlock (h : List (BitVec 32)) (b : List Byte) : List (BitVec 32) :=
  let w0 := ((List.range 16).map (fun i => BitVec.ofNat 32 (fldBe b (4 * i) 4))).reverse
  let ws := ((List.range 64).foldl (fun ws _ => shaWord ws :: ws) w0).reverse
  let v := (List.zip (List.range 80) ws).foldl (fun (v : List (BitVec 32)) (e : Nat × BitVec 32) =>
    let (a, b, c, d, e') := (v.getD 0 0, v.getD 1 0, v.getD 2 0, v.getD 3 0, v.getD 4 0)
    let (f, k) : BitVec 32 × BitVec 32 :=
      if e.1 < 20 then ((b &&& c) ||| (~~~b &&& d), 0x5A827999) else if e.1 < 40 then (b ^^^ c ^^^ d, 0x6ED9EBA1)
      else if e.1 < 60 then ((b &&& c) ||| (b &&& d) ||| (c &&& d), 0x8F1BBCDC) else (b ^^^ c ^^^ d, 0xCA62C1D6)
    [a.rotateLeft 5 + f + e' + k + e.2, a, b.rotateLeft 30, c, d]) h
  List.zipWith (· + ·) h v

/-- SHA-1. -/
def sha1 (m : List Byte) : List Byte :=
  let d := m ++ [0x80] ++ zb ((119 - m.length % 64) % 64) ++ putBe 8 (8 * m.length)
  ((List.range (d.length / 64)).foldl (fun h i => shaBlock h (slice d (64 * i) 64)) [0x67452301, 0xEFCDAB89, 0x98BADCFE, 0x10325476, 0xC3D2E1F0]).flatMap
    (fun w => putBe 4 w.toNat)

/-- HMAC-SHA1 under a key of at most 64 bytes. -/
def hmacSha1 (key m : List Byte) : List Byte :=
  let k := fit 64 key
  sha1 (k.map (· ^^^ 0x5C) ++ sha1 (k.map (· ^^^ 0x36) ++ m))

/-! ### SRTP (RFC 3711, RFC 7714) -/

/-- A session key of `n` bytes with label `l`: AES-CM under the master key, key derivation rate 0. A 12-byte salt stands in the high bytes of
the 14. (PRESUMED, log entry 3.) -/
def srtpKdf (mkey salt : List Byte) (l n : Nat) : List Byte :=
  let x := Nat.xor (beNat (fit 14 salt)) (l * 2 ^ 48)
  ctrStream (keySchedule mkey) (x * 2 ^ 16) n

/-- The counter block or nonce material of a packet with index `i`: SSRC from the header. -/
def srtpSsrc (head : List Byte) : Nat := fldBe head 8 4

/-- The body of an RTP packet encrypted or decrypted under a suite (04 R84): both are the same operation. -/
def srtpCrypt (cipher : Nat) (mkey salt head body : List Byte) (i : Nat) : List Byte :=
  if cipher = 1 then
    let iv := Nat.xor (Nat.xor (beNat (srtpKdf mkey salt 2 14) * 2 ^ 16) (srtpSsrc head * 2 ^ 64)) (i * 2 ^ 16)
    xorB body (ctrStream (keySchedule (srtpKdf mkey salt 0 16)) iv body.length)
  else
    gcmCrypt (srtpKdf mkey salt 0 mkey.length) (srtpIv mkey salt head i) body
where
  /-- The GCM nonce: salt xor (0, SSRC, ROC, SEQ). -/
  srtpIv (mkey salt head : List Byte) (i : Nat) : List Byte :=
    xorB (srtpKdf mkey salt 2 12) (zb 2 ++ putBe 4 (srtpSsrc head) ++ putBe 6 i)

/-- The authentication tag of a packet with encrypted body `ct`. -/
def srtpTag (cipher : Nat) (mkey salt head ct : List Byte) (i : Nat) : List Byte :=
  if cipher = 1 then (hmacSha1 (srtpKdf mkey salt 1 20) (head ++ ct ++ putBe 4 (i / 2 ^ 16))).take 10
  else gcmTag (srtpKdf mkey salt 0 mkey.length) (srtpCrypt.srtpIv mkey salt head i) head ct

end Sys2Proof.Machine
end

