-- ==== Sys2Proof/Machine/Scs.lean ====
section
/-! DEFINITION. How a command of the Sundique Command Set is posted, taken, checked, executed and answered (02 R25 to
R38, 22 R392 to R403), over which every command of the set is written. -/
namespace Sys2Proof.Machine

/-! ### Mailboxes: 0 PF0, 1 to 512 VF1 to VF512, 513 chain bus, 514 Causeway, 515 to 518 network sessions (22 R403) -/

/-- Whether `mb` numbers a mailbox. -/
def mbExists (mb : Nat) : Bool := decide (mb ≤ 518)

/-- The rights of the chain-bus mailbox and of the network sessions (02 device.mailbox_set). -/
def session (s : State) (mb : Nat) : Session :=
  if mb = 513 then s.ctl.chain else tgetD s.ctl.sessions (mb - 515) {}

/-- Manager rights (02 R25). -/
def mbManager (s : State) (mb : Nat) : Bool :=
  mb == 0 || mb == 514 || (decide (513 ≤ mb) && (session s mb).rights == 1)

/-- The tenant of a tenant-rights mailbox (02 R25). -/
def mbTenant (s : State) (mb : Nat) : Option Nat :=
  if 1 ≤ mb ∧ mb ≤ 512 then some (mb - 1)
  else if (mb = 513 ∨ 515 ≤ mb) ∧ (session s mb).rights = 2 then some (session s mb).tenant
  else none

/-- MBX_STATUS.READY (02, 03 R52, 19 R372). In ROM_WAIT the ROM makes PF0 ready (02 R42). -/
def mbReady (s : State) (mb : Nat) : Bool :=
  !s.ctl.mgmtDown &&
    ((s.ctl.stage == 4 && (if mb ≤ 512 then s.ctl.hostUp && (mb == 0 || bound s (mb - 1)) else if mb = 514 then s.cway.numbered && !s.cway.manager else (session s mb).rights != 0))
      || (s.ctl.stage == 1 && mb == 0 && s.dev.straps % 2 == 1))

/-- The mailbox changed by `f`. -/
def modMbx (s : State) (mb : Nat) (f : Mbx → Mbx) : State := { s with mbx := tset s.mbx mb (f (tgetD s.mbx mb {})) }

/-- The mailbox's state. -/
def mbox (s : State) (mb : Nat) : Mbx := tgetD s.mbx mb {}

/-- A doorbell write of producer index `pi` (02 R32, R40; 03 R52; 19 R371). -/
def ringDoorbell (s : State) (mb pi : Nat) : State :=
  let m := mbox s mb
  let d := (pi + 128 - m.pi) % 128
  let n := (pi + 128 - m.cmdCi) % 128
  if !mbReady s mb then modMbx s mb (fun m => { m with dbResult := 0x0401, busySeen := true })
  else if d = 0 ∨ 65 ≤ d then modMbx s mb (fun m => { m with dbResult := 0x0103, dbErr := true })
  else if 64 < n then modMbx s mb (fun m => { m with dbResult := 0x0401, busySeen := true })
  else modMbx s mb (fun m => { m with dbResult := 0, pi := pi })

/-- The bytes of a descriptor (02 R28). -/
def descBytes (d : Desc) : List Byte :=
  le2 d.opcode ++ le2 d.flags ++ le2 d.tenant ++ le2 d.tag ++ le4 d.length ++ le4 d.rsvd ++ fit 48 d.payload

/-- A descriptor read from its bytes. -/
def descOf (bs : List Byte) : Desc :=
  ⟨fld bs 0 2, fld bs 2 2, fld bs 4 2, fld bs 6 2, fld bs 8 4, fld bs 12 4, slice bs 16 48⟩

/-- The descriptor in command entry `i` of a mailbox. -/
def entryDesc (m : Mbx) (i : Nat) : Desc := descOf (mread m.cmd ((i % 64) * 64) 64)

/-- The rights a command of mailbox `mb` is taken under now: manager, or its tenant (02 R25). -/
def rightsOf (s : State) (mb : Nat) : Bool × Option Nat := (mbManager s mb, mbTenant s mb)

/-- The command in entry `i` of a mailbox, taken whole under the rights `who` (02 R33). -/
def Mbx.entry (m : Mbx) (i : Nat) (who : Bool × Option Nat) : Taken :=
  let e := tget m.side (i % 64)
  { desc := entryDesc m i, mgr := who.1, own := who.2, carried := e.map (·.1), peer := (e.map (·.2)).getD ([], 0) }

/-- CI passes an entry: its command is taken under the rights `who`. -/
def Mbx.take (m : Mbx) (who : Bool × Option Nat) : Mbx :=
  { m with cmdCi := (m.cmdCi + 1) % 128, side := tdel m.side (m.cmdCi % 64), taken := m.taken ++ [m.entry m.cmdCi who] }

/-- Taking a command: CI advances if a command waits and a response entry is reserved for it (02 R34). -/
def ringTake (s : State) (mb : Nat) : State :=
  let m := mbox s mb
  if m.cmdCi ≠ m.pi ∧ (m.cmdCi + 1 + 128 - m.rspCi) % 128 ≤ 64 ∧ mbReady s mb ∧ !s.ctl.paused ∧ !s.ctl.handover then
    modMbx s mb (·.take (rightsOf s mb))
  else s

/-! ### Checks -/

/-- What a command's handler is told: the mailbox and its rights, the header, and the payload of LENGTH bytes. -/
structure Ctx where
  mb     : Nat
  mgr    : Bool
  own    : Option Nat
  opcode : Nat
  tenant : Nat
  tag    : Nat
  len    : Nat
  ind    : Bool
  force  : Bool
  dry    : Bool
  p      : List Byte

/-- Payload fields of 1, 2, 4 and 8 bytes at an offset. -/
def Ctx.u8 (c : Ctx) (o : Nat) : Nat := fld c.p o 1
def Ctx.u16 (c : Ctx) (o : Nat) : Nat := fld c.p o 2
def Ctx.u32 (c : Ctx) (o : Nat) : Nat := fld c.p o 4
def Ctx.u64 (c : Ctx) (o : Nat) : Nat := fld c.p o 8

/-- A failing condition (22 R398), with what its DETAIL carries. A payload field is named by its payload offset, a
header field by `header`. -/
inductive Fail where
  | badOpcode
  | badLength
  | noPermission
  | notReady
  | busy (detail : List Byte)
  | header (off : Nat)
  | field (off : Nat)
  | conflict (detail : List Byte)
  | quota (kind avail : Nat)
  | noResource
  | hwFault (dom : Nat)
  deriving DecidableEq, Repr

/-- The place of a failing condition in the order of 22 R398. -/
def Fail.rank : Fail → Nat
  | .badOpcode => 0
  | .badLength => 1
  | .noPermission => 2
  | .notReady => 3
  | .busy _ => 4
  | .header _ => 5
  | .field _ => 5
  | .conflict _ => 6
  | .quota _ _ => 7
  | .noResource => 8
  | .hwFault _ => 9

/-- The status code (22 R398). -/
def Fail.status : Fail → Nat
  | .badOpcode => 0x0101
  | .badLength => 0x0102
  | .noPermission => 0x0201
  | .notReady => 0x0402
  | .busy _ => 0x0401
  | .header _ => 0x0103
  | .field _ => 0x0103
  | .conflict _ => 0x0501
  | .quota _ _ => 0x0302
  | .noResource => 0x0301
  | .hwFault _ => 0x0601

/-- Among failing conditions, the sort key: status order first, then the first failing field, then the quota kind. A
descriptor field comes before a payload field (02 R31, 22 R398, R399). (DEDUCED, log entry 12.) -/
def Fail.key (f : Fail) : Nat :=
  f.rank * 2 ^ 34 +
    match f with
    | .header o => o
    | .field o => 16 + o
    | .quota k _ => k
    | _ => 0

/-- The failing condition that is returned. -/
def firstFail : List Fail → Option Fail
  | [] => none
  | f :: fs =>
    match firstFail fs with
    | none => some f
    | some g => if g.key < f.key then some g else some f

/-- DETAIL of a failing response (02 R31, 22 R398, R399): an inline field is at descriptor offset 16 + off; for a field of
an indirect payload bytes 8-9 read 16 and bytes 12-15 its offset. -/
def Fail.detail (ind : Bool) : Fail → List Byte
  | .header o => le2 o
  | .field o => if ind then le2 16 ++ zb 2 ++ le4 o else le2 (16 + o)
  | .busy d => d
  | .conflict d => d
  | .quota k a => le2 k ++ zb 6 ++ le8 a
  | .hwFault d => le2 d
  | _ => []

/-- What a command that passes every check answers. -/
inductive Ans where
  /-- OK, with DETAIL. -/
  | ok (detail : List Byte)
  /-- ACCEPTED_PENDING, with what remains and what it holds. -/
  | pend (what : PendWhat) (holds : List Obj)

/-- A command's own checks and effect: its failing conditions, the objects it touches, whether it would be answered with
ACCEPTED_PENDING, and its effect with its answer, which takes place only if nothing fails (02 R35). -/
structure Plan where
  fails : List Fail := []
  touch : List Obj := []
  pends : Bool := false
  /-- What a CONFLICT refusal itself does (13 R280: STEP_REF and its event). -/
  onConflict : State → State := id
  act   : State → State × Ans
  /-- What follows at once on a pending command (a forward to a worker that is not there, 17 R342). -/
  after : State → State := id

/-- A row of the opcode index (22): issuer code, scope, type Q, "ind.", least LENGTH, or no payload, the ranges its
chapter marks reserved and 0, and the handler. -/
structure Cmd where
  opcode : Nat
  issuer : Char
  scope  : Char
  query  : Bool := false
  ind    : Bool := false
  least  : Nat := 0
  rsvd   : List (Nat × Nat) := []
  plan   : Ctx → State → Plan

/-- `c → f`: the failing condition `f` where `c` holds. -/
def failIf (c : Bool) (f : Fail) : List Fail := if c then [f] else []

/-- The issuer check of 02 R26 and 22 R395: in a tenant-rights mailbox the header must name its own tenant, and it may
issue T and O commands only. -/
def mayIssue (k : Cmd) (c : Ctx) : Bool :=
  if c.mgr then k.issuer != 'P' || c.mb == 0
  else (k.issuer == 'T' || k.issuer == 'O') && c.own == some c.tenant

/-- Whether the header TENANT suits the scope (22 R394); tenant.create names a tenant that need not exist. -/
def tenantSuits (k : Cmd) (s : State) (t : Nat) : Bool :=
  if k.opcode = 0x0201 then decide (t < 512)
  else if k.scope = 'D' then t == 0xFFFF
  else if k.scope = 'T' then thas s.tenants t
  else t == 0xFFFF || thas s.tenants t

/-- The indirect limit of a mailbox (02 R25); 0 where it has none. -/
def indirectLimit (mb : Nat) : Nat := if mb = 513 then 0 else if 515 ≤ mb then 1024 else 2 ^ 24

/-- The lengths a chapter fixes beyond the least one: stream.open (04 R80), stream.key_set (04 R85) and the largest image of
firmware.load (02 R43). -/
def lengthFixed (k : Cmd) (n : Nat) : Bool :=
  if k.opcode = 0x0401 then n == 144 || n == 208
  else if k.opcode = 0x0405 then n == 64
  else if k.opcode = 0x0F01 then decide (n ≤ 2 ^ 23 + 8)
  else true

/-- The length checks of 02 R30 and 22 R393. (DEDUCED, log entry 11.) -/
def lengthFails (k : Cmd) (mb : Nat) (d : Desc) (ind : Bool) : List Fail :=
  failIf (if ind then d.length == 0 || (indirectLimit mb != 0 && decide (indirectLimit mb < d.length)) else decide (48 < d.length)) .badLength
    ++ failIf (decide (d.length < k.least)) .badLength
    ++ failIf (k.least == 0 && d.length != 0) .badLength
    ++ failIf (!lengthFixed k d.length) .badLength

/-- The indirect payload, or the failure that leaves it unread (02 R30, 22 R399): the bytes 8-9 and 12-15 of DETAIL. A mirrored command
carries its payload (16 R323). -/
def fetchPayload (s : State) (mb : Nat) (d : Desc) (carried : List Byte) (readFails ind mirrored : Bool) : Except (List Byte) (List Byte) :=
  if !ind then .ok (d.payload.take d.length)
  else if mirrored then .ok (fit d.length carried)
  else if mb = 513 then .error (le2 2)
  else if 514 ≤ mb then .ok (fit d.length carried)
  else
    let a := fld d.payload 0 8
    if a % 64 ≠ 0 then .error (le2 16 ++ zb 2 ++ le4 0xFFFFFFFE)
    else if readFails then .error (le2 16 ++ zb 2 ++ le4 0xFFFFFFFF)
    else .ok (mread s.host a d.length)

/-- Reserved header bits (02 R29), and "ind." without INDIRECT (22 R393). -/
def headerFails (k : Cmd) (d : Desc) (ind : Bool) : List Fail :=
  failIf (decide (16 ≤ d.flags)) (.header 2) ++ failIf (k.ind && !ind) (.header 2) ++ failIf (d.rsvd != 0) (.header 12)

/-- The fields a command's chapter marks reserved and 0 (02 R29). -/
def reservedFails (k : Cmd) (c : Ctx) : List Fail :=
  k.rsvd.flatMap (fun r => failIf (!allZero (slice c.p r.1 r.2)) (.field r.1))

/-- Whether a command of groups 0x02 to 0x0A or 0x0C that is no query is refused on a twin that is not active (22 R400). -/
def twinRefuses (k : Cmd) (s : State) : Bool :=
  let g := k.opcode / 256
  !k.query && (decide (2 ≤ g ∧ g ≤ 0x0A) || g == 0x0C) && !(tripGet s .role == 0 || tripGet s .role == 2)

/-- The outcome of the checks: a failing response's status and DETAIL, or the plan to apply. -/
inductive Verdict where
  | fail (status : Nat) (detail : List Byte) (refusal : State → State)
  | go (p : Plan) (c : Ctx)

/-- Every check of a command, in the way of 22 R398: a TENANT that does not suit or an indirect payload that cannot be
read ends the command with BAD_FIELD unless an earlier status holds; otherwise all conditions are evaluated. (DEDUCED, log entries 14 and 16.) -/
def check (k : Cmd) (mb : Nat) (who : Bool × Option Nat) (d : Desc) (carried : List Byte) (readFails mirrored : Bool) (s : State) : Verdict :=
  let ind := bit d.flags 0
  let c0 : Ctx := ⟨mb, mirrored || who.1, who.2, k.opcode, d.tenant, d.tag, d.length, ind, bit d.flags 2, bit d.flags 3, []⟩
  let early := lengthFails k mb d ind ++ failIf (!mayIssue k c0) .noPermission
    ++ failIf (s.ctl.stage == 1 && !(k.opcode == 0x0F01 || k.opcode == 0x0F02 || k.opcode == 0x0F04)) .notReady
  let badTenant := failIf (!tenantSuits k s d.tenant) (.header 4)
  match fetchPayload s mb d carried readFails ind mirrored with
  | .error det =>
    match firstFail early with
    | some f => .fail f.status (f.detail ind) id
    | none =>
      match firstFail (badTenant ++ headerFails k d ind) with
      | some f => .fail f.status (f.detail ind) id
      | none => .fail 0x0103 det id
  | .ok pay =>
    let c := { c0 with p := pay }
    if badTenant ≠ [] then
      match firstFail (early ++ ((k.plan c s).fails.filter (fun f => decide (f.rank ≤ 2))) ++ badTenant ++ headerFails k d ind) with
      | some f => .fail f.status (f.detail ind) id
      | none => .fail 0x0103 (le2 4) id
    else
      let p := k.plan c s
      let busy := failIf (s.ctl.pend.any (fun q => q.holds.any (p.touch.contains ·))) (.busy [])
        ++ failIf (p.pends && decide (64 ≤ (s.ctl.pend.filter (·.mb == mb)).length)) (.busy [])
      let gone := failIf (k.scope != 'D' && k.opcode != 0x0201 && ((tget s.tenants d.tenant).map (·.destroying)).getD false) (.conflict [])
      let twin := failIf (!mirrored && twinRefuses k s) (.conflict [])
      match firstFail (early ++ headerFails k d ind ++ reservedFails k c ++ p.fails ++ busy ++ gone ++ twin) with
      | some f => .fail f.status (f.detail ind) (if f.rank = 6 && !c.dry then p.onConflict else id)
      | none => .go p c

/-- A response (02 R31). -/
def response (d : Desc) (opcode status : Nat) (detail : List Byte) : List Byte :=
  le2 d.tag ++ le2 status ++ le2 opcode ++ le2 d.tenant ++ fit 24 detail

/-- An active twin mirrors what it applies of groups 0x02 to 0x0A and 0x0C, and twin.config, which applies on both devices (16 R323).
(DEDUCED, log entry 62.) -/
def mirrors (k : Cmd) (s : State) : Bool :=
  let g := k.opcode / 256
  role s == 2 && !k.query && (decide (2 ≤ g ∧ g ≤ 0x0A) || g == 0x0C || k.opcode == 0x0B01)

/-- Where the free values of mirrored command `i` of a pair begin: both devices draw them there, so what they choose is the same (16 R323,
09 R208). (DEDUCED, log entry 62.) -/
def choicesOf (i : Nat) : Nat := 2 ^ 32 * (i + 1)

/-- The effect of a command: the choices of one that is mirrored are drawn under its number, and it leaves with that number. -/
def applyMirrored (k : Cmd) (mb : Nat) (d : Desc) (p : Plan) (c : Ctx) (s : State) : State × Ans :=
  if mirrors k s then
    let (t, a) := p.act { s with free := choicesOf s.twin.chosen }
    (emit { t with free := s.free, twin := { t.twin with chosen := s.twin.chosen + 1 } } (.mirror ⟨mb, { d with opcode := k.opcode }, if c.ind then c.p else [], false⟩ s.twin.chosen), a)
  else p.act s

/-- Execute a command: the checks, then its effect and its response. A pending command is listed with what it holds
(02 R36). With DRY_RUN nothing changes (02 R29, 22 R396). `mirrored` is a command the active twin applied (16 R323);
`who` gives the rights it was taken under. (DEDUCED, log entry 13.) -/
def execCmd (k : Cmd) (mb : Nat) (who : Bool × Option Nat) (d : Desc) (carried : List Byte) (readFails mirrored mute : Bool) (s : State) : State × List Byte :=
  match check k mb who d carried readFails mirrored s with
  | .fail st det f => (f s, response d k.opcode st det)
  | .go p c =>
    let (t, a) := if mirrored then p.act s else applyMirrored k mb d p c s
    if c.dry then (s, response d k.opcode 0 (if k.query then (match a with | .ok det => det | .pend _ _ => []) else []))
    else
      match a with
      | .ok det => (t, response d k.opcode 0 det)
      | .pend what holds =>
        (p.after { t with ctl := { t.ctl with pend := t.ctl.pend ++ [⟨mb, k.opcode, d.tag, d.tenant, what, holds, mute⟩] } },
          response d k.opcode 1 [])

/-- The key of a session's sealed-key slot, and the nonce of one of its datagrams (02 R27, log entry 3). -/
def ctlKey (ss : Session) : List Byte := (List.range 32).map (Config.sealedKey ss.keySlot)
def ctlNonce (up : Bool) (seq : Nat) : List Byte := List.ofFn (Config.ctlNonce up seq)

/-- The response of a mailbox is written: into its ring, with the mailbox interrupt (02 R31, MBX_CTRL). A worker's Causeway mailbox
sends it to its manager (17 R342), a network session in a datagram to `peer`, the source of the command, under the session's key and
transmit sequence (02 R27); either frees the entry (DESIGN CHOICE, log entry 103). -/
def respond (s : State) (mb : Nat) (r : List Byte) (peer : List Byte × Nat) : State :=
  let m := mbox s mb
  let s := modMbx s mb (fun m => { m with rsp := mwrite m.rsp ((m.rspPi % 64) * 32) r, rspPi := (m.rspPi + 1) % 128
                                          rspCi := if 514 ≤ mb then (m.rspCi + 1) % 128 else m.rspCi })
  let s := if m.irqEn && decide (mb ≤ 512) then setInt s mb .mbxRsp else s
  if mb = 514 then laneOut s s.cway.upLane 5 r
  else if 515 ≤ mb then
    let ss := session s mb
    let body := gcmCrypt (ctlKey ss) (ctlNonce true ss.txSeq) r
    let tag := gcmTag (ctlKey ss) (ctlNonce true ss.txSeq) (Config.ctlAad true ss.txSeq) body
    emit { s with ctl := { s.ctl with sessions := tset s.ctl.sessions (mb - 515) { ss with txSeq := ss.txSeq + 1 } } }
      (.datagram (mb - 515) peer.1 peer.2 ss.txSeq body tag)
  else s

/-- Whether the next taken command of mailbox `mb` may start: a FENCE command waits until no earlier command of the mailbox is
pending (02 R29, R36). -/
def mayStart (s : State) (mb : Nat) : Bool :=
  match (mbox s mb).taken with
  | [] => false
  | c :: _ =>
    s.pwr.state == 0 && s.ctl.inFlight.isNone && !s.ctl.paused && !s.ctl.mgmtDown && (s.ctl.stage == 4 || (s.ctl.stage == 1 && mb == 0 && s.dev.straps % 2 == 1)) &&
      !(bit c.desc.flags 1 && s.ctl.pend.any (·.mb == mb))

/-! ### Round robin (02 R34) -/

/-- The mailboxes in cyclic order from `i` on, PF0's left out: VF1 to VF512, then 513 to 518. -/
def mailboxOrder (i : Nat) : List Nat := range i 519 ++ range 1 i

/-- The mailbox whose turn it is: PF0's every second turn, the others in cyclic order. -/
def nextMailbox (s : State) : Option Nat :=
  if s.ctl.pf0Turn && mayStart s 0 then some 0
  else
    match (mailboxOrder s.ctl.rrNext).find? (mayStart s) with
    | some k => some k
    | none => if mayStart s 0 then some 0 else none

/-- The turn passes on. -/
def turnTaken (mb : Nat) (s : State) : State :=
  { s with ctl := if mb = 0 then { s.ctl with pf0Turn := false } else { s.ctl with pf0Turn := true, rrNext := if 518 ≤ mb then 1 else mb + 1 } }

/-- Mailbox `mb` has its turn and its oldest taken command starts. -/
def startTurn (mb : Nat) (s : State) : State := modMbx (turnTaken mb s) mb (fun m => { m with taken := m.taken.drop 1 })

/-- Start and answer the command `c` of mailbox `mb`, whose turn it is and which is the command `k`; the answer of a command taken
before a function-level reset is discarded (02 R38). -/
def startOne (k : Cmd) (mb : Nat) (c : Taken) (carried : List Byte) (readFails : Bool) (s : State) : State :=
  let (s, r) := execCmd k mb (c.mgr, c.own) c.desc (c.carried.getD carried) readFails false c.quiet (startTurn mb s)
  if c.quiet then s else respond s mb r c.peer

/-- The descriptor of a row: its command's opcode in what the request gives. -/
def rowDesc (k : Cmd) (r : Req) : Desc := { r.desc with opcode := k.opcode }

/-- The issuer writes a descriptor into the next free command entry (02 R32, R33), and over a link its indirect payload with it. -/
def Mbx.putEntry (m : Mbx) (d : Desc) (carried : Option (List Byte)) (src : List Byte × Nat) : Mbx :=
  if (m.pi + 128 - m.cmdCi) % 128 < 64 then
    { m with cmd := mwrite m.cmd ((m.pi % 64) * 64) (descBytes d)
             side := match carried with | some b => tset m.side (m.pi % 64) (b, src) | none => m.side }
  else m

/-- The row of a command of the set: the issuer writes the descriptor into the next free entry of mailbox `r.mb` and rings
the doorbell; the command is taken, and where it is the one that firmware starts next under R34, it is executed and answered.
Otherwise it waits for CMD_TAKE and CMD_START (log entry 8). -/
def post (k : Cmd) (r : Req) (s : State) : State :=
  if !mbExists r.mb then s
  else
    let i := (mbox s r.mb).pi
    let s := wake (ringDoorbell (modMbx s r.mb (·.putEntry (rowDesc k r) (if 514 ≤ r.mb then some r.carried else none) ([], 0))) r.mb ((i + 1) % 128))
    if (mbox s r.mb).pi = i then s
    else
      let s := ringTake s r.mb
      match (mbox s r.mb).taken with
      | [c] => if (mbox s r.mb).cmdCi = (i + 1) % 128 ∧ nextMailbox s = some r.mb then startOne k r.mb c r.carried r.readFails s else s
      | _ => s

/-- A command of the set as a step. -/
def runCmd (k : Cmd) (r : Req) (s : State) : Host.Outcome State Fault Refusal := runBase s (post k r)

/-! ### Completion records (22 R403, R406) -/

/-- The function whose event queue receives the completions of mailbox `mb`. -/
def compFn (mb : Nat) : Nat := if mb ≤ 512 then mb else 0

/-- The completion record of the pending command `p`: type, object, status and AUX as the index gives them. A Causeway
mailbox sends it to its manager as CMD_DONE. A mirrored command has no issuer here, and a command whose VF was reset has
its record discarded (02 R38). -/
def complete (s : State) (p : PendCmd) (typ object status aux : Nat) : State :=
  let s := { s with ctl := { s.ctl with pend := s.ctl.pend.filter (fun (q : PendCmd) => q != p) } }
  if p.mute then s
  else
    let e : Ev := ⟨typ, p.tenant, p.tag, object, status, aux⟩
    if p.mb = 514 then laneOut s s.cway.upLane 4 (evBytes { e with typ := 1 } false 0) else raiseEv s (compFn p.mb) true e

/-- Type and OBJECT of the completion record of a pending command (22 R405). -/
def compType (p : PendCmd) : Nat × Nat :=
  match p.what with
  | .tenantDestroy t => (0x0201, t)
  | .taskLoad n => (0x0701, n)
  | .forward d _ => (0x0C05, d)
  | .gate d _ => (0x0D10, d)
  | .fwLoad k _ => (0x0F01, k)
  | .fwActivate k => (0x0F02, k)
  | _ => (1, p.mb * 65536 + p.opcode)

/-- The completion record of `p` with the type and OBJECT of the index; what a worker sends its manager is a CMD_DONE (22 R403).
(DESIGN CHOICE, log entry 56.) -/
def finish (s : State) (p : PendCmd) (status aux : Nat) : State :=
  complete s p (compType p).1 (if p.mb = 514 then p.mb * 65536 + p.opcode else (compType p).2) status aux

/-- The pending commands that wait for `w`. -/
def pendingFor (s : State) (w : PendWhat → Bool) : List PendCmd := s.ctl.pend.filter (fun p => w p.what)

/-- An object that is gone answers CONFLICT (02 R37), one that never was BAD_FIELD. (DEDUCED, log entry 17.) -/
def missing (s : State) (o : Obj) (off : Nat) : Fail := if s.ctl.removed.contains o then .conflict [] else .field off

/-- The object is removed: later commands that name it fail with CONFLICT (02 R37). -/
def noteRemoved (s : State) (o : Obj) : State :=
  { s with ctl := { s.ctl with removed := if s.ctl.removed.contains o then s.ctl.removed else o :: s.ctl.removed } }

/-- The object exists again. -/
def noteMade (s : State) (o : Obj) : State := { s with ctl := { s.ctl with removed := s.ctl.removed.filter (· != o) } }

/-- A plan that changes nothing and answers `detail`. -/
def answer (fails : List Fail) (detail : List Byte) : Plan := { fails := fails, act := fun s => (s, .ok detail) }

/-- A plan that answers OK with no detail after `f`. -/
def change (fails : List Fail) (touch : List Obj) (f : State → State) : Plan :=
  { fails := fails, touch := touch, act := fun s => (f s, .ok []) }

/-- A query that writes `bytes` to RESULT_ADDR at payload offset `off`, 64-byte aligned, and answers OK. -/
def resultAt (c : Ctx) (off : Nat) (fails : List Fail) (bytes : List Byte) : Plan :=
  { fails := fails ++ failIf (c.u64 off % 64 != 0) (.field off)
    act := fun s => ({ s with host := mwrite s.host (c.u64 off) bytes }, .ok []) }

end Sys2Proof.Machine
end

