-- ==== Sys2Proof/Machine/Quota.lean ====
section
/-! DEFINITION. Quotas and queue allocation (03 R48 to R55): the checks and charges that every creating command shares. -/
namespace Sys2Proof.Machine

/-- Tenant `t` changed by `f`. -/
def modTenant (s : State) (t : Nat) (f : Tenant → Tenant) : State := { s with tenants := tmod s.tenants t f }

/-- Tenant `t`. -/
def tenant (s : State) (t : Nat) : Tenant := tgetD s.tenants t {}

/-- A TENANT field: an existing tenant, or 0xFFFF for PF0. -/
def tenantField (s : State) (t : Nat) : Bool := t == 0xFFFF || thas s.tenants t

/-- The sum of two amounts. -/
def Use.add (a b : Use) : Use :=
  ⟨a.queues + b.queues, a.rx + b.rx, a.tx + b.tx, a.xp + b.xp, a.cores + b.cores, a.keys + b.keys, a.hbm + b.hbm⟩

/-- What is left of `a` after `b` is returned. -/
def Use.sub (a b : Use) : Use :=
  ⟨a.queues - b.queues, a.rx - b.rx, a.tx - b.tx, a.xp - b.xp, a.cores - b.cores, a.keys - b.keys, a.hbm - b.hbm⟩

/-- Charge tenant `t` with `u`. -/
def charge (s : State) (t : Nat) (u : Use) : State := modTenant s t (fun x => { x with use := x.use.add u })

/-- Return `u` to tenant `t`. -/
def refund (s : State) (t : Nat) (u : Use) : State := modTenant s t (fun x => { x with use := x.use.sub u })

/-- One quota check: the failing condition QUOTA with the amount still available (02 R31, 03 R48). -/
def quotaFail (kind quota used want : Nat) : List Fail := failIf (decide (0 < want ∧ quota < used + want)) (.quota kind (quota - used))

/-- The quotas that `u` more would exceed; for ch48 each direction counts for itself, the receive direction first
(02 R31, 03 R49). (DEDUCED, log entry 15.) -/
def quotaFails (s : State) (t : Nat) (u : Use) : List Fail :=
  let x := tenant s t
  quotaFail 1 x.quota.queues x.use.queues u.queues ++ quotaFail 2 x.quota.rx x.use.rx u.rx ++ quotaFail 2 x.quota.tx x.use.tx u.tx
    ++ quotaFail 3 x.quota.xp x.use.xp u.xp ++ quotaFail 4 x.quota.cores x.use.cores u.cores
    ++ quotaFail 5 x.quota.keys x.use.keys u.keys ++ quotaFail 6 x.quota.hbm x.use.hbm u.hbm

/-- The queues PF0 holds itself (03 R50). -/
def pf0Queues (s : State) : Nat := (s.queues.filter (fun p => p.2.tenant == 0xFFFF)).length

/-- The sum over tenants, `skip` left out, of a quota. -/
def quotaSum (s : State) (skip : Nat) (f : Use → Nat) : Nat :=
  (s.tenants.filter (fun p => p.1 != skip)).foldl (fun a p => a + f p.2.quota) 0

/-- The device never overbooks: whether tenant `t` may have the quotas `q` (03 R48, R50). -/
def bookable (s : State) (t : Nat) (q : Use) : Bool :=
  decide (pf0Queues s + quotaSum s t (·.queues) + q.queues ≤ 1048576) && decide (quotaSum s t (·.rx) + q.rx ≤ 393216)
    && decide (quotaSum s t (·.xp) + q.xp ≤ 1048576) && decide (quotaSum s t (·.cores) + q.cores ≤ 256)
    && decide (quotaSum s t (·.keys) + q.keys ≤ 131072) && decide (quotaSum s t (·.hbm) + q.hbm ≤ 14 * 2 ^ 30)

/-- One more queue of PF0 fits (03 R50). -/
def pf0QueueFits (s : State) : Bool := decide (pf0Queues s + 1 + quotaSum s 0x10000 (·.queues) ≤ 1048576)

/-- Whether `n` more queues of tenant `t` find a number: a Q other than 0, and where the device chooses it a local index other than 0
(03 R53). -/
def numbersFree (s : State) (t n : Nat) (auto : Bool) : Bool :=
  decide ((s.queues.filter (fun p => p.1 != 0)).length + n < 0x100000)
    && (!auto || decide ((s.queues.filter (fun p => p.2.tenant == t && p.2.lq != 0)).length + n < if t = 0xFFFF then 0x100000 else 0x40000))

/-- The failing conditions of a requested local index at payload offset `off` (03 R53): out of range, 0, or in use. Where no number is
left, NO_RESOURCE (DESIGN CHOICE, log entry 104). -/
def lqFails (s : State) (t lq off : Nat) : List Fail :=
  failIf (!numbersFree s t 1 (lq == 0xFFFFFFFF)) .noResource ++
  if lq = 0xFFFFFFFF then []
  else failIf (decide ((if t = 0xFFFF then 0x100000 else 0x40000) ≤ lq) || lq == 0) (.field off)
    ++ failIf ((findQ s t lq).isSome || (t == 0xFFFF && thas s.queues lq)) (.conflict [])

/-- The local indices tenant `t` uses, and 0, which an automatic index never is. -/
def lqsUsed (s : State) (t : Nat) : List Nat := 0 :: (s.queues.filter (fun p => p.2.tenant == t)).map (·.2.lq)

/-- A new queue `q` of tenant `t` at local index `lq` (0xFFFF_FFFF: any free one, never 0): its Q and LQ. The device
assigns Q, never 0 to a tenant (03 R53); which free number it takes is its own choice (log entry 1). -/
def newQueue (s : State) (t lq : Nat) (q : Queue) : State × Nat × Nat :=
  let (lq, s) :=
    if lq = 0xFFFFFFFF then
      let (o, s) := if t = 0xFFFF then pickFree s (0 :: s.queues.map (·.1)) 0x100000 else pickFree s (lqsUsed s t) 0x40000
      (o.getD 0, s)
    else (lq, s)
  let (k, s) :=
    if t = 0xFFFF then (lq, s)
    else
      let (o, s) := pickFree s (0 :: s.queues.map (·.1)) 0x100000
      (o.getD 0, s)
  let s := unpoison { s with queues := tset s.queues k { q with lq := lq, tenant := t } } (.queueCtx k)
  let s := noteMade (noteMade s (.queue k)) (.lq t lq)
  (if t = 0xFFFF then s else charge s t { queues := 1 }, k, lq)

/-- A queue of types 0 to 4, created running from the next boundary, with its context (03 R54). BASE is an internal address,
the device's free choice. -/
def newInternal (s : State) (t lq typ depth link : Nat) : State × Nat × Nat :=
  let (w, s) := draw s
  let mem := if typ = 0 then 1 else if typ = 1 then 0 else 3
  let c : QCtx := ⟨typ, mem, 0, 2, t, 0, 0, depth, w.toNat, 0xFFFF, 0, 0, link⟩
  newQueue s t lq { lq := 0, typ := typ, tenant := t, next := some c }

/-- Queue `k` is gone: its number is free (02 R37). -/
def freeQueue (s : State) (k : Nat) : State :=
  match tget s.queues k with
  | none => s
  | some q => noteRemoved (noteRemoved { s with queues := tdel s.queues k } (.queue k)) (.lq q.tenant q.lq)

/-- Queue `k` is gone and its charge is returned. -/
def dropQueue (s : State) (k : Nat) : State :=
  match tget s.queues k with
  | none => s
  | some q => refund (freeQueue s k) q.tenant { queues := 1 }

/-- The context a queue has or will have. -/
def Queue.context (q : Queue) : Option QCtx := q.next.or q.ctx

/-- Whether another queue of tenant `t` than `k` holds vector `v` (03 R63). -/
def vectorTaken (s : State) (t v k : Nat) : Bool :=
  v != 0xFFFF && s.queues.any (fun p => p.1 != k && p.2.tenant == t && (p.2.context.map (·.vector)) == some v)

/-- Whether the function of tenant `t` is in per-function mode, now or from the next boundary. -/
def perFunction (s : State) (t : Nat) : Bool := (tenant s t).nextPerFn.getD (tenant s t).perFn

/-- The vectors a queue may have: below 2,048 for PF0, 64 for a VF, and in per-queue mode from 1 up (03 R63). (DEDUCED, log entry 59.) -/
def vectorOk (s : State) (t v : Nat) : Bool :=
  v == 0xFFFF || (decide (v < if t = 0xFFFF then 2048 else 64) && (v != 0 || perFunction s t))

/-! ### Closing an input (06 R151) -/

/-- The charge of one crosspoint (06 R148). -/
def xpCost (x : Tenant) (late : Bool) : Nat := (if x.rate96 then 2 else 1) * (if late then 2 else 1)

/-- The charges of the crosspoints of a tenant that `f` picks; those of a closed input or a destroyed bus have returned. -/
def xpCharges (x : Tenant) (f : Xp → Bool) : Nat :=
  x.mix.buses.foldl (fun n e => if e.2.closing then n else (e.2.xps.filter (fun y => f y && !y.gone)).foldl (fun n y => n + xpCost x y.late) n) 0

/-- The crosspoints fed by an input are to go, at the next boundary or with task `task`; their charge returns at once (06 R151). -/
def closeInput (s : State) (t : Nat) (f : InRef → Bool) (task : Option Nat := none) : State :=
  let s := refund s t { xp := xpCharges (tenant s t) (fun y => f y.input) }
  modTenant s t (fun x => { x with mix := { x.mix with buses := tmap x.mix.buses (fun _ b =>
    { b with xps := b.xps.map (fun (y : Xp) => if f y.input && !y.gone then { y with gone := true, task := task } else y) }) } })

end Sys2Proof.Machine
end

