-- ==== Sys2Proof/Machine/Clocking.lean ====
section
/-! DEFINITION. How Mere time passes: time bases (13 R271, R272), media clocks (05 R105, R106), and the conversions between
them. -/
namespace Sys2Proof.Machine

/-! ### Time bases -/

/-- Time base `t`. -/
def tb (s : State) (t : Nat) : TimeBase := tgetD s.tbs t {}

/-- Time base `t` changed by `f`. -/
def modTb (s : State) (t : Nat) (f : TimeBase → TimeBase) : State := { s with tbs := tset s.tbs t (f (tb s t)) }

/-- The effective increment for a frequency adjustment `a` (1/256 ppb): the nominal one scaled, rounded half to even
(13 R272). -/
def effInc (a : Int) : Nat := (divEvenI (234562480592213 * (256000000000 + a)) 256000000000).toNat

/-- The rate of a running slew, in 1/256 ppb, with its direction. -/
def slewAdj (b : TimeBase) : Int := if b.slew = 0 then 0 else if 0 < b.slew then b.slewRate * 256000 else -(b.slewRate * 256000 : Int)

/-- `n` Mere cycles of a time base; a slew ends exactly when its offset has been applied (13 R279). -/
def TimeBase.advance (n : Nat) (b : TimeBase) : TimeBase :=
  let base := effInc b.adj
  let want : Int := n * ((effInc (b.adj + slewAdj b) : Int) - base)
  let part := if b.slew.natAbs ≤ want.natAbs then b.slew else want
  { b with val := ((b.val + n * base : Nat) + part).toNat % 2 ^ 80, slew := b.slew - part }

/-- The increment a time base runs at now. -/
def TimeBase.inc (b : TimeBase) : Nat := effInc (b.adj + slewAdj b)

/-- The time value of a time base (13 R271). -/
def TimeBase.now (b : TimeBase) : Nat := b.val / 2 ^ 32

/-- The difference of two time values, signed (13 R271). -/
def tdiff (a b : Nat) : Int := sext 48 (a + 2 ^ 48 - b % 2 ^ 48)

/-- The time value `a` moved by `d` units of 2^-16 ns. -/
def tadd (a : Nat) (d : Int) : Nat := (((a : Int) + d) % (2 ^ 48 : Nat)).toNat

/-- The full time of a time base, in units of 2^-48 ns, extended from its anchor (13 R274). -/
def TimeBase.full (b : TimeBase) : Int := ((b.sec * 1000000000 + b.ns : Nat) : Int) * (2 ^ 48 : Nat) + sext 80 (b.val + 2 ^ 80 - b.low * 2 ^ 48)

/-- ANCHOR_AGE: milliseconds since the last anchor, saturating; 0xFFFF before the first (13 TB_STATUS). -/
def anchorAge (s : State) (b : TimeBase) : Nat :=
  match b.anchorAt with
  | none => 0xFFFF
  | some a => min 0xFFFF ((s.mere - a) / 1200000)

/-! ### Tenant rates and frames (01 R9, R10) -/

/-- Samples per frame at 48 kHz for each PERIOD code. -/
def frameLen48 : Nat → Nat
  | 0 => 6
  | 1 => 12
  | 2 => 16
  | 3 => 24
  | 4 => 48
  | 5 => 96
  | _ => 192

/-- N: samples per frame (01 R9). -/
def Tenant.n (x : Tenant) : Nat := frameLen48 x.period * (if x.rate96 then 2 else 1)

/-- The nominal rate, Hz. -/
def Tenant.fs (x : Tenant) : Nat := if x.rate96 then 96000 else 48000

/-- The nominal increment (05 R106). -/
def Tenant.nomInc (x : Tenant) : Nat := if x.rate96 then 5764607523034 else 2882303761517

/-- MC_EXT. -/
def MClk.ext (m : MClk) : Nat := m.acc / 2 ^ 56 % 2 ^ 48

/-- The distance of sample count `c` from the accumulator, in 2^-56 sample, signed: MC_EXT wraps at 2^48 (05 R107). -/
def MClk.ahead (m : MClk) (c : Nat) : Int := sext 104 (c * 2 ^ 56 % 2 ^ 104 + 2 ^ 104 - m.acc % 2 ^ 104)

/-- The accumulator of a tenant's clock, 2^-56 sample, counted on beyond its 104 bits as the tenant's frames are. -/
def Tenant.accNear (x : Tenant) : Nat := ((x.frame * x.n * 2 ^ 56 : Nat) - x.mclk.ahead (x.frame * x.n)).toNat

/-- The ten stream rates of 01 R3, Hz, by RATE code (04). -/
def rateHz : Nat → Nat
  | 0 => 8000
  | 1 => 16000
  | 2 => 24000
  | 3 => 32000
  | 4 => 44100
  | 5 => 48000
  | 6 => 88200
  | 7 => 96000
  | 8 => 176400
  | _ => 192000

/-- The cost of one channel at `fs`, in thirds of a ch48 (01 R3). -/
def chCost (fs : Nat) : Nat := (3 * fs + 47999) / 48000

/-- The time in time base `b` of sample count `c` of a media clock (2^-16 ns): the clock's distance from `c` at its present
increment (13 R272, 05 R116). -/
def instantTime (b : TimeBase) (m : MClk) (c : Nat) : Nat :=
  if m.inc = 0 then b.now else tadd b.now (divEvenI (m.ahead c * b.inc) (m.inc * 2 ^ 32))

/-- The same instant in the time of `b` when it is stated in the time of `rb`, whose ratio to `b` the time engine measures (05 R116,
R121). -/
def instantIn (rb b : TimeBase) (m : MClk) (c : Nat) : Nat :=
  if rb.inc = 0 then instantTime b m c else tadd b.now (divEvenI (tdiff (instantTime rb m c) rb.now * b.inc) rb.inc)

/-- Nanoseconds in units of 2^-16 per sample of a media clock, as a fraction. -/
def samplePeriod (b : TimeBase) (m : MClk) : Nat := if m.inc = 0 then 0 else b.inc * 2 ^ 56 / (m.inc * 2 ^ 32)

/-! ### The passing of Mere time -/

/-- Whether the Mere clock runs: the synchronous domains have started on the root (14 R293, R296). -/
def mereRuns (s : State) : Bool := s.clk.running

/-- `n` Mere cycles pass: time bases and media clocks advance; nothing else happens on its own. -/
def advance (n : Nat) (s : State) : State :=
  if mereRuns s then
    { s with mere := s.mere + n
             tbs := s.tbs.map (fun p => (p.1, p.2.advance n))
             tenants := s.tenants.map (fun p => (p.1, { p.2 with mclk := { p.2.mclk with acc := (p.2.mclk.acc + n * p.2.mclk.inc) % 2 ^ 104 } })) }
  else s

/-- Mere time advances to cycle `c`, if it has not passed it. -/
def advanceTo (c : Nat) (s : State) : State := if s.mere < c then advance (c - s.mere) s else s

/-- The next step of a grid of period `d` cycles (log entry 6): `i` names the grid. (DESIGN CHOICE, log entry 101.) -/
def gridStep (i d : Nat) (s : State) : State :=
  let k := tgetD s.grid i 0 + 1
  advanceTo (k * d) { s with grid := tset s.grid i k }

/-- Mere time advances to the instant at which the media clock of tenant `t` reaches sample count `c`. -/
def advanceToCount (t c : Nat) (s : State) : State :=
  let m := (tenant s t).mclk
  if 0 < m.ahead c ∧ m.inc ≠ 0 then advance (((m.ahead c).toNat + m.inc - 1) / m.inc) s else s

end Sys2Proof.Machine
end

