-- ==== Sys2Proof/Machine/NetBase.lean ====
section
/-! DEFINITION. What streams need of the ports: which exist, their line rates, frame sizes on the wire, and the calendar
budget (10 R211, 04 R101, R102, 11 R234). -/
namespace Sys2Proof.Machine

/-- The mode of a lane group. -/
def groupMode (s : State) (g : Nat) : Nat := (tgetD s.netGroups g {}).mode

/-- Whether a group's mode has port `p` (10 R211). -/
def portIn (s : State) (p : Nat) : Bool :=
  match groupMode s (p / 4) with
  | 0 => false
  | 1 => p == 0
  | 2 => p % 4 == 0
  | 3 => p % 2 == 0
  | _ => decide (p < 8)

/-- Whether network port `p` exists: from the end of the mode change on (10 R211). -/
def portExists (s : State) (p : Nat) : Bool := portIn s p && !(tgetD s.netGroups (p / 4) {}).pending

/-- The line rate of a network port, Gbit/s. -/
def lineRate (s : State) (p : Nat) : Nat :=
  match groupMode s (p / 4) with
  | 1 => 400
  | 2 => 200
  | 3 => 100
  | 4 => 50
  | 5 => 25
  | _ => 10

/-- Bytes per sample of a FORMAT (04 R73). -/
def sampleBytes : Nat → Nat
  | 0 => 2
  | 1 => 3
  | 2 => 4
  | 3 => 1
  | 4 => 1
  | 5 => 2
  | 6 => 3
  | _ => 4

/-- Whether a FORMAT is AAF. -/
def isAaf (f : Nat) : Bool := decide (5 ≤ f)

/-- The authentication tag length of a CIPHER (04 R84). -/
def tagLen : Nat → Nat
  | 0 => 0
  | 1 => 10
  | _ => 16

/-- The frame of a stream packet on a leg, from the destination address to the FCS: Ethernet header and FCS, `tags` bytes of VLAN tags,
IP, UDP and RTP headers or the AVTP header, payload and authentication tag, padded to 64 bytes (04). -/
def frameBytes (aaf v6 : Bool) (tags payload tag : Nat) : Nat :=
  max 64 (18 + tags + (if aaf then 24 else (if v6 then 40 else 20) + 20) + payload + tag)

/-- Fields of a stream.open payload (04). -/
def cDir (c : List Byte) : Nat := fld c 0 1
def cFormat (c : List Byte) : Nat := fld c 1 1
def cChannels (c : List Byte) : Nat := fld c 2 1
def cRate (c : List Byte) : Nat := fld c 3 1
def cSpp (c : List Byte) : Nat := fld c 4 2
def cPt (c : List Byte) : Nat := fld c 6 1
def cClock (c : List Byte) : Nat := fld c 7 1
def cFlags (c : List Byte) : Nat := fld c 8 2
def cDual (c : List Byte) : Bool := bit (cFlags c) 0
def cSsrcCheck (c : List Byte) : Bool := bit (cFlags c) 1
def cArrival (c : List Byte) : Bool := bit (cFlags c) 2
def cKeyed (c : List Byte) : Bool := bit (cFlags c) 3
def cLoop (c : List Byte) : Bool := bit (cFlags c) 4
def cL (c : List Byte) : Nat := fld c 10 2
def cMaxDelay (c : List Byte) : Nat := fld c 12 2
def cTb (c : List Byte) : Nat := fld c 14 1
def cConceal (c : List Byte) : Nat := fld c 15 1
def cSsrc (c : List Byte) : Nat := fld c 20 4
def cTsOffset (c : List Byte) : Nat := fld c 24 4
def cPolTol (c : List Byte) : Nat := fld c 28 1
def cPolBurst (c : List Byte) : Nat := fld c 29 1
def cTclass (c : List Byte) : Nat := fld c 30 1
def cDscp (c : List Byte) : Nat := fld c 31 1
def cTxSlot (c : List Byte) : Nat := fld c 32 2
def cPeer (c : List Byte) : Nat := fld c 34 2
def cSource (c : List Byte) : Nat := fld c 36 4
def cFs (c : List Byte) : Nat := rateHz (cRate c)

/-- Whether a leg's port is a Causeway lane (17 R339). -/
def isLane (p : Nat) : Bool := decide (0x20 ≤ p ∧ p < 0x24)

/-- The legs a stream has: their payload offsets. -/
def legOffs (c : List Byte) : List Nat := if cDual c then [48, 96] else [48]

def legPort (c : List Byte) (o : Nat) : Nat := fld c o 1
def legL3 (c : List Byte) (o : Nat) : Nat := fld c (o + 1) 1
def legVlan (c : List Byte) (o : Nat) : Nat := fld c (o + 2) 2

/-- The VID of a leg's tag; an untagged leg and VID 0 count alike (04 R82). -/
def legVid (c : List Byte) (o : Nat) : Nat := if legVlan c o = 0xFFFF then 0 else legVlan c o % 4096

/-- The bytes of the outer tag that network port `p` puts on every frame (10 R218). -/
def outerTag (s : State) (p : Nat) : Nat := if decide (p < 8) && bit (tgetD s.netPorts p {}).tagFlags 0 then 4 else 0

/-- The frame length of a transmit stream's packet on the leg at `o`, with `outer` bytes of the port's own tag. -/
def legFrame (c : List Byte) (o outer tag : Nat) : Nat :=
  frameBytes (isAaf (cFormat c)) (legL3 c o == 1) ((if legVlan c o = 0xFFFF then 0 else 4) + outer) (cSpp c * cChannels c * sampleBytes (cFormat c)) tag

/-- The packet period P of a tenant in units of 1/3 ns. -/
def periodU (x : Tenant) : Nat := x.n * 3000000000 / x.fs

/-- PACE of a transmit stream (04 R74): how many P its packet covers. -/
def pace (x : Tenant) (c : List Byte) : Nat := cSpp c * x.fs / (x.n * cFs c)

/-- The tag length of a stream's packets: of its key's suite, or the largest while it has none (04 R74, R84). -/
def streamTag (c : List Byte) (k : Option Key) : Nat := if cKeyed c then (k.map (fun k => tagLen k.cipher)).getD 16 else 0

/-- The key a stream holds or is about to take. -/
def anyKey (st : Stream) : Option Key := (st.newKey.or st.key).or (st.nextKey.map (·.2))

/-- The slots a tenant has placed on port `p`: offset in 1/3 ns, and bits on the wire with preamble and gap (04 R102). -/
def placed (s : State) (t p : Nat) : List (Nat × Nat) :=
  s.streams.flatMap (fun e =>
    let st := e.2
    if st.tenant == t && decide (65536 ≤ e.1) then
      (legOffs st.cfg).flatMap (fun o =>
        if legPort st.cfg o == p then [(st.tx.slot * 192, (legFrame st.cfg o (outerTag s p) (streamTag st.cfg (anyKey st)) + 20) * 8)] else [])
    else [])

/-- The bits of the slots that fall in the 10 us interval that starts at offset `a`. -/
def windowBits (per : Nat) (xs : List (Nat × Nat)) (a : Nat) : Nat :=
  xs.foldl (fun n x => if (x.1 + per - a % per) % per < 30000 then n + x.2 else n) 0

/-- The largest load of any 10 us interval: intervals that start at a slot suffice. -/
def worstBits (per : Nat) (xs : List (Nat × Nat)) : Nat := xs.foldl (fun m x => max m (windowBits per xs x.1)) 0

/-- The load the other tenants place on port `p`, at every relative phase. -/
def othersBits (s : State) (t p : Nat) : Nat :=
  s.tenants.foldl (fun n e => if e.1 = t then n else n + worstBits (periodU e.2) (placed s e.1 p)) 0

/-- Whether the packets of a stream at offset `a`, `legs` being the ports and bits of its legs, keep the budget of port `p` (04 R102):
8 us in any 10 us. -/
def budgetOk (s : State) (t a : Nat) (legs : List (Nat × Nat)) (p : Nat) : Bool :=
  let mine := (legs.filter (fun l => l.1 == p)).map (fun l => (a, l.2))
  decide (othersBits s t p + worstBits (periodU (tenant s t)) (mine ++ placed s t p) ≤ 8000 * lineRate s p)

/-- The load of a candidate slot: the largest wire time of any 10 us interval that contains it, over the ports of the legs, in
units of 2.5 ps (04 R101). -/
def slotLoad (s : State) (t : Nat) (ps : List Nat) (a : Nat) : Nat :=
  ps.foldl (fun n p =>
    let per := periodU (tenant s t)
    let xs := placed s t p
    let starts := (a :: xs.map (·.1)).filter (fun b => decide ((a + per - b) % per < 30000))
    n + (starts.foldl (fun m b => max m (windowBits per xs b)) 0 + othersBits s t p) * (400 / lineRate s p)) 0

/-- The best of the candidates `a`, `a + 1`, ... (units of 64 ns): least load first, then earliest, among those that keep the
budget. -/
def bestSlot (s : State) (t : Nat) (legs : List (Nat × Nat)) : Nat → Nat → Option (Nat × Nat) → Option (Nat × Nat)
  | 0, _, best => best
  | n + 1, a, best =>
    let ports := (legs.map (·.1)).eraseDups
    let load := slotLoad s t ports (a * 192)
    let better := match best with | none => true | some (l, _) => decide (load < l)
    let best := if better && ports.all (budgetOk s t (a * 192) legs) then some (load, a) else best
    bestSlot s t legs n (a + 1) best

/-- Wire time of a frame of `b` bytes on a field port, in units of 0.1 us (11 R234). -/
def fldWire (b : Nat) : Nat := (b + 8) * 8 + 96

/-- A field port as its staged fld.port_config will have it: what is opened or bound before the cycle boundary must suit that (11 R230, R234;
DEDUCED, log entry 113). -/
def fldSoon (s : State) (p : Nat) : FldPort :=
  let f := tgetD s.fld p {}
  match f.staged with
  | some c => { f with role := fld c 1 1, nodeCount := fld c 3 1, toTimer := fld c 4 1, maxNode := fld c 8 2, tenant := fld c 10 2 }
  | none => f

/-- W of a field port with a leg of `b` bytes, in units of 0.1 us (11 R234). -/
def fldCycle (f : FldPort) (b : Nat) : Nat := 20 + fldWire b + (f.nodeCount - 1) * max f.toTimer (fldWire f.maxNode)

/-! ### Causeway lanes (17 R332 to R340) -/

/-- The cascade lanes whose link is up, twin links left out; on a manager those cascade.enumerate named. -/
def cwLanes (s : State) : List Nat :=
  (List.range 4).filter (fun n => bit s.cway.link n && !bit s.cway.twinLink n && (!s.cway.manager || bit s.cway.lanes n))

/-- The two lanes of a ring; none in a tree (17 R336). -/
def ringLanes (s : State) : List Nat := if s.cway.topo = 1 then (cwLanes s).take 2 else []

/-- Thirds of a ch48 that the legs of open streams of direction `dir` use on lane `n`; in a ring each leg uses both lanes (17 R340).
(DEDUCED, log entry 78.) -/
def laneUse (s : State) (dir n : Nat) : Nat :=
  s.streams.foldl (fun u e =>
    if e.1 / 65536 = dir then
      (legOffs e.2.cfg).foldl (fun u o =>
        let p := legPort e.2.cfg o
        if isLane p && (p == 0x20 + n || ((ringLanes s).contains (p - 0x20) && (ringLanes s).contains n)) then u + cChannels e.2.cfg * chCost (cFs e.2.cfg) else u) u
    else u) 0

/-- Free capacity of a lane in a direction, ch48 (17 R334). -/
def laneFree (s : State) (dir n : Nat) : Nat := (98304 - laneUse s dir n) / 3

/-- The lanes a leg's audio uses. -/
def legRoute (s : State) (p : Nat) : List Nat := if (ringLanes s).contains (p - 0x20) then ringLanes s else [p - 0x20]

/-- A leg whose lanes lack its ch48 (17 R340). -/
def laneFails (s : State) (c : List Byte) : List Fail :=
  failIf ((legOffs c).any (fun o => isLane (legPort c o) &&
    (legRoute s (legPort c o)).any (fun n => decide (98304 < laneUse s (cDir c) n + cChannels c * chCost (cFs c))))) .noResource

end Sys2Proof.Machine
end

