-- ==== Sys2Proof/Machine/Streams.lean ====
section
/-! DEFINITION. Chapter 04, the commands: opening, closing, keying and reading streams. -/
namespace Sys2Proof.Machine

/-- The key of a stream in the table: 65,536 x direction + number. -/
def skey (dir n : Nat) : Nat := 65536 * dir + n

/-- A stream changed by `f`. -/
def modStream (s : State) (k : Nat) (f : Stream → Stream) : State := { s with streams := tmod s.streams k f }

/-- Whether stream `k` belongs to tenant `t`. -/
def ownsStream (s : State) (t k : Nat) : Bool := ((tget s.streams k).map (·.tenant)) == some t

/-- A stream's direction. -/
def Stream.dir (st : Stream) : Nat := cDir st.cfg

/-- Whether a stream carries audio now: it is live, not closed. -/
def Stream.isOpen (st : Stream) : Bool := !st.closing

/-! ### Eddy units (05 R119) -/

/-- The Standard units of a conversion of `ch` channels between `fs` and the tenant rate. -/
def eddyUnits (mode ch fs fsT : Nat) : Nat :=
  if mode = 2 then 0 else ch * (chCost (max fs fsT) / 3) * (if mode = 1 then 4 else 1)

/-- The Standard units in use: by streams, by pending switches and by local ports. -/
def eddyUsed (s : State) : Nat :=
  s.streams.foldl (fun n e => n + e.2.rx.conv.units + e.2.rx.conv.pendUnits) 0 + s.lps.foldl (fun n e => n + e.2.conv.units + e.2.conv.pendUnits) 0

/-- The free Standard units: a missing bank takes its share away (18 R360). -/
def eddyFree (s : State) : Nat := 262144 * s.eddyBanks / 12 - eddyUsed s

/-! ### stream.open (04 R80) -/

/-- The bus that runs at a local index: one that is destroyed runs to the end of its frame (01 R14, 06 R145). -/
def liveBus (s : State) (t lq : Nat) : Option Bus := ((tenant s t).mix.buses.find? (fun e => e.2.lq == lq && e.2.live)).map (·.2)

/-- The task whose output runs at a local index. -/
def liveTask (s : State) (t lq : Nat) : Option Task := (s.tasks.find? (fun e => e.2.tenant == t && e.2.outLq == lq && e.2.live)).map (·.2)

/-- What a SOURCE names: its channels, its rate and whether it is a task output. -/
def sourceInfo (s : State) (t lq : Nat) : Option (Nat × Nat × Bool) :=
  match tget (tenant s t).mix.buses lq with
  | some b => some (b.width, (tenant s t).fs, false)
  | none =>
    (s.tasks.find? (fun e => e.2.tenant == t && e.2.outLq == lq && !e.2.closing)).map
      (fun e => (e.2.channels, if e.2.outRate = 0xFF then (tenant s t).fs else rateHz e.2.outRate, true))

/-- A SOURCE that names nothing: CONFLICT where its bus or task is gone (02 R37), else BAD_FIELD. -/
def sourceMissing (s : State) (t lq off : Nat) : Fail := missing s (.lq t lq) off

/-- What a SOURCE touches: the bus, and a task whose output it is (02 R36). -/
def sourceTouch (s : State) (t lq : Nat) : List Obj :=
  .lq t lq :: (s.tasks.filter (fun e => e.2.tenant == t && e.2.outLq == lq)).map (fun e => .task e.1)

/-- A classification key (04 R82): port, VLAN, destination and its port, source or stream identifier and its port. -/
structure ClassKey where
  port  : Nat
  vid   : Nat
  dst   : List Byte
  dport : Nat
  src   : List Byte
  sport : Nat
  deriving DecidableEq, Repr

/-- The classification key of the receive leg at `o` (04 R82). -/
def classKey (c : List Byte) (o : Nat) : ClassKey :=
  if isAaf (cFormat c) then ⟨legPort c o, legVid c o, slice c (o + 8) 6, 0, slice c (o + 24) 8, 0x10000⟩
  else ⟨legPort c o, legVid c o, slice c (o + 8) 16, fld c (o + 4) 2, slice c (o + 24) 16, fld c (o + 6) 2⟩

/-- The classification keys of every open receive stream's network and field legs. -/
def allKeys (s : State) : List ClassKey :=
  s.streams.flatMap (fun e =>
    if e.1 < 65536 then (legOffs e.2.cfg).flatMap (fun o => if legPort e.2.cfg o == 0xFE then [] else [classKey e.2.cfg o]) else [])

/-- Whether a list has no repeats. -/
def distinct {α : Type} [DecidableEq α] : List α → Bool
  | [] => true
  | a :: as => !as.contains a && distinct as

/-- Field checks of a leg record at payload offset `o` (04). A leg on a Causeway lane carries the destination device in byte 8
and a stream_id, all else 0 (17 R339). -/
def legFails (c : List Byte) (o : Nat) : List Fail :=
  let p := legPort c o
  let loop := p == 0xFE
  let aaf := isAaf (cFormat c)
  let multicast := if legL3 c o = 1 then fld c (o + 8) 1 == 0xFF else decide (224 ≤ fld c (o + 20) 1 ∧ fld c (o + 20) 1 < 240)
  failIf (!(decide (p < 8) || (decide (0x10 ≤ p) && decide (p < 0x20)) || (loop && cLoop c) || isLane p)) (.field o)
    ++ (if loop then []
      else if isLane p then
        failIf (!aaf) (.field 1) ++ failIf (legL3 c o != 3) (.field (o + 1)) ++ failIf (!allZero (slice c (o + 2) 6)) (.field (o + 2))
          ++ failIf (!allZero (slice c (o + 9) 15)) (.field (o + 8)) ++ failIf (!allZero (slice c (o + 32) 14)) (.field (o + 24))
      else
      failIf (if aaf then legL3 c o != 2 else decide (1 < legL3 c o)) (.field (o + 1))
        ++ failIf ((cDir c == 0 || aaf || multicast) && !allZero (slice c (o + 40) 6)) (.field (o + 40)))
    ++ failIf (!allZero (slice c (o + 46) 2)) (.field (o + 46))

/-- Checks of a key record at payload offset `o` (04 stream.key_set, R84). -/
def keyFails (p : List Byte) (o : Nat) : List Fail :=
  let ci := fld p (o + 3) 1
  failIf (!(decide (1 ≤ ci) && decide (ci ≤ 3))) (.field (o + 3)) ++ failIf (decide (2 ≤ fld p (o + 4) 1)) (.field (o + 4))
    ++ failIf (!allZero (slice p (o + 5) 3)) (.field (o + 5))
    ++ failIf (ci != 3 && !allZero (slice p (o + 32) 16)) (.field (o + 16))
    ++ failIf (ci != 1 && !allZero (slice p (o + 60) 2)) (.field (o + 48)) ++ failIf (!allZero (slice p (o + 62) 2)) (.field (o + 62))

/-- The key of a record. -/
def keyOf (p : List Byte) (o : Nat) : Key :=
  let ci := fld p (o + 3) 1
  ⟨ci, fld p (o + 14) 2, slice p (o + 16) (if ci = 3 then 32 else 16), slice p (o + 48) (if ci = 1 then 14 else 12)⟩

/-- Whether leg `o` lies on a field port. -/
def onField (c : List Byte) (o : Nat) : Bool := decide (0x10 ≤ legPort c o ∧ legPort c o < 0x20)

/-- R74: samples per packet. -/
def sppFails (x : Tenant) (c : List Byte) : List Fail :=
  let fs := cFs c
  let spp := cSpp c
  let g711 := cFormat c == 3 || cFormat c == 4
  let whole := (x.n * fs) % x.fs == 0
  let one := x.n * fs / x.fs
  let fieldOnly := (legOffs c).all (onField c)
  failIf (spp == 0 || decide (1400 < spp * cChannels c * sampleBytes (cFormat c))
      || (if cDir c = 0 then decide (spp * 8000 < fs) || decide ((if g711 then 40 else 4) * fs < spp * 1000)
          else !(whole && one != 0 && (spp == one || (fieldOnly && spp % one == 0 && decide (2 ≤ spp / one) && decide (spp / one ≤ 160)))))) (.field 4)

/-- R17 and R90: L, for a receive stream. -/
def lFails (x : Tenant) (c : List Byte) : List Fail :=
  let l := cL c
  failIf (if cDir c = 0 then decide (l * 4000 < x.fs) || decide (64 * x.fs < l * 1000)
      || decide (l * cFs c * 1000000 < (cSpp c * 1000000 + cMaxDelay c * cFs c) * x.fs) else l != 0) (.field 10)

/-- The checks of a loop receive stream's PEER (04 R80). -/
def peerFails (s : State) (c : List Byte) : List Fail :=
  if cDir c = 0 ∧ cLoop c then
    match tget s.streams (skey 1 (cPeer c)) with
    | none => [.field 34]
    | some q =>
      failIf (!q.isOpen || !(legOffs q.cfg).any (fun o => legPort q.cfg o == 0xFE)) (.field 34) ++ failIf (cFormat q.cfg != cFormat c) (.field 1)
        ++ failIf (cChannels q.cfg != cChannels c) (.field 2) ++ failIf (cRate q.cfg != cRate c) (.field 3) ++ failIf (cSpp q.cfg != cSpp c) (.field 4)
  else failIf (cPeer c != 0xFFFF) (.field 34)

/-- The SOURCE of a transmit stream (04 R98, 06 R134). -/
def sourceFails (s : State) (t : Nat) (c : List Byte) : List Fail :=
  if cDir c = 0 then failIf (cSource c != 0xFFFFFFFF) (.field 36)
  else
    match sourceInfo s t (cSource c) with
    | none => [sourceMissing s t (cSource c) 36]
    | some (ch, hz, _) => failIf (hz != cFs c) (.field 3) ++ failIf (ch != cChannels c) (.field 36)

/-- Value ranges of the stream.open payload. (DEDUCED, log entry 63.) -/
def openFields (s : State) (t : Nat) (c : List Byte) (keyed : Bool) : List Fail :=
  let x := tenant s t
  let rx := cDir c == 0
  let aaf := isAaf (cFormat c)
  let g711 := cFormat c == 3 || cFormat c == 4
  failIf (decide (1 < cDir c)) (.field 0) ++ failIf (decide (8 < cFormat c)) (.field 1)
    ++ failIf (!(decide (1 ≤ cChannels c) && decide (cChannels c ≤ 64))) (.field 2)
    ++ failIf (decide (9 < cRate c) || (g711 && decide (1 < cRate c))) (.field 3) ++ sppFails x c
    ++ failIf (if aaf then cPt c != 0 else decide (127 < cPt c)) (.field 6)
    ++ failIf (if rx then decide (2 < cClock c) || (cClock c == 2 && cFs c != x.fs) else cClock c != 0) (.field 7)
    ++ failIf (decide (32 ≤ cFlags c) || (aaf && (cDual c || cKeyed c)) || (cKeyed c && (legOffs c).any (fun o => legPort c o == 0xFE))) (.field 8)
    ++ lFails x c ++ failIf (rx && decide (60000 < cMaxDelay c)) (.field 12) ++ failIf (decide (15 < cTb c)) (.field 14)
    ++ failIf (rx && decide (2 ≤ cConceal c)) (.field 15)
    ++ failIf (!rx && !(cTclass c == 5 || cTclass c == 6)) (.field 30) ++ failIf (!rx && decide (63 < cDscp c)) (.field 31)
    ++ failIf (!rx && cTxSlot c != 0xFFFF && !(decide (periodU x ≤ cTxSlot c * 384) && decide (cTxSlot c * 192 < periodU x))) (.field 32)
    ++ peerFails s c ++ sourceFails s t c ++ (legOffs c).flatMap (legFails c)
    ++ failIf (!cDual c && !allZero (slice c 96 48)) (.field 96)
    ++ (if keyed then failIf (!cKeyed c) (.field 144) ++ keyFails c 144 else [])

/-- The quota charge of a stream (04 R72, 03 R55). -/
def openCharge (c : List Byte) : Use :=
  let cost := cChannels c * chCost (cFs c)
  let slots := if cKeyed c then 1 else 0
  if cDir c = 0 then { rx := cost, keys := slots, hbm := (cChannels c * cL c * 4 + 4095) / 4096 * 4096 } else { tx := cost, keys := slots }

/-- The network ports of a transmit stream's legs with the bits of its packet (04 R102). -/
def txLoads (s : State) (c : List Byte) (k : Option Key) : List (Nat × Nat) :=
  (legOffs c).flatMap (fun o => if legPort c o < 8 then [(legPort c o, (legFrame c o (outerTag s (legPort c o)) (streamTag c k) + 20) * 8)] else [])

/-- The slot a transmit stream gets: TX_SLOT, or the automatic choice of 04 R101; none where the budget admits none. -/
def chooseSlot (s : State) (t : Nat) (c : List Byte) (k : Option Key) : Option Nat :=
  let x := tenant s t
  let legs := txLoads s c k
  if cTxSlot c ≠ 0xFFFF then (if (legs.map (·.1)).all (budgetOk s t (cTxSlot c * 192) legs) then some (cTxSlot c) else none)
  else
    let lo := (periodU x + 383) / 384
    let hi := (periodU x + 191) / 192
    (bestSlot s t legs (hi - lo) lo none).map (·.2)

/-- A field-port transmit leg that 11 R234 does not admit. -/
def fieldLegFails (s : State) (x : Tenant) (c : List Byte) (k : Option Key) (o : Nat) : List Fail :=
  if cDir c = 1 ∧ onField c o then
    let p := legPort c o - 16
    let f := fldSoon s p
    let other := s.streams.any (fun e => decide (65536 ≤ e.1) && (legOffs e.2.cfg).any (fun q => legPort e.2.cfg q == legPort c o))
      || (legOffs c).any (fun q => q != o && legPort c q == legPort c o)
    let w := fldCycle f (legFrame c o 0 (streamTag c k))
    failIf (f.role != 1 || other || decide (pace x c * periodU x < w * 300) || decide (4000 ≤ f.nodeCount * f.toTimer)) .noResource
  else []

/-- A field port a leg names must belong to the stream's tenant (11 R230). -/
def legOwnerFails (s : State) (t : Nat) (c : List Byte) (o : Nat) : List Fail :=
  failIf (onField c o && (fldSoon s (legPort c o - 16)).tenant != t) (.field o)

/-- The stream numbers of a direction in use. -/
def numbersUsed (s : State) (dir : Nat) : List Nat :=
  (s.streams.filter (fun e => e.1 / 65536 == dir)).map (fun e => e.1 % 65536)

/-- A new leg with a full bucket (04 R97). -/
def freshLeg (s : State) (c : List Byte) (burst : Nat) : Leg := { tokens := burst * (cSpp c * 1000 * 1200000000), tokAt := s.mere }

/-- The anchor pair of a time-base-referenced stream (04 R89): the last whole second of its TB. Positions are RTP values
extended above 2^40, so that none is negative. -/
def openAnchor (s : State) (c : List Byte) : Nat × Nat :=
  let b := tb s (cTb c)
  let sec := b.full / (1000000000 * (2 ^ 48 : Nat))
  let back := sec * 1000000000 - ((b.sec * 1000000000 + b.ns : Nat) : Int)
  ((2 ^ 40 + (sec * cFs c + sext 32 (cTsOffset c)) % (2 ^ 32 : Nat)).toNat, tadd (b.low * 65536) (back * 65536))

/-- stream.open's effect: the numbers the device chooses are free values (04 R71, R75; log entry 1). -/
def openStream (t : Nat) (c : List Byte) (key : Option (Bool × Nat × Key)) (s : State) : State × List Byte :=
  let x := tenant s t
  let dir := cDir c
  let (no, s) := pickFree s (numbersUsed s dir) 65536
  let n := no.getD 0
  let depth := if dir = 0 then cL c else if pace x c ≤ 1 then 2 else pace x c + 1
  let lqReq := fld c 16 4
  let (s, q, lq) := newInternal s t lqReq (if dir = 0 then 0 else 1) depth n
  let (w1, s) := if dir = 1 ∧ cSsrc c = 0 then drawBelow s (2 ^ 32) else (cSsrc c, s)
  let (w2, s) := if dir = 1 then drawBelow s (if isAaf (cFormat c) then 256 else 65536) else (0, s)
  let slot := if dir = 1 then (chooseSlot s t c (key.map (·.2.2))).getD 0 else 0
  let tol := if cPolTol c = 0 then 50 else cPolTol c
  let burst := if cPolBurst c = 0 then 8 else cPolBurst c
  let cfg := patch (c.take 144) 28 (le1 tol ++ le1 burst)
  let ch := openCharge c
  let units := if dir = 0 then eddyUnits (cClock c) (cChannels c) (cFs c) x.fs else 0
  let (k, nk) := match key with
    | none => (none, none)
    | some (next, act, k) => if next then (none, some (act, k)) else (some k, none)
  let (aRtp, aNs) := openAnchor s c
  let st : Stream :=
    { tenant := t, cfg := cfg, q := q, lq := lq, key := k, nextKey := nk, slots := ch.keys, charge := ch
      legA := freshLeg s c burst, legB := freshLeg s c burst
      rx := { anchorRtp := aRtp, anchorNs := aNs, anchored := !cArrival c && !isAaf (cFormat c), est := { state := b2n (cArrival c) }, conv := { mode := cClock c, units := units } }
      tx := { ssrc := w1, seq := w2, index := w2, slot := slot } }
  let s := charge s t ch
  let s := noteMade { s with streams := tset s.streams (skey dir n) st } (.stream (skey dir n))
  (wake s, le2 n ++ zb 2 ++ le4 lq ++ le4 w1 ++ le2 w2 ++ le2 slot)

/-- stream.open. -/
def planOpen (c : Ctx) (s : State) : Plan :=
  let t := c.tenant
  let p := c.p
  let x := tenant s t
  let keyed := c.len == 208
  let rec' := if keyed then some (bit (fld p 148 1) 0, fld p 152 6, keyOf p 144) else none
  let k := rec'.map (·.2.2)
  let rxKeys := if cDir p = 0 then (legOffs p).flatMap (fun o => if legPort p o == 0xFE then [] else [classKey p o]) else []
  { fails := failIf (cLoop p && !c.mgr) .noPermission
      ++ openFields s t p keyed ++ lqFails s t (fld p 16 4) 16 ++ (legOffs p).flatMap (legOwnerFails s t p)
      ++ failIf (!distinct rxKeys || rxKeys.any ((allKeys s).contains ·)) (.conflict [])
      ++ failIf ((legOffs p).any (fun o => decide (legPort p o < 8) && !portExists s (legPort p o))) (.conflict [])
      ++ quotaFails s t ((openCharge p).add { queues := 1 })
      ++ failIf (decide (65536 ≤ (numbersUsed s (cDir p)).length)) .noResource
      ++ failIf (cDir p == 0 && decide (eddyFree s < eddyUnits (cClock p) (cChannels p) (cFs p) x.fs)) .noResource
      ++ failIf (cDir p == 1 && (chooseSlot s t p k).isNone) .noResource
      ++ (legOffs p).flatMap (fieldLegFails s x p k) ++ laneFails s p
    touch := if cDir p = 0 then (if cLoop p then [.stream (skey 1 (cPeer p))] else []) else sourceTouch s t (cSource p)
    act := fun s => let (s, d) := openStream t p rec' s; (s, .ok d) }

def cmdStreamOpen : Cmd :=
  { opcode := 0x0401, issuer := 'T', scope := 'T', ind := true, least := 144, rsvd := [(40, 8)], plan := planOpen }

def execStreamOpen (r : Req) (s : State) : Host.Outcome State Fault Refusal := runCmd cmdStreamOpen r s

/-! ### The stream a command names -/

/-- STREAM at offset 0 and DIR at offset 2: the failing conditions of a stream that is not the tenant's (04 R71). -/
def streamFails (c : Ctx) (s : State) (k : Nat) : List Fail :=
  if 1 < c.u8 2 then [.field 2]
  else match tget s.streams k with
    | none => [missing s (.stream k) 0]
    | some st => failIf (st.tenant != c.tenant) (.field 0) ++ failIf (st.tenant == c.tenant && st.closing) (.conflict [])

/-- The stream named; a DIR above 1 names none. -/
def namedStream (c : Ctx) : Nat := skey (c.u8 2) (c.u16 0)

/-! ### stream.close -/

/-- stream.close: refused while the tenant's media clock is bound to the stream (05). -/
def planClose (c : Ctx) (s : State) : Plan :=
  let k := namedStream c
  let t := c.tenant
  let bound := fun (b : Bind) => c.u8 2 == 0 && b.source == 2 && b.object == c.u16 0
  change (streamFails c s k ++ failIf (bound (tenant s t).mclk.bind || ((tenant s t).mclk.staged.map bound).getD false) (.conflict []))
    [.stream k]
    (fun s =>
      match tget s.streams k with
      | none => s
      | some st =>
        let s := refund s t (st.charge.add { queues := 1, keys := st.slots - st.charge.keys })
        let s := modStream s k (fun st => { st with closing := true, charge := {}, slots := 0 })
        if c.u8 2 = 0 then closeInput s t (fun r => r.kind == 0 && r.obj == c.u16 0) else s)

def cmdStreamClose : Cmd := { opcode := 0x0402, issuer := 'T', scope := 'T', least := 3, plan := planClose }

def execStreamClose (r : Req) (s : State) : Host.Outcome State Fault Refusal := runCmd cmdStreamClose r s

/-! ### stream.modify, stream.query, stream.key_set, stream.stats -/

/-- Whether the tenant has a loss-concealment task on the stream's channels (04 R80, 09 R210). -/
def hasConcealTask (s : State) (t n : Nat) : Bool :=
  s.tasks.any (fun e => e.2.tenant == t && e.2.library && e.2.libId == 9 && !e.2.closing && e.2.input.kind == 0 && e.2.input.obj == n)

/-- stream.modify: the fields MASK selects, at the next frame boundary. -/
def planModify (c : Ctx) (s : State) : Plan :=
  let k := namedStream c
  let m := c.u8 3
  change (streamFails c s k ++ failIf (decide (16 ≤ m)) (.field 3)
      ++ failIf (bit m 0 && (decide (2 < c.u8 4) || (c.u8 4 == 2 && !hasConcealTask s c.tenant (c.u16 0)))) (.field 4)
      ++ failIf (bit m 2 && c.u8 6 == 0) (.field 6) ++ failIf (bit m 3 && decide (4 ≤ c.u8 7)) (.field 7))
    [.stream k]
    (fun s => modStream s k (fun st =>
      let old := st.modify.getD (zb 8)
      let take := fun i => if bit m i then slice c.p (i + 4) 1 else slice old (i + 4) 1
      { st with modify := some (zb 3 ++ le1 (m ||| fld old 3 1) ++ take 0 ++ take 1 ++ take 2 ++ take 3) }))

def cmdStreamModify : Cmd := { opcode := 0x0403, issuer := 'T', scope := 'T', least := 8, plan := planModify }

def execStreamModify (r : Req) (s : State) : Host.Outcome State Fault Refusal := runCmd cmdStreamModify r s

/-- Byte 147 of stream.query. -/
def streamState (st : Stream) : Nat :=
  if st.closing then 4 else if st.nextKey.isSome || st.newKey.isSome then 3 else if cDir st.cfg = 1 then (if st.tx.first then 0 else 1)
  else if st.rx.silent then 2 else if st.rx.active then 1 else 0

/-- stream.query and stream.stats need a mailbox with indirect support (04). -/
def indirectFails (c : Ctx) : List Fail := failIf (c.mb == 513) (.header 2)

/-- stream.query. A closing stream is still answered. -/
def queryFails (c : Ctx) (s : State) (k : Nat) : List Fail :=
  if 1 < c.u8 2 then [.field 2]
  else match tget s.streams k with
    | none => [missing s (.stream k) 0]
    | some st => failIf (st.tenant != c.tenant) (.field 0)

def planStreamQuery (c : Ctx) (s : State) : Plan :=
  let k := namedStream c
  let st := (tget s.streams k).getD default
  let cfg := if st.peerGone then patch st.cfg 34 (le2 0xFFFF) else st.cfg
  resultAt c 8 (indirectFails c ++ queryFails c s k)
    (fit 144 cfg ++ le2 ((st.key.map (·.keyId)).getD 0) ++ le1 ((st.key.map (·.cipher)).getD 0) ++ le1 (streamState st) ++ zb 108)

def cmdStreamQuery : Cmd := { opcode := 0x0404, issuer := 'T', scope := 'T', query := true, least := 16, plan := planStreamQuery }

def execStreamQuery (r : Req) (s : State) : Host.Outcome State Fault Refusal := runCmd cmdStreamQuery r s

/-- stream.key_set (04 R85, R86). -/
def planKeySet (c : Ctx) (s : State) : Plan :=
  let k := namedStream c
  let next := bit (c.u8 4) 0
  let st := tget s.streams k
  let has := ((st.map (fun x => x.key.isSome || x.newKey.isSome)).getD false)
  let second := next && has
  let new := keyOf c.p 0
  { fails := streamFails c s k ++ keyFails c.p 0
      ++ failIf ((st.map (fun x => !cKeyed x.cfg)).getD false) (.field 0)
      ++ failIf ((st.map (·.nextKey.isSome)).getD false) (.busy [])
      ++ (if second then quotaFails s c.tenant { keys := 1 } else [])
    touch := [.stream k]
    act := fun s =>
      let s := if second then charge s c.tenant { keys := 1 } else s
      (modStream s k (fun x =>
        if next then { x with nextKey := some (fld c.p 8 6, new), slots := if second then x.slots + 1 else x.slots } else { x with newKey := some new }),
        .ok []) }

def cmdKeySet : Cmd := { opcode := 0x0405, issuer := 'T', scope := 'T', ind := true, least := 64, plan := planKeySet }

def execStreamKeySet (r : Req) (s : State) : Host.Outcome State Fault Refusal := runCmd cmdKeySet r s

/-- Counter `i` of a stream. -/
def Stream.count (st : Stream) (i : Nat) : Nat := tgetD st.ctr i 0

/-- Counter `i` of a stream raised by `n`. -/
def Stream.bump (st : Stream) (i n : Nat) : Stream := { st with ctr := tset st.ctr i (inc48 (st.count i) n) }

/-- stream.stats: 29 counters. -/
def planStreamStats (c : Ctx) (s : State) : Plan :=
  let k := namedStream c
  let ctr := (((tget s.streams k).map (·.ctr)).getD [])
  resultAt c 8 (indirectFails c ++ queryFails c s k) ((List.range 29).flatMap (fun i => le8 (tgetD ctr i 0)))

def cmdStreamStats : Cmd := { opcode := 0x0406, issuer := 'T', scope := 'T', query := true, least := 16, plan := planStreamStats }

def execStreamStats (r : Req) (s : State) : Host.Outcome State Fault Refusal := runCmd cmdStreamStats r s

end Sys2Proof.Machine
end

