-- ==== Sys2Proof/Machine/Mix.lean ====
section
/-! DEFINITION. Chapter 06: buses, crosspoints, key binds, and the evaluation of a mix frame. -/
namespace Sys2Proof.Machine

/-- A tenant's bus, and its buses changed. -/
def busOf (s : State) (t lq : Nat) : Option Bus := tget (tenant s t).mix.buses lq
def modMix (s : State) (t : Nat) (f : Mix → Mix) : State := modTenant s t (fun x => { x with mix := f x.mix })
def modBus (s : State) (t lq : Nat) (f : Bus → Bus) : State := modMix s t (fun m => { m with buses := tmod m.buses lq f })

/-- The object of a bus. -/
def busObj (t lq : Nat) : Obj := .bus (t * 0x40000 + lq)

/-! ### Input references (06 R130) -/

/-- The reference at payload offset `o`. -/
def refAt (p : List Byte) (o : Nat) : InRef := ⟨fld p o 1, fld p (o + 4) 4, fld p (o + 1) 1⟩

/-- Whether a reference's reserved bytes are 0. -/
def refClean (p : List Byte) (o : Nat) : Bool := allZero (slice p (o + 2) 2)

/-- The order of references: (KIND, OBJECT, CH) (06 R140). -/
def refLt (a b : InRef) : Bool :=
  decide (a.kind < b.kind) || (a.kind == b.kind && (decide (a.obj < b.obj) || (a.obj == b.obj && decide (a.ch < b.ch))))

/-- The channels of a local input by its payload: the slots of RX_MASK, or the two subframes. -/
def lpInput (code : Nat) (cfg : List Byte) (ch : Nat) : Bool :=
  if cfg.isEmpty then false else if code < 0x20 then decide (ch < 32) && bit (fld cfg 12 4) ch else decide (code < 0x28 ∧ ch < 2)

/-- The channels of a ring's Pool channel group: the WIDTH of the bus its LINK names (log entry 22). -/
def groupWidth (s : State) (t link : Nat) : Option Nat := (tget (tenant s t).mix.buses link).map (·.width)

/-- A port given to another tenant keeps its configuration and status until the boundary of the one that had it (02 R38): the tenant at
whose boundaries they change. -/
def LpPort.owner (l : LpPort) : Nat := if l.prev = 0xFFFF then l.tenant else l.prev

/-- The configuration in force as far as it is the assigned tenant's. -/
def LpPort.base (l : LpPort) : List Byte := if l.prev = 0xFFFF then l.cfg else []

/-- The configuration a port has or is about to have. -/
def LpPort.conf (l : LpPort) : List Byte := l.next.getD l.base

/-- Whether a reference names a channel of an input that tenant `t` has. -/
def inputOk (s : State) (t : Nat) (r : InRef) : Bool :=
  match r.kind with
  | 0 => match tget s.streams r.obj with
    | some st => decide (r.obj < 65536) && st.tenant == t && !st.closing && decide (r.ch < cChannels st.cfg)
    | none => false
  | 1 => match tget s.lps r.obj with
    | some l => l.tenant == t && lpInput r.obj l.conf r.ch
    | none => false
  | 2 => match (findQ s t r.obj).bind (tget s.queues) with
    | some q =>
      let link := (q.context.map (·.link)).getD 0xFFFF
      q.typ == 5 && !q.destroy && link != 0xFFFF && decide (r.ch < (groupWidth s t link).getD 0)
    | none => false
  | 3 => match s.tasks.find? (fun e => e.2.tenant == t && e.2.outLq == r.obj && !e.2.closing) with
    | some e => decide (r.ch < e.2.channels)
    | none => false
  | 4 => match busOf s t r.obj with
    | some b => decide (r.ch < b.width)
    | none => false
  | _ => false

/-- Whether an input is late: a task output, or a channel of a LATE bus (06 R146). -/
def inputLate (s : State) (t : Nat) (r : InRef) : Bool := r.kind == 3 || (r.kind == 4 && ((busOf s t r.obj).map (·.late)).getD false)

/-- The failing conditions of an input for a bus of rank `rank`, at payload offset `o` (06 R130, R133, R146). -/
def inputFails (s : State) (t : Nat) (r : InRef) (clean : Bool) (rank : Nat) (late : Bool) (o : Nat) : List Fail :=
  failIf (!clean || !inputOk s t r || (r.kind == 4 && decide (rank ≤ ((busOf s t r.obj).map (·.rank)).getD 0)) || (inputLate s t r && !late)) (.field o)

/-! ### mix.bus_create and mix.bus_destroy -/

/-- mix.bus_create. -/
def planBusCreate (c : Ctx) (s : State) : Plan :=
  let t := c.tenant
  let x := tenant s t
  let minus := c.u8 0 == 1
  let p := if minus then (busOf s t (c.u32 12)).filter (fun b => !b.mixMinus) else none
  let width := c.u8 1
  let late := c.u8 3 == 1
  let ex := refAt c.p 16
  let cost := if minus then width * xpCost x (inputLate s t ex) else 0
  let differs := fun (f : Bus → Nat) (v : Nat) => match p with | some b => f b != v | none => false
  { fails := failIf (decide (1 < c.u8 0)) (.field 0)
      ++ failIf (!(decide (1 ≤ width) && decide (width ≤ 64)) || differs (·.width) width) (.field 1)
      ++ failIf (decide (3 < c.u8 2) || differs (·.rank) (c.u8 2)) (.field 2)
      ++ failIf (decide (1 < c.u8 3) || differs (fun b => b2n b.late) (c.u8 3)) (.field 3)
      ++ lqFails s t (c.u32 4) 4
      ++ failIf (if minus then p.isNone else c.u32 12 != 0xFFFFFFFF) (.field 12)
      ++ (if minus then failIf (!refClean c.p 16 || !inputOk s t ex) (.field 16) else failIf (!allZero (slice c.p 16 8)) (.field 16))
      ++ quotaFails s t { queues := 1, xp := cost }
    act := fun s =>
      let (s, q, lq) := newInternal s t (c.u32 4) 2 1 (c.u32 4 % 65536)
      let s := { s with queues := tmod s.queues q (fun y => { y with next := y.next.map (fun (z : QCtx) => { z with link := lq % 65536 }) }) }
      let b : Bus :=
        { lq := lq, q := q, mixMinus := minus, width := width, rank := c.u8 2, late := late, gOut := c.u16 8, ramp := c.u16 10, parent := c.u32 12, exclude := ex, charge := cost }
      let s := charge s t { xp := cost }
      (noteMade (modMix s t (fun m => { m with buses := tset m.buses lq b })) (busObj t lq), .ok (le4 lq ++ le4 q)) }

def cmdBusCreate : Cmd := { opcode := 0x0601, issuer := 'T', scope := 'T', least := 24, rsvd := [(24, 24)], plan := planBusCreate }

def execMixBusCreate (r : Req) (s : State) : Host.Outcome State Fault Refusal := runCmd cmdBusCreate r s

/-- The failing condition of an LQ at offset `o` that names no bus of the tenant. -/
def busFails (s : State) (t lq o : Nat) : List Fail := if (busOf s t lq).isSome then [] else [missing s (busObj t lq) o]

/-- The SOURCE of a local port's payload: its LQ (12 sai.config, aes.config). -/
def lpSource (code : Nat) (cfg : List Byte) : Nat :=
  if cfg.isEmpty then 0xFFFFFFFF else if code < 0x20 then fld cfg 20 4 else if 0x28 ≤ code then fld cfg 8 4 else 0xFFFFFFFF

/-- Whether a bus or task output queue has a consumer outside Pool: an STQ, a task, a local output, a host ring. -/
def hasConsumer (s : State) (t lq : Nat) (isBus : Bool) : Bool :=
  s.streams.any (fun e => decide (65536 ≤ e.1) && e.2.tenant == t && !e.2.closing && cSource e.2.cfg == lq)
    || s.lps.any (fun e => e.2.tenant == t && (lpSource e.1 e.2.base == lq || lpSource e.1 (e.2.next.getD []) == lq))
    || (isBus && s.tasks.any (fun e => e.2.tenant == t && !e.2.closing && ((e.2.input.kind == 4 && e.2.input.obj == lq) || (e.2.hasRef && e.2.ref.kind == 4 && e.2.ref.obj == lq))))
    || (isBus && s.queues.any (fun e => e.2.tenant == t && e.2.typ == 6 && !e.2.destroy && (e.2.context.map (·.link)) == some lq))

/-- Where a bus stands that is destroyed while it runs: behind every local index, which is free again. -/
def closingKey (lq : Nat) : Nat := 2 ^ 32 + lq

/-- mix.bus_destroy: queue and charges return at once; the bus runs to the end of its frame (06 R145). -/
def planBusDestroy (c : Ctx) (s : State) : Plan :=
  let t := c.tenant
  let lq := c.u32 0
  let used := (tenant s t).mix.buses.any (fun e => !e.2.closing && ((e.2.mixMinus && e.2.parent == lq) || e.2.xps.any (fun x => !x.gone && x.input.kind == 4 && x.input.obj == lq)))
  change (busFails s t lq 0 ++ failIf (used || hasConsumer s t lq true) (.conflict [])) [busObj t lq]
    (fun s =>
      match busOf s t lq with
      | none => s
      | some b =>
        let cost := b.charge + (b.xps.filter (fun y => !y.gone)).foldl (fun n y => n + xpCost (tenant s t) y.late) 0
        let s := refund (dropQueue s b.q) t { xp := cost }
        let s := modMix s t (fun m =>
          let bs := tdel m.buses lq
          { m with buses := if b.live then tset bs (closingKey lq) { b with closing := true } else bs })
        noteRemoved s (busObj t lq))

def cmdBusDestroy : Cmd := { opcode := 0x0602, issuer := 'T', scope := 'T', least := 4, plan := planBusDestroy }

def execMixBusDestroy (r : Req) (s : State) : Host.Outcome State Fault Refusal := runCmd cmdBusDestroy r s

/-! ### mix.bus_set -/

/-- One entry of mix.bus_set. -/
structure BusEntry where
  input  : InRef
  clean  : Bool
  ch     : Nat
  op     : Nat
  gain   : Nat
  ramp   : Nat
  zero   : Bool

/-- Entry `i` of the payload. -/
def busEntry (p : List Byte) (i : Nat) : BusEntry :=
  let o := 16 + 16 * i
  ⟨refAt p o, refClean p o, fld p (o + 8) 1, fld p (o + 9) 1, fld p (o + 10) 2, fld p (o + 12) 2, allZero (slice p (o + 14) 2)⟩

/-- The crosspoint of an input on a bus channel. -/
def xpAt (b : Bus) (r : InRef) (ch : Nat) : Option Xp := b.xps.find? (fun x => x.input == r && x.ch == ch && !x.gone)

/-- Crosspoints of a bus with a new one, in the order of 06 R140. -/
def insertXp (x : Xp) : List Xp → List Xp
  | [] => [x]
  | y :: ys => if refLt x.input y.input then x :: y :: ys else y :: insertXp x ys

/-- Set one crosspoint: what a command leaves for the next boundary. A new one starts at mute; a set on one that ramps out keeps
it (06 R150). -/
def putXp (b : Bus) (r : InRef) (ch code ramp : Nat) (remove late : Bool) : Bus :=
  if (xpAt b r ch).isSome then
    { b with xps := b.xps.map (fun (x : Xp) => if x.input == r && x.ch == ch && !x.gone then { x with next := some (code, ramp, remove) } else x) }
  else if remove then b
  else { b with xps := insertXp { input := r, ch := ch, next := some (code, ramp, false), late := late } b.xps }

/-- The failing conditions of entry `i`. -/
def entryFails (s : State) (t : Nat) (b : Bus) (i : Nat) (e : BusEntry) : List Fail :=
  let o := 16 + 16 * i
  let x := xpAt b e.input e.ch
  let going := (x.map (fun y => (y.removing && y.next.isNone) || (y.next.map (fun n => n.2.2)).getD false)).getD true
  inputFails s t e.input e.clean b.rank b.late o ++ failIf (decide (b.width ≤ e.ch)) (.field (o + 8)) ++ failIf (decide (1 < e.op)) (.field (o + 9))
    ++ failIf (!e.zero) (.field (o + 14)) ++ failIf ((x.map (fun y => y.bind.isSome)).getD false) (.conflict [])
    ++ failIf (e.op == 1 && going) (.conflict [])

/-- Two entries with the same INPUT and CH: the offset of the second. -/
def repeated (es : List (Nat × BusEntry)) : List Fail :=
  es.flatMap (fun e => failIf (es.any (fun f => decide (f.1 < e.1) && f.2.input == e.2.input && f.2.ch == e.2.ch)) (.field (16 + 16 * e.1)))

/-- The charge of the crosspoints the entries add. -/
def addedCost (s : State) (t : Nat) (b : Bus) (es : List BusEntry) : Nat :=
  es.foldl (fun n e => if e.op = 0 ∧ (xpAt b e.input e.ch).isNone then n + xpCost (tenant s t) (inputLate s t e.input) else n) 0

/-- mix.bus_set: all entries at one boundary or none (06 R150). -/
def planBusSet (c : Ctx) (s : State) : Plan :=
  let t := c.tenant
  let lq := c.u32 0
  let n := c.u32 4
  let b := (busOf s t lq).filter (fun b => !b.mixMinus)
  let es := (List.range (min n 65536)).map (fun i => (i, busEntry c.p i))
  { fails := failIf (c.len != 16 + 16 * n) .badLength ++ failIf b.isNone (missing s (busObj t lq) 0) ++ failIf (n == 0 || decide (65536 < n)) (.field 4)
      ++ (match b with
        | none => []
        | some b => es.flatMap (fun e => entryFails s t b e.1 e.2) ++ repeated es ++ quotaFails s t { xp := addedCost s t b (es.map (·.2)) })
    touch := [busObj t lq]
    act := fun s =>
      let cost := match b with | none => 0 | some b => addedCost s t b (es.map (·.2))
      let s := charge s t { xp := cost }
      (modBus s t lq (fun b => es.foldl (fun b e => putXp b e.2.input e.2.ch e.2.gain e.2.ramp (e.2.op == 1) (inputLate s t e.2.input)) b), .ok []) }

def cmdBusSet : Cmd := { opcode := 0x0603, issuer := 'T', scope := 'T', least := 16, rsvd := [(8, 8)], plan := planBusSet }

def execMixBusSet (r : Req) (s : State) : Host.Outcome State Fault Refusal := runCmd cmdBusSet r s

/-! ### mix.key_bind (06 R152) -/

/-- The delivered state of a key (11 R241 to R244). -/
def keyHeld (s : State) (src port node key : Nat) : Bool :=
  if src = 0 then bit (tgetD s.keys (256 * port + node) {}).delivered key else ((tget s.gpioKeys port).map (·.delivered)).getD false

/-- The binds a key has. -/
def keyBinds (s : State) (src port node key : Nat) : Nat :=
  s.tenants.foldl (fun n e => e.2.mix.buses.foldl (fun n e => n + (e.2.xps.filter (fun x =>
    match x.bind with | some k => k.src == src && k.port == port && k.node == node && k.key == key | none => false)).length) n) 0

/-- mix.key_bind. With MODE 0xFF the bind of this key on the named crosspoint ends; a crosspoint that this key does not drive is a
CONFLICT (DESIGN CHOICE, log entry 23). -/
def planKeyBind (c : Ctx) (s : State) : Plan :=
  let t := c.tenant
  let src := c.u8 0
  let (port, node, key) := (c.u8 1, c.u8 2, c.u8 3)
  let mode := c.u8 4
  let lq := c.u32 8
  let b := (busOf s t lq).filter (fun b => !b.mixMinus)
  let r := refAt c.p 16
  let x := b.bind (fun b => xpAt b r (c.u8 12))
  let mine := (x.map (fun y => match y.bind with | some k => k.src == src && k.port == port && k.node == node && k.key == key | none => false)).getD false
  let owned := if src = 0 then port < 16 ∧ (fldSoon s port).tenant = t else (tget s.gpioKeys port).map (·.tenant) = some t
  let unbind := mode == 0xFF
  let cost := if x.isNone then xpCost (tenant s t) (inputLate s t r) else 0
  { fails := failIf (decide (1 < src)) (.field 0) ++ failIf (!decide owned) (.field 1)
      ++ failIf (if src = 0 then node == 0 || node == 255 else node != 0) (.field 2)
      ++ failIf (if src = 0 then decide (15 < key) else key != 0) (.field 3) ++ failIf (decide (1 < mode) && !unbind) (.field 4)
      ++ failIf b.isNone (missing s (busObj t lq) 8) ++ failIf ((b.map (fun b => decide (b.width ≤ c.u8 12))).getD false) (.field 12)
      ++ (match b with | some b => inputFails s t r (refClean c.p 16) b.rank b.late 16 | none => [])
      ++ failIf (if unbind then !mine else (x.map (fun y => y.bind.isSome)).getD false || decide (16 ≤ keyBinds s src port node key)) (.conflict [])
      ++ (if unbind then [] else quotaFails s t { xp := cost })
    touch := [busObj t lq]
    act := fun s =>
      if unbind then
        (modBus s t lq (fun b => { b with xps := b.xps.map (fun (y : Xp) => if y.input == r && y.ch == c.u8 12 && !y.gone then { y with bind := none } else y) }), .ok [])
      else
        let on := mode == 0 && keyHeld s src port node key
        let k : KeyBind := ⟨src, port, node, key, mode == 1, c.u16 14, c.u16 24, c.u16 26, on⟩
        let s := charge s t { xp := cost }
        (modBus s t lq (fun b =>
          let b := putXp b r (c.u8 12) (if on then c.u16 14 else c.u16 24) (c.u16 26) false (inputLate s t r)
          { b with xps := b.xps.map (fun (y : Xp) => if y.input == r && y.ch == c.u8 12 && !y.gone then { y with bind := some k } else y) }), .ok []) }

def cmdKeyBind : Cmd :=
  { opcode := 0x0604, issuer := 'T', scope := 'T', least := 28, rsvd := [(5, 3), (13, 1), (28, 20)], plan := planKeyBind }

def execMixKeyBind (r : Req) (s : State) : Host.Outcome State Fault Refusal := runCmd cmdKeyBind r s

/-- A crosspoint after a change of its key: momentary follows the key, latch toggles on each press. -/
def keyedXp (src port node key : Nat) (held : Bool) (x : Xp) : Xp :=
  match x.bind with
  | none => x
  | some k =>
    if k.src = src ∧ k.port = port ∧ k.node = node ∧ k.key = key then
      let on := if k.latch then (if held then !k.on else k.on) else held
      if k.latch ∧ !held then x
      else { x with bind := some { k with on := on }, next := some (if on then k.gainOn else k.gainOff, k.ramp, false) }
    else x

/-- A change of a delivered key of owner `t` reaches Pool: the crosspoints it binds ramp from the next boundary (06 R152, 11 R230). -/
def keyToPool (s : State) (t src port node key : Nat) (held : Bool) : State :=
  { s with tenants := tmod s.tenants t (fun x => { x with mix := { x.mix with buses := tmap x.mix.buses (fun _ b => { b with xps := b.xps.map (keyedXp src port node key held) }) } }) }

/-! ### mix.config and mix.stats -/

/-- mix.config: PRIORITY is for managers (22 R395). -/
def planMixConfig (c : Ctx) (_ : State) : Plan :=
  let m := c.u8 0
  change (failIf (decide (4 ≤ m)) (.field 0) ++ failIf (bit m 1 && !c.mgr) .noPermission ++ failIf (bit m 0 && c.u16 2 == 0xFFFF) (.field 2)) []
    (fun s => modMix s c.tenant (fun x => { x with ramp := if bit m 0 then c.u16 2 else x.ramp, priority := if bit m 1 then c.u8 4 else x.priority }))

def cmdMixConfig : Cmd := { opcode := 0x0605, issuer := 'T', scope := 'T', least := 5, plan := planMixConfig }

def execMixConfig (r : Req) (s : State) : Host.Outcome State Fault Refusal := runCmd cmdMixConfig r s

/-- mix.stats. -/
def planMixStats (c : Ctx) (s : State) : Plan :=
  let t := c.tenant
  let x := tenant s t
  if c.u32 0 = 0xFFFFFFFF then resultAt c 8 [] (le8 x.mix.badSample ++ le8 x.mix.shedFrames ++ le8 x.use.xp)
  else
    let b := (busOf s t (c.u32 0)).getD default
    resultAt c 8 (busFails s t (c.u32 0) 0) (le8 b.clip ++ le8 b.clamp ++ le8 (b.xps.filter (fun x => !x.gone)).length)

def cmdMixStats : Cmd := { opcode := 0x0606, issuer := 'T', scope := 'T', query := true, least := 16, plan := planMixStats }

def execMixStats (r : Req) (s : State) : Host.Outcome State Fault Refusal := runCmd cmdMixStats r s

/-! ### What a boundary does to crosspoints (06 R138, R150, R151) -/

/-- RAMP of an entry: the bus default, and that of the tenant. -/
def rampOf (m : Mix) (b : Bus) (r : Nat) : Nat := if r ≠ 0xFFFF then r else if b.ramp ≠ 0xFFFF then b.ramp else m.ramp

/-- ramp_start (06 R138). -/
def rampStart (x : Xp) (target : F32) (len : Nat) : Xp :=
  if len = 0 then { x with g := target, left := 0, target := target }
  else { x with g0 := x.g, d := roundF false (fVal target - fVal x.g) len, k := 0, left := len, target := target }

/-- ramp_sample (06 R138). -/
def rampSample (x : Xp) : Xp :=
  if x.left = 0 then x
  else
    let k := x.k + 1
    { x with k := k, left := x.left - 1, g := if x.left = 1 then x.target else fma (ofScaled k 0) x.d x.g0 }

/-- A crosspoint at a boundary: what commands and keys have set for it begins. -/
def xpBoundary (m : Mix) (b : Bus) (x : Xp) : Xp :=
  match x.next with
  | none => x
  | some (code, ramp, rem) =>
    let x := { x with live := true, removing := rem, code := if rem then 0x8000 else code, next := none }
    rampStart x (gainF x.code) (rampOf m b ramp)

/-- The buses of a tenant at a boundary: closed ones go, new ones run, crosspoints of closed inputs go, but not before the task they
hear (`tasks` are the tasks left), and the rest take their new targets. -/
def busBoundary (tasks : Tbl Task) (m : Mix) : Mix :=
  let stays := fun (x : Xp) => !x.gone || ((x.task.map (thas tasks)).getD false)
  { m with buses := (m.buses.filter (fun e => !e.2.closing)).map (fun e =>
      (e.1, { e.2 with live := true, xps := (e.2.xps.filter stays).map (xpBoundary m e.2) })) }

/-- The crosspoints whose ramp to mute has ended are deleted, with their charge returned (06 R150). -/
def dropFaded (s : State) (t : Nat) : State :=
  let done := fun (y : Xp) => y.removing && y.left == 0 && y.next.isNone
  let cost := xpCharges (tenant s t) done
  refund (modMix s t (fun m => { m with buses := tmap m.buses (fun _ b => { b with xps := b.xps.filter (fun y => !done y) }) })) t { xp := cost }

/-! ### The evaluation of a frame (06 R131 to R142) -/

/-- A free sample within the limits of Pool, for a sum whose value the spec does not state (an infinity less an infinity).
(DESIGN CHOICE, log entry 76.) -/
def drawF (s : State) : F32 × State :=
  let (w, s) := draw s
  let x := w.toNat % 2 ^ 32
  let e := (x / 2 ^ 23) % 256
  (BitVec.ofNat 32 (if 151 ≤ e then x - (e - e % 128) * 2 ^ 23 else x), s)

/-- The captured channel of a slot: its place among the set bits of RX_MASK (12 R251). -/
def slotIndex (mask slot : Nat) : Nat := ((List.range slot).filter (bit mask)).length

/-- The samples of an input for the frame being closed: one list of channels per instant. -/
def inputFrame (s : State) (t : Nat) (r : InRef) : List (List F32) :=
  match r.kind with
  | 0 => ((tget s.streams r.obj).map (·.rx.out)).getD []
  | 1 => ((tget s.lps r.obj).map (·.out)).getD []
  | 2 => (((findQ s t r.obj).bind (tget s.queues)).map (·.frame)).getD []
  | 3 => ((liveTask s t r.obj).map (·.out)).getD []
  | _ => []

/-- The column of a reference in its object's instants; none for a slot that the port no longer captures. -/
def column (s : State) (r : InRef) : Option Nat :=
  if r.kind = 1 ∧ r.obj < 0x20 then
    let mask := fld ((tgetD s.lps r.obj {}).cfg) 12 4
    if bit mask r.ch then some (slotIndex mask r.ch) else none
  else some r.ch

/-- The frame of a crosspoint's input: that of the task it hears where the task is being unloaded. -/
def xpFrame (s : State) (t : Nat) (x : Xp) : List (List F32) :=
  match x.task with
  | some n => ((tget s.tasks n).map (·.out)).getD []
  | none => inputFrame s t x.input

/-- The samples of the input of one crosspoint, instant by instant; empty where it is a bus channel. -/
def inputSamples (s : State) (t : Nat) (x : Xp) : List F32 :=
  (xpFrame s t x).map (fun i => ((column s x.input).map (fun j => i.getD j 0)).getD 0)

/-- A bus in evaluation: its place among the tenant's buses, the bus, and the samples of each crosspoint's input for the instants still to
come. -/
structure BusRun where
  key  : Nat
  bus  : Bus
  ins  : List (List F32)
  outs : List (List F32) := []
  clamps : Nat := 0

/-- What one instant of a bus has given so far: its sums before G_OUT and its outputs. -/
structure BusVals where
  lq  : Nat
  sum : List F32
  out : List F32

/-- The input sample of a crosspoint at this instant. -/
def xpInput (vals : List BusVals) (x : Xp) (ins : List F32) : F32 :=
  if x.input.kind = 4 then ((vals.find? (fun v => v.lq == x.input.obj)).map (fun v => v.out.getD x.input.ch 0)).getD 0 else ins.headD 0

/-- The sum of one channel: fused multiply-adds in the order of references, late crosspoints after the others (06 R140, R146). -/
def channelSum (vals : List BusVals) (xs : List (Xp × List F32)) (ch : Nat) : F32 :=
  let mine := xs.filter (fun x => x.1.ch == ch && x.1.live)
  let ordered := mine.filter (fun x => !x.1.late) ++ mine.filter (fun x => x.1.late)
  ordered.foldl (fun acc x => fma x.1.g (xpInput vals x.1 x.2) acc) 0

/-- G_OUT and the limit of 06 R141; a NaN, whose value the spec does not state, is a free value. -/
def busOutput (s : State) (g : F32) (x : F32) : F32 × Bool × State :=
  let y := fMul g x
  if isNaN y then
    let (f, s) := drawF s
    (f, false, s)
  else
    let (z, c) := clamp24 y
    (z, c, s)

/-- The outputs of all channels of a bus, whether the limit was reached, and the free values drawn. -/
def busOutputs (g : F32) : List F32 → State → List F32 × Bool × State
  | [], s => ([], false, s)
  | x :: xs, s =>
    let (y, c, s) := busOutput s g x
    let (ys, d, s) := busOutputs g xs s
    (y :: ys, c || d, s)

/-- One instant of one bus: the ramps step, the sums are formed (a mix-minus bus takes its parent's sums less the excluded input's
product with the parent's own gain, 06 R135), the outputs are limited. -/
def busInstant (parents : List BusRun) (vals : List BusVals) (r : BusRun) (s : State) : BusRun × BusVals × State :=
  let b := { r.bus with xps := r.bus.xps.map rampSample }
  let xs := b.xps.zip r.ins
  let sums :=
    if b.mixMinus then
      let p := parents.find? (fun p => p.bus.lq == b.parent)
      let ps := ((vals.find? (fun v => v.lq == b.parent)).map (·.sum)).getD []
      (List.range b.width).map (fun c =>
        let sum := ps.getD c 0
        match p with
        | none => sum
        | some p =>
          match (p.bus.xps.zip p.ins).find? (fun x => x.1.input == b.exclude && x.1.ch == c && x.1.live) with
          | some x => fma (fNeg x.1.g) (xpInput vals x.1 x.2) sum
          | none => sum)
    else (List.range b.width).map (channelSum vals xs)
  let (out, clamped, s) := busOutputs (gainF b.gOut) sums s
  ({ r with bus := b, outs := r.outs ++ [out], clamps := r.clamps + b2n clamped }, ⟨b.lq, sums, out⟩, s)

/-- The inputs of a run moved on by one instant. -/
def BusRun.advance (r : BusRun) : BusRun := { r with ins := r.ins.map (·.drop 1) }

/-- One instant of all buses in rank order, a sum bus before the mix-minus buses of its rank (06 R133, R135). -/
def mixInstant : List BusRun → List BusRun → List BusVals → State → List BusRun × State
  | [], done, _, s => (done.map BusRun.advance, s)
  | r :: rs, done, vals, s =>
    let (r, v, s) := busInstant done vals r s
    mixInstant rs (done ++ [r]) (vals ++ [v]) s

/-- `n` instants. -/
def mixInstants : Nat → List BusRun → State → List BusRun × State
  | 0, rs, s => (rs, s)
  | n + 1, rs, s =>
    let (rs, s) := mixInstant rs [] [] s
    mixInstants n rs s

/-- The live buses of a tenant in evaluation order. -/
def busOrder (m : Mix) : List (Nat × Bus) :=
  let bs := m.buses.filter (fun e => e.2.live)
  (List.range 4).flatMap (fun r => bs.filter (fun e => e.2.rank == r && !e.2.mixMinus) ++ bs.filter (fun e => e.2.rank == r && e.2.mixMinus))

/-- The bits of the integer consumers of a bus: transmit streams, local outputs and host rings (06 R142, R143). -/
def consumerBits (s : State) (t lq : Nat) : List Nat :=
  let fmt := fun (f : Nat) => if f = 0 ∨ f = 5 then [16] else if f = 1 ∨ f = 6 then [24] else if f = 2 ∨ f = 7 then [32] else if f = 3 then [14] else if f = 4 then [13] else []
  s.streams.flatMap (fun e => if 65536 ≤ e.1 ∧ e.2.tenant = t ∧ e.2.live ∧ cSource e.2.cfg = lq then fmt (cFormat e.2.cfg) else [])
    ++ s.lps.flatMap (fun e => if e.2.tenant = t ∧ lpSource e.1 e.2.cfg = lq ∧ e.2.state = 3 then [if e.1 < 0x20 then fld e.2.cfg 4 1 else 24] else [])
    ++ s.queues.flatMap (fun e => match running e.2 with
      | some c => if e.2.tenant = t ∧ e.2.typ = 6 ∧ c.link = lq ∧ c.link ≠ 0xFFFF then (if c.sfmt = 0 then [24] else if c.sfmt = 2 then [16] else []) else []
      | none => [])

/-- The instants of a bus frame in which any consumer clips. -/
def clipCount (ns : List Nat) (out : List (List F32)) : Nat := (out.filter (fun i => i.any (fun x => ns.any (fun n => (toScaled x n).2)))).length

/-- A shed tenant's outputs: a fade of 16 samples, then zeros (06 R149). -/
def shedFrame (m : Mix) (out : List (List F32)) : List (List F32) :=
  if m.shed then out.mapIdx (fun i c => c.map (fun x => if m.faded + i < 15 then fScale x (15 - m.faded - i) 16 else 0)) else out

/-- A bus whose table was lost carries zeros after a fade of 16 samples, for one frame (18 R351). -/
def lostFrame (b : Bus) (out : List (List F32)) : List (List F32) :=
  if b.ue then out.mapIdx (fun i c => c.map (fun x => if i < 15 then fScale x (15 - i) 16 else 0)) else out

/-- The mix frame of tenant `t` that has just ended, over the inputs' samples of that frame: the outputs and counters of its
buses. `n` is its number of instants. -/
def mixFrame (t n : Nat) (s : State) : State :=
  let m := (tenant s t).mix
  let runs := (busOrder m).map (fun e => ({ key := e.1, bus := e.2, ins := e.2.xps.map (inputSamples s t) } : BusRun))
  let (runs, s) := mixInstants n runs s
  runs.foldl (fun s r =>
    let out := lostFrame r.bus (shedFrame m r.outs)
    let clips := clipCount (consumerBits s t r.bus.lq) out
    let due := clips != 0 && r.bus.clipAt != some (secs s)
    let b := { r.bus with out := out, clamp := inc48 r.bus.clamp r.clamps, clip := inc48 r.bus.clip clips, clipAt := if clips ≠ 0 then some (secs s) else r.bus.clipAt, ue := false }
    let s := modBus s t r.key (fun _ => b)
    if due then evT s t 0x601 r.bus.lq 0 0 else s) s

end Sys2Proof.Machine
end

