-- ==== Sys2Proof/Machine/Loop.lean ====
section
/-! DEFINITION. What the loops of 05 and 12 share: the estimator loop, and waiting for a time-base instant. -/
namespace Sys2Proof.Machine

/-- The limits of r: 1 +- 2 % with 44 fraction bits (05 R115). -/
def rLow : Int := 17240342323528
def rHigh : Int := 17944029765304

/-- The bandwidth an estimator runs at, in 0.01 Hz: 8 x BW, capped at 2 Hz, while it acquires (05 R115). -/
def Est.bandwidth (e : Est) : Nat := if e.acqLeft = 0 then e.bw else min 200 (8 * e.bw)

/-- `d` samples at `fs` x `r` in units of 2^-16 ns, rounded once (04 R89). -/
def rateTime (fs r : Nat) (d : Int) : Int := divEvenI (d * 1000000000 * (2 ^ 60 : Nat)) (fs * r)

/-- What an estimator of nominal rate `fs` takes from position `pos` arriving at `arr`: the error against its prediction, of which the minimum
of the window is kept (05 R115). -/
def Est.feed (e : Est) (fs pos arr : Nat) : Est :=
  let err := tdiff arr (tadd e.predTime (rateTime fs e.r ((pos : Int) - e.predPos)))
  { e with minErr := some (match e.minErr with | none => err | some m => min m err) }

/-- The anchor of the predictions moved up to time `now`, so that a change of r does not step them. -/
def Est.rebase (e : Est) (fs now : Nat) : Est :=
  let k := (tdiff now e.predTime * (fs * e.r : Nat) / (65536 * 1000000000 * 2 ^ 44 : Nat)).toNat
  { e with predPos := e.predPos + k, predTime := tadd e.predTime (rateTime fs e.r k) }

/-- Where an estimator that starts at `r` has its integrator (05 R115, 12 R258). -/
def Est.start (e : Est) (r : Int) : Est :=
  let r := clampI rLow rHigh r
  { e with r := r.toNat, integ := (r - 2 ^ 44) * (2 ^ 32 : Nat) }

/-- The end of an estimator window of `ms` (05 R115): the minimum of its errors (2^-16 ns) moves r by a loop of type 2 and damping 1 (for a
proportional gain K the integral gain is K^2 / 4), within 2 % of 1; a window without a packet leaves r and holds. Also whether r has just
come to the clamp. (DESIGN CHOICE for the rounding, log entry 107.) -/
def estLoop (e : Est) (ms : Nat) : Est × Bool :=
  let left := e.acqLeft - ms
  match e.minErr with
  | none => ({ e with state := 3, acqLeft := left }, false)
  | some err =>
    let g : Int := (Config.loopGain (10 * e.bandwidth)).toNat
    let lim := (rHigh - 2 ^ 44) * (2 ^ 32 : Nat)
    let integ := clampI (-lim) lim (e.integ - divEvenI (err * g * g * ms * (2 ^ 10 : Nat)) (65536 * 1000000000 * 1000))
    let r := 2 ^ 44 + divEvenI (integ - divEvenI (err * g * (2 ^ 44 : Nat)) (65536 * 1000000000)) (2 ^ 32)
    let held := decide (r < rLow ∨ rHigh < r)
    ({ e with r := (clampI rLow rHigh r).toNat, integ := integ, minErr := none, acqLeft := left, limited := held, state := if held then 4 else if left = 0 then 2 else 1 },
      held && !e.limited)

/-- Mere time advances to the instant at which time base `b` shows `time` (2^-16 ns modulo 2^48), if that lies ahead. -/
def advanceToTime (b time : Nat) (s : State) : State :=
  let d := tdiff time (tb s b).now
  if 0 < d ∧ (tb s b).inc ≠ 0 then advance ((d.toNat * 2 ^ 32 + (tb s b).inc - 1) / (tb s b).inc) s else s

end Sys2Proof.Machine
end

