-- ==== Sys2Proof/Machine/Time.lean ====
section
/-! DEFINITION. Chapter 13: time bases, their PTP instances, the calendar and scheduled events. -/
namespace Sys2Proof.Machine

/-! ### The calendar's arithmetic (13 R282) -/

/-- Whether 2000 + y is a leap year. -/
def leap (y : Nat) : Bool := y % 4 == 0 && (y % 100 != 0 || y % 400 == 0)

/-- The days of month `m` (1 to 12) of year `y`. -/
def monthDays (y m : Nat) : Nat := if m = 2 then (if leap y then 29 else 28) else if m = 4 ∨ m = 6 ∨ m = 9 ∨ m = 11 then 30 else 31

/-- Days from 2000-01-01 to the first of year `y`. -/
def yearDay (y : Nat) : Nat := 365 * y + (y + 3) / 4 - (y + 99) / 100 + (y + 399) / 400

/-- Days from the first of a year to the first of month `m`. -/
def monthDay (y m : Nat) : Nat := (range 1 m).foldl (fun n k => n + monthDays y k) 0

/-- Seconds from 2000-01-01 00:00:00. -/
def CalTime.secs (c : CalTime) : Nat :=
  (yearDay c.year + monthDay c.year c.month + (c.day - 1)) * 86400 + c.hour * 3600 + c.min * 60 + c.sec

/-- The weekday of a number of seconds since 2000-01-01, a Saturday: 0 Monday to 6 Sunday. -/
def weekday (n : Nat) : Nat := (n / 86400 + 5) % 7

/-- The next second; after 2999 the year is 0 again. -/
def CalTime.next (c : CalTime) : CalTime :=
  if c.sec < 59 then { c with sec := c.sec + 1 }
  else if c.min < 59 then { c with sec := 0, min := c.min + 1 }
  else if c.hour < 23 then { c with sec := 0, min := 0, hour := c.hour + 1 }
  else if c.day < monthDays c.year c.month then { c with sec := 0, min := 0, hour := 0, day := c.day + 1 }
  else if c.month < 12 then ⟨0, 0, 0, 1, c.month + 1, c.year⟩
  else ⟨0, 0, 0, 1, 1, (c.year + 1) % 1000⟩

/-- The fields of the CAL_SET layout. -/
def calOf (w : Nat) : CalTime := ⟨bits w 21 16, bits w 29 24, bits w 36 32, bits w 44 40, bits w 51 48, bits w 61 52⟩

/-- The CAL_TIME layout of a time, without SUBSEC. -/
def calBits (c : CalTime) : Nat :=
  c.sec * 2 ^ 16 + c.min * 2 ^ 24 + c.hour * 2 ^ 32 + c.day * 2 ^ 40 + c.month * 2 ^ 48 + c.year * 2 ^ 52

/-- Whether a date is possible (13 R283). -/
def CalTime.ok (c : CalTime) : Bool :=
  decide (c.sec ≤ 59) && decide (c.min ≤ 59) && decide (c.hour ≤ 23) && decide (1 ≤ c.month) && decide (c.month ≤ 12) && decide (1 ≤ c.day)
    && decide (c.day ≤ monthDays c.year c.month) && decide (c.year ≤ 999)

/-- The date of a number of days since 2000-01-01, found from year `y` on. -/
def dateFrom : Nat → Nat → Nat → Nat × Nat × Nat
  | 0, y, d => (y, 1, d + 1)
  | n + 1, y, d =>
    let len := if leap y then 366 else 365
    if len ≤ d then dateFrom n (y + 1) (d - len)
    else
      let m := ((range 1 13).filter (fun m => decide (monthDay y m ≤ d))).getLast?.getD 1
      (y, m, d - monthDay y m + 1)

/-- The date and time of a number of seconds since 2000-01-01 00:00:00. -/
def calFrom (n : Nat) : CalTime :=
  let (y, m, d) := dateFrom 1000 0 (n / 86400)
  ⟨n % 60, n / 60 % 60, n / 3600 % 24, d, m, y⟩

/-! ### Scheduled events (13 R284) -/

/-- Fields of an entry. -/
def Sched.trigger (e : Sched) : Nat := fld e.p 1 1
def Sched.rep (e : Sched) : Nat := fld e.p 2 1
def Sched.action (e : Sched) : Nat := fld e.p 3 1
def Sched.when (e : Sched) : Nat := fld e.p 4 8

/-- Whether the second `n` is an instant of a calendar entry. -/
def isInstant (e : Sched) (n : Nat) : Bool :=
  let w := (calOf e.when).secs
  decide (w ≤ n) && (match e.rep with
    | 0 => n == w
    | 1 => n % 86400 == w % 86400
    | 2 => n % 604800 == w % 604800
    | _ => n % 86400 == w % 86400 && decide (weekday n < 5))

/-- The instant of a calendar entry that lies in (a, b] and has not fired, if there is one: the latest. -/
def passedInstant (e : Sched) (a b : Nat) : Option Nat :=
  let w := (calOf e.when).secs
  let fresh := fun n => decide (a < n ∧ n ≤ b) && isInstant e n && (match e.last with | some l => decide (l < n) | none => true)
  if e.rep = 0 then (if fresh w then some w else none)
  else
    let day := fun k => (b + w % 86400 - b % 86400) - (if b % 86400 < w % 86400 then 86400 else 0) - 86400 * k
    ((List.range 8).map day).find? fresh

/-- The action of entry `i` on the device, and its result: 0, or CONFLICT (13 R284, 20 R387). -/
def schedAct (s : State) (e : Sched) : State × Nat :=
  match e.action with
  | 1 =>
    let r := refAt e.p 20
    let ch := fld e.p 16 1
    match (busOf s e.owner (fld e.p 12 4)).bind (fun b => if b.mixMinus then none else xpAt b r ch) with
    | none => (s, 0x0501)
    | some x =>
      if x.bind.isSome then (s, 0x0501)
      else (modBus s e.owner (fld e.p 12 4) (fun b => putXp b r ch (fld e.p 18 2) (fld e.p 28 2) false x.late), 0)
  | 2 =>
    let pin := fld e.p 17 1 % 32
    if thas s.gpioKeys pin then (s, 0x0501)
    else ({ s with gpio := { s.gpio with out := setBit s.gpio.out pin (bit (fld e.p 17 1) 7) } }, 0)
  | _ => (s, 0)

/-- An entry fires: its action, unless it only reports BUSY, the event, and a one-shot entry is freed (13 R284). -/
def schedShoot (s : State) (a : SchedShot) : State :=
  match tget s.sched a.entry with
  | none => s
  | some e =>
    let (s, st) := if a.idle then (s, 0x0401) else schedAct s e
    let s := if e.rep = 0 ∨ e.trigger = 1 then { s with sched := tdel s.sched a.entry }
      else { s with sched := tset s.sched a.entry { e with due := false, last := a.last } }
    evT s e.owner 0x903 a.entry st a.aux

/-- Entry `i` fires, and the active device of a pair names it in the values of its tenant's frame, of T0's for an entry of PF0; a standby
waits for these (13 R284). The firing is a wake event (19 R368). -/
def schedFire (s : State) (i aux : Nat) (idle : Bool) (at_ : Option Nat) : State :=
  match tget s.sched i with
  | none => s
  | some e =>
    if follows s then s
    else
      let a : SchedShot := ⟨i, aux, idle, at_⟩
      let t := if e.owner = 0xFFFF then 0 else e.owner
      schedShoot (wake (if thas s.tenants t then modTenant s t (fun x => { x with acted := x.acted ++ [a] }) else s)) a

/-- The entries of time base `t` that lie ahead of `old` by at most `off`: a forward step by `off` fires them (13 R284). -/
def schedStep (s : State) (t old : Nat) (off : Int) : State :=
  (s.sched.filter (fun e => e.2.trigger == 1 && e.2.when / 2 ^ 48 % 16 == t && decide (0 < tdiff (e.2.when % 2 ^ 48) old) && decide (tdiff (e.2.when % 2 ^ 48) old ≤ off))).foldl
    (fun s e => schedFire s e.1 1 false none) s

/-- An entry's instant arrives: the calendar has come to it, or its time base passes WHEN. -/
def schedArrive (i : Nat) (s : State) : State :=
  match tget s.sched i with
  | none => s
  | some e =>
    if e.trigger = 0 then (if e.due then schedFire s i 0 false (some s.cal.now.secs) else s)
    else schedFire (advanceToTime (e.when / 2 ^ 48 % 16) (e.when % 2 ^ 48) s) i 0 false none

def execSchedEntryFire (e : Nat) (s : State) : Host.Outcome State Fault Refusal := runBase s (schedArrive e)

/-- time.schedule. (DEDUCED, log entry 66.) -/
def planSchedule (c : Ctx) (s : State) : Plan :=
  let i := c.u8 0
  let t := c.tenant
  let act := c.u8 3
  let cancel := act == 0xFF
  let w := c.u64 4
  let mine := ((tget s.sched i).map (fun e => e.owner == t)).getD false
  let b := tb s (w / 2 ^ 48 % 16)
  let ahead := tdiff (w % 2 ^ 48) b.now
  let when := if c.u8 1 = 0 then !(calOf w).ok || w != calBits (calOf w)
    else decide (2 ^ 52 ≤ w) || decide (ahead < 65536 * 1000000) || decide (65536 * 2000000000 < ahead)
  let owned := (s.sched.filter (fun e => e.2.owner == t)).length
  let full := if i = 0xFF then decide (64 ≤ s.sched.length) else thas s.sched i
  { fails :=
      if cancel then failIf (!mine) (.field 0)
      else failIf (act == 2 && !c.mgr) .noPermission ++ failIf (decide (63 < i) && i != 0xFF) (.field 0) ++ failIf (decide (1 < c.u8 1)) (.field 1)
        ++ failIf (c.u8 1 == 0 && decide (3 < c.u8 2)) (.field 2) ++ failIf (decide (2 < act)) (.field 3) ++ failIf when (.field 4)
        ++ (if act = 1 then failIf (t == 0xFFFF) (.field 12) ++ failIf (!refClean c.p 20) (.field 20) ++ failIf (c.u16 28 == 0xFFFF) (.field 28) else [])
        ++ failIf (full || (t != 0xFFFF && decide (16 ≤ owned))) .noResource
    act := fun s =>
      if cancel then ({ s with sched := tdel s.sched i }, .ok (le1 i))
      else
        let (k, s) := if i = 0xFF then let (o, s) := pickFree s (s.sched.map (·.1)) 64; (o.getD 0, s) else (i, s)
        ({ s with sched := tset s.sched k { owner := t, p := fit 30 c.p } }, .ok (le1 k)) }

def cmdSchedule : Cmd := { opcode := 0x0906, issuer := 'T', scope := 'E', least := 30, rsvd := [(30, 18)], plan := planSchedule }

def execTimeSchedule (r : Req) (s : State) : Host.Outcome State Fault Refusal := runCmd cmdSchedule r s

/-! ### XB and the calendar registers (13 R282, R283) -/

/-- The calendar has come to a second: the entries whose instant it is are due. -/
def calDue (s : State) : State :=
  let n := s.cal.now.secs
  { s with sched := tmap s.sched (fun _ e => if e.trigger == 0 && isInstant e n && (match e.last with | some l => decide (l < n) | none => true) then { e with due := true } else e) }

/-- The calendar advances one second. -/
def xbSecond (s : State) : State :=
  let n := s.cal.now.next
  let wrapped := n.secs == 0
  let s := { s with cal := { s.cal with now := n, wday := weekday n.secs, wrap := s.cal.wrap || wrapped } }
  calDue (if wrapped then { s with sched := tmap s.sched (fun _ e => { e with last := none }) } else s)

/-- CAL_TRIM as a number. -/
def Cal.trimBy (c : Cal) : Int := sext 10 c.trim

/-- The XB cycles counted within the second after `n` more: CAL_TRIM adds or removes one in every 2^20 per unit (13 R282). (DESIGN CHOICE for
their spread, log entry 117.) -/
def Cal.counted (c : Cal) (n : Nat) : Nat := ((c.sub + n : Nat) + (c.trimAcc + n * c.trimBy) / (2 ^ 20 : Nat)).toNat

/-- `n` cycles of XB: the calendar advances at each that completes a second of 32,768. -/
def xbPass (n : Nat) (s : State) : State :=
  let k := s.cal.counted n
  let s := { s with cal := { s.cal with sub := k % 32768, trimAcc := (s.cal.trimAcc + n * s.cal.trimBy) % (2 ^ 20 : Nat) } }
  (List.range (k / 32768)).foldl (fun s _ => xbSecond s) s

def execXbStop (s : State) : Host.Outcome State Fault Refusal := run s (fun s => { s with cal := { s.cal with xbStop := true, valid := false } })

/-- A write of CAL_CTRL: CAL_TRIM, and COMMIT, which waits for the next XB edge (20 R378). -/
def execCalCommitWrite (val : BitVec 32) (s : State) : Host.Outcome State Fault Refusal :=
  let v := val.toNat
  if bits v 15 1 ≠ 0 ∨ bits v 31 26 ≠ 0 then .fault (.reservedTestControl 0x063010)
  else runBase s (fun s => { s with cal := { s.cal with trim := bits v 25 16, pending := s.cal.pending || bit v 0, syncAt := if bit v 0 then none else s.cal.syncAt } })

/-- The next XB rising edge after a commit: the staged date is checked and loaded or refused; a load clears SUBSEC, and a tick due at this
edge is not applied; a forward move fires or reports the entries it passes (13 R283, R284). -/
def calLoad (s : State) : State :=
  if !s.cal.pending then s
  else
    let s := match s.cal.syncAt with | some (t, x) => advanceToTime t x s | none => s
    let c := calOf s.cal.set
    let s := { s with cal := { s.cal with pending := false, syncAt := none } }
    if !c.ok then xbPass 1 { s with cal := { s.cal with dateErr := true } }
    else
      let old := s.cal.now.secs
      let new := c.secs
      let s := { s with cal := { s.cal with now := c, sub := 0, valid := true, wday := weekday new } }
      let hit := s.sched.filterMap (fun e => if e.2.trigger = 0 then (passedInstant e.2 old new).map (fun n => (e.1, n)) else none)
      if new ≤ old then calDue s
      else hit.foldl (fun s e => if new ≤ old + 3600 then schedFire s e.1 1 false (some e.2) else schedFire s e.1 0 true (some e.2)) s

def execCalLoad (s : State) : Host.Outcome State Fault Refusal := run s calLoad

/-- `n` cycles of XB pass; a commit that waits takes effect at the first of them. The calendar counts again when XB returns. -/
def xbTick (n : Nat) (s : State) : State := if s.cal.pending && s.cal.syncAt.isNone then xbPass (n - 1) (calLoad s) else xbPass n s

def execXbTick (cycles : Nat) (s : State) : Host.Outcome State Fault Refusal := run s (xbTick cycles)

/-- Seconds from the PTP epoch to 2000-01-01. -/
def epoch2000 : Int := 946684800

/-- time.cal_sync: the calendar takes the next whole second of the time base's UTC, with the local offset. -/
def planCalSync (c : Ctx) (s : State) : Plan :=
  let t := c.u8 0
  let b := tb s t
  change (failIf (decide (15 < t)) (.field 0) ++ failIf (decide (t ≤ 15) && !b.valid) .notReady) []
    (fun s =>
      let b := tb s t
      let unit : Int := 1000000000 * (2 ^ 48 : Nat)
      let next := b.full / unit + 1
      let at_ := tadd b.now (divEvenI (next * unit - b.full) (2 ^ 32))
      let cal := next - b.utcOff - epoch2000 + sext 32 (c.u32 4)
      let w := if cal < 0 ∨ 1000 * 366 * 86400 ≤ cal then 0 else calBits (calFrom cal.toNat)
      { s with cal := { s.cal with set := w, pending := true, syncAt := some (t, at_) } })

def cmdCalSync : Cmd := { opcode := 0x0905, issuer := 'M', scope := 'D', least := 8, plan := planCalSync }

def execTimeCalSync (r : Req) (s : State) : Host.Outcome State Fault Refusal := runCmd cmdCalSync r s

/-! ### Time bases (13 R276 to R280) -/

/-- Whether a time base is a candidate of Stillwater: it stands in PRIORITY, in force or staged. -/
def tbCandidate (s : State) (t : Nat) : Bool :=
  s.refs.priority.contains t || ((s.refs.staged.map (fun c => (((List.range 16).map (fun i => fld c (16 + i) 1)).takeWhile (· != 0xFF)).contains t)).getD false)

/-- time.tb_config. -/
def planTbConfig (c : Ctx) (s : State) : Plan :=
  let t := c.u8 0
  let m := c.u8 1
  let pr := c.u8 2
  let ports := c.u32 4
  change (failIf (decide (15 < t)) (.field 0) ++ failIf (decide (3 < m)) (.field 1) ++ failIf ((decide (4 < pr) && pr != 0xFF) || (m == 1 && pr == 0xFF)) (.field 2)
      ++ failIf (decide (127 < c.u8 3)) (.field 3) ++ failIf (decide (2 ^ 24 ≤ ports)) (.field 4)
      ++ failIf (decide (4 ≤ c.u8 8) || (bit (c.u8 8) 1 && m != 1)) (.field 8) ++ failIf (decide (1000000 < c.u32 12)) (.field 12)
      ++ failIf (pr != 0xFF && s.tbs.any (fun e => e.1 != t && e.2.profile != 0xFF && e.2.domain == c.u8 3 && (e.2.ports &&& ports) != 0)) (.conflict [])
      ++ failIf (m == 3 && tbCandidate s t) (.conflict []))
    []
    (fun s => modTb s t (fun b =>
      let new := b.mode != m
      { b with
        mode := m, profile := pr, domain := c.u8 3, ports := ports, flags := c.u8 8, prio1 := c.u8 9, prio2 := c.u8 10
        stepThr := if c.u32 12 = 0 then 1000 else c.u32 12
        adj := if new ∧ (m = 0 ∨ m = 3) then 0 else b.adj, slew := if new ∧ m ≠ 2 then 0 else b.slew
        locked := b.locked && !new, holdover := b.holdover && !new, forced := b.forced && !new, refused := b.refused && !new
        hist := if new then [] else b.hist
        ptp := if new ∨ b.profile ≠ pr ∨ b.domain ≠ c.u8 3 then [] else b.ptp.filter (fun e => bit ports e.1) }))

def cmdTbConfig : Cmd := { opcode := 0x0901, issuer := 'M', scope := 'D', least := 16, rsvd := [(11, 1), (16, 32)], plan := planTbConfig }

def execTimeTbConfig (r : Req) (s : State) : Host.Outcome State Fault Refusal := runCmd cmdTbConfig r s

/-- A step of time base `t` by `off` (2^-16 ns): it cancels a slew, sets VALID and STEPPED, and fires the entries it passes
(13 R279, R280, R284). -/
def tbStep (s : State) (t : Nat) (off : Int) : State :=
  let old := (tb s t).now
  let s := modTb s t (fun b => { b with
    val := (((b.val : Int) + off * (2 ^ 32 : Nat)) % (2 ^ 80 : Nat)).toNat, slew := 0, stepped := true, valid := true
    ptp := tmap b.ptp (fun _ q => { q with pend := none, sync := none, request := none, answer := none }) })
  let s := evD s 0x901 t 0 0
  if 0 < off then schedStep s t old off else s

/-- A slew given while another runs is added to what is left of it (13 R279). -/
def tbSlew (s : State) (t rate : Nat) (off : Int) : State :=
  modTb s t (fun b => { b with slew := b.slew + off * (2 ^ 32 : Nat), slewRate := if rate = 0 then 100 else rate })

/-- Whether a step is refused: VALID, and above STEP_THRESH (13 R280). -/
def stepRefused (b : TimeBase) (off : Int) : Bool := b.valid && decide (b.stepThr * 1000 * 65536 < off.natAbs)

/-- time.adjust. -/
def planAdjust (c : Ctx) (s : State) : Plan :=
  let t := c.u8 0
  let op := c.u8 1
  let b := tb s t
  let off := sext 64 (c.u64 8)
  let freq := sext 32 (c.u32 4)
  let tooFar := op == 2 && stepRefused b off && !c.force
  let bad := if b.mode = 1 then !(op == 2 && c.force && off == 0) else if b.mode = 2 then tooFar else op != 2 || tooFar
  { fails := failIf (decide (15 < t)) (.field 0) ++ failIf (decide (2 < op)) (.field 1) ++ failIf (op == 1 && decide (1000 < c.u16 2)) (.field 2)
      ++ failIf (op == 0 && decide (256000000 < freq.natAbs)) (.field 4) ++ failIf bad (.conflict [])
    onConflict := fun s => if b.mode ≠ 1 ∧ tooFar then evD (modTb s t (fun b => { b with stepRef := true })) 0x902 t 0 0 else s
    act := fun s =>
      let b := tb s t
      if b.mode = 1 then (modTb s t (fun b => { b with forced := true }), .ok [])
      else match op with
        | 0 => (modTb s t (fun b => { b with adj := freq }), .ok [])
        | 1 => (tbSlew s t (c.u16 2) off, .ok [])
        | _ => (tbStep s t off, .ok (le8 (toBits 64 (divTrunc b.slew (2 ^ 32))))) }

def cmdAdjust : Cmd := { opcode := 0x0902, issuer := 'M', scope := 'D', least := 16, rsvd := [(16, 32)], plan := planAdjust }

def execTimeAdjust (r : Req) (s : State) : Host.Outcome State Fault Refusal := runCmd cmdAdjust r s

/-- TB_STATUS[15:0] (13). -/
def tbStatus (b : TimeBase) : Nat :=
  b.mode + 4 * b2n b.valid + 8 * b2n b.locked + 16 * b2n b.holdover + 32 * b2n b.stepRef + 64 * b2n b.stepped + 128 * b2n (b.slew != 0) + 256 * b2n b.utcKnown

/-- time.query. -/
def planTimeQuery (c : Ctx) (s : State) : Plan :=
  let b := tb s (c.u8 0)
  answer (failIf (decide (15 < c.u8 0)) (.field 0))
    (le6 b.now ++ le2 (toBits 16 b.utcOff) ++ le6 (toBits 48 (b.full / (1000000000 * (2 ^ 48 : Nat)))) ++ le2 (tbStatus b) ++ le4 (toBits 32 b.adj))

def cmdTimeQuery : Cmd := { opcode := 0x0903, issuer := 'T', scope := 'E', query := true, least := 1, plan := planTimeQuery }

def execTimeQuery (r : Req) (s : State) : Host.Outcome State Fault Refusal := runCmd cmdTimeQuery r s

/-- A running slew comes to its end: Mere time advances to it. -/
def slewDone (t : Nat) (s : State) : State :=
  let b := tb s t
  let per := ((b.inc : Int) - effInc b.adj).natAbs
  if b.slew = 0 ∨ per = 0 then s else advance ((b.slew.natAbs + per - 1) / per) s

def execTbSlewDone (t : Nat) (s : State) : Host.Outcome State Fault Refusal := run s (slewDone t)

/-- Sundique writes an anchor: the full time of the present instant, as it knows it (13 R274). -/
def tbAnchor (t sec ns : Nat) (s : State) : State :=
  if 15 < t then s
  else modTb s t (fun b => { b with sec := sec % 2 ^ 48, ns := ns % 1000000000, gen := (b.gen + 1) % 256, low := b.val / 2 ^ 48, anchorAt := some s.mere })

def execTbAnchorWrite (t sec ns : Nat) (s : State) : Host.Outcome State Fault Refusal := runBase s (tbAnchor t sec ns)

end Sys2Proof.Machine
end

