-- ==== Sys2Proof/Machine/Ptp.lean ====
section
/-! DEFINITION. Chapter 13: captures of frames, and the PTP instances that Sundique runs on the ports (R273, R276 to R278, R281), as IEEE 1588
has them where the spec names it. -/
namespace Sys2Proof.Machine

/-! ### Stamps (13 R273, R281) -/

/-- The raw time of a capture in time base `t`, in units of 2^-16 ns: the present Mere cycle and its eighths. -/
def rawStamp (s : State) (t eighth : Nat) : Nat := ((tb s t).val + (eighth % 8) * (tb s t).inc / 8) / 2 ^ 32 % 2 ^ 48

/-- A number of picoseconds in units of 2^-16 ns. -/
def psUnits (d : Int) : Int := divEvenI (d * 65536) 1000

/-- What is added to a raw capture of timestamp port `p`: received, and sent. -/
def corrIn (s : State) (p : Nat) : Int := let q := tgetD s.tsPorts p {}; psUnits (-((q.corrIn : Int) + sext 32 q.asymIn))
def corrOut (s : State) (p : Nat) : Int := let q := tgetD s.tsPorts p {}; psUnits ((q.corrOut : Int) + sext 32 q.asymOut)

/-- A corrected ingress timestamp of timestamp port `p`. -/
def ingressStamp (s : State) (p t eighth : Nat) : Nat := tadd (rawStamp s t eighth) (corrIn s p)

/-- The stamp of a ring entry of port `p`, in its DEF_TB: raw where TS_CTRL.RAW is set. -/
def ringStamp (s : State) (p eighth : Nat) : Nat × Nat :=
  let q := tgetD s.tsPorts p {}
  (if q.raw then rawStamp s q.defTb eighth else ingressStamp s p q.defTb eighth, q.defTb)

/-- The full time of a capture in time base `t`, in units of 2^-16 ns. -/
def fullStamp (s : State) (t eighth : Nat) : Int := ((tb s t).full + ((eighth % 8) * (tb s t).inc / 8 : Nat)) / (2 ^ 32 : Nat)

/-- A full time as a PTP timestamp, whole nanoseconds; and the time a timestamp or a correctionField gives. -/
def putStamp (z : Int) : List Byte :=
  let ns := z / 65536
  putBe 6 (toBits 48 (ns / 1000000000)) ++ putBe 4 (ns % 1000000000).toNat
def getStamp (m : List Byte) (o : Nat) : Int := ((fldBe m o 6 * 1000000000 + fldBe m (o + 6) 4 : Nat) : Int) * 65536
def getCorr (m : List Byte) : Int := sext 64 (fldBe m 8 8)

/-! ### Datagrams -/

/-- The Ethernet destination of an address: the multicast mapping, or the next hop. -/
def dstMac (v6 : Bool) (dst nextHop : List Byte) : List Byte :=
  if v6 then (if fld dst 0 1 = 0xFF then [0x33, 0x33] ++ dst.drop 12 else nextHop)
  else if 224 ≤ fld dst 12 1 ∧ fld dst 12 1 < 240 then [0x01, 0x00, 0x5E] ++ le1 (fld dst 13 1 % 128) ++ dst.drop 14 else nextHop

/-- A UDP datagram with its checksum, which is always computed. (DESIGN CHOICE, log entry 74.) -/
def udpBytes (src dst : List Byte) (sport dport : Nat) (data : List Byte) : List Byte :=
  let n := 8 + data.length
  let h := putBe 2 sport ++ putBe 2 dport ++ putBe 2 n
  let sum := inetSum (src ++ dst ++ putBe 2 17 ++ putBe 2 n ++ h ++ [0, 0] ++ data)
  h ++ putBe 2 (if sum = 0 then 0xFFFF else sum) ++ data

/-! ### The instance and its clock -/

/-- The timestamp port and the MAC address behind a bit of PORTS. -/
def tsPortOf (k : Nat) : Nat := if k < 8 then k else 8 + k
def ptpMac (s : State) (k : Nat) : List Byte := if k < 8 then (tgetD s.netPorts k {}).mac else (tgetD s.fld (k - 8) {}).mac

/-- Whether a profile measures the delay to its peers (R277). -/
def peerDelay (profile : Nat) : Bool := profile == 1 || profile == 2

/-- The transports of a profile (R277): 0 Ethernet, 1 UDP/IPv4, 2 UDP/IPv6. -/
def ptpTransports (profile : Nat) : List Nat := if profile ≤ 1 then [0, 1, 2] else if profile = 2 then [0] else [1, 2]

/-- The identity of the instance of time base `t` on a port. -/
def portIdentity (t k : Nat) : List Byte := (List.finRange 8).map (Config.ptpIdentity t) ++ putBe 2 (k + 1)

/-- The instance's own clock data. -/
def ownClock (b : TimeBase) (t : Nat) : PtpClock :=
  let (c, a, v, _) := Config.ptpQuality t (tbStatus b)
  ⟨b.prio1, c.toNat, a.toNat, v.toNat, b.prio2, (portIdentity t 0).take 8, 0, portIdentity t 0⟩

/-- The order of the best master algorithm: the smaller number is the better clock. -/
def PtpClock.rank (c : PtpClock) : Nat :=
  beNat (le1 c.prio1 ++ le1 c.cls ++ le1 c.acc ++ putBe 2 c.var ++ le1 c.prio2 ++ fit 8 c.gm ++ putBe 2 c.steps ++ fit 10 c.sender)

/-- The interval of a message of the profile, and its logMessageInterval. -/
def ptpEvery (profile kind : Nat) : Nat := max 1 (1000 * 2 ^ (Config.ptpInterval profile kind).val / 128)
def ptpLog (profile kind : Nat) : List Byte := le1 (((Config.ptpInterval profile kind).val + 249) % 256)

/-- The best master any port of the instance hears, with that port. -/
def bestMaster (b : TimeBase) : Option (Nat × PtpClock) :=
  b.ptp.foldl (fun m e => match e.2.best, m with
    | none, _ => m
    | some c, none => some (e.1, c)
    | some c, some (k, d) => if c.rank < d.rank then some (e.1, c) else some (k, d)) none

/-- The state of a port under the best master algorithm (R277): in mode 1 any, else master or passive, and with SLAVE_ONLY slave or
listening. A port that has heard nobody listens before it is a master. -/
def ptpState (b : TimeBase) (t k : Nat) (q : PtpPort) : Nat :=
  let own := ownClock b t
  let best := bestMaster b
  let mine := match best with | some (j, _) => j == k | none => false
  if bit b.flags 1 then (if mine then 3 else 0)
  else match q.best, best with
    | some c, some (_, d) =>
      if b.mode ≠ 1 ∨ own.cls < 128 then (if own.rank < c.rank then 1 else 2)
      else if own.rank < d.rank then 1
      else if mine then 3
      else if c.gm == d.gm then 2 else 1
    | _, _ => if q.wait ≠ 0 then 0 else 1

/-- The ports of the instance of time base `t` take the states that what they hear gives them. -/
def ptpDecide (s : State) (t : Nat) : State :=
  modTb s t (fun b => { b with ptp := tmap b.ptp (fun k q =>
    let n := ptpState b t k q
    if n = 3 ∧ q.state = 3 then q else { q with state := n, pend := none, sync := none, delay := if peerDelay b.profile then q.delay else 0 }) })

def modPtp (s : State) (t k : Nat) (f : PtpPort → PtpPort) : State := modTb s t (fun b => { b with ptp := tmod b.ptp k f })

/-! ### Messages -/

/-- A message of the instance of time base `t`: `corr` is its correctionField, `flags` its two flag bytes, `log` its interval. -/
def ptpMsg (b : TimeBase) (t k kind : Nat) (flags corr : List Byte) (seq : Nat) (log body : List Byte) : List Byte :=
  let ctl := match kind with | 0 => 0 | 1 => 1 | 8 => 2 | 9 => 3 | _ => 5
  le1 (kind + (if b.profile = 2 then 16 else 0)) ++ [0x12] ++ putBe 2 (34 + body.length) ++ le1 b.domain ++ [0] ++ flags ++ corr ++ zb 4
    ++ portIdentity t k ++ putBe 2 seq ++ le1 ctl ++ log ++ body

/-- The frame that carries a message on transport `tr`. Event messages go in class 7, the rest in class 4 (10 R222); the checksum of UDP over
IPv4 is left out, since R278 updates it for IPv6 alone. -/
def ptpFrame (s : State) (t k tr : Nat) (m : List Byte) (follow : Bool) : TxHeld :=
  let kind := fld m 0 1 % 16
  let event := decide (kind ≤ 3)
  let pdelay := kind == 2 || kind == 3 || kind == 10
  let port := if event then 319 else 320
  let mac := ptpMac s k
  let dscp := (Config.ptpDscp (tb s t).profile).toNat
  let addr := fun (v6 : Bool) => (List.finRange 16).map (Config.portAddress (tsPortOf k) v6)
  let head := match tr with
    | 0 => (if pdelay ∨ (tb s t).profile = 2 then [0x01, 0x80, 0xC2, 0, 0, 0x0E] else [0x01, 0x1B, 0x19, 0, 0, 0]) ++ mac ++ putBe 2 0x88F7
    | 1 =>
      let src := (addr false).drop 12
      let dst : List Byte := if pdelay then [224, 0, 0, 107] else [224, 0, 1, 129]
      let h := [0x45] ++ le1 (dscp * 4) ++ putBe 2 (28 + m.length) ++ [0, 0, 0x40, 0, if pdelay then 1 else 64, 17]
      dstMac false (zb 12 ++ dst) [] ++ mac ++ putBe 2 0x0800 ++ h ++ putBe 2 (inetSum (h ++ [0, 0] ++ src ++ dst)) ++ src ++ dst
        ++ putBe 2 port ++ putBe 2 port ++ putBe 2 (8 + m.length) ++ [0, 0]
    | _ =>
      let src := addr true
      let dst : List Byte := if pdelay then [0xFF, 0x02] ++ zb 13 ++ [0x6B] else [0xFF, 0x0E] ++ zb 12 ++ [0x01, 0x81]
      dstMac true dst [] ++ mac ++ putBe 2 0x86DD ++ putBe 4 (0x60000000 + dscp * 2 ^ 22) ++ putBe 2 (8 + m.length) ++ [17, if pdelay then 1 else 64]
        ++ src ++ dst ++ (udpBytes src dst port port m).take 8
  { cls := if event then 7 else 4, bytes := head ++ m, ptp := if event then some (t, head.length) else none, follow := follow }

/-- The transport a port's instance sends on: the one its peers were last heard on, else the first of its profile. (DESIGN CHOICE, log
entry 30.) -/
def ptpTr (b : TimeBase) (q : PtpPort) : Nat := q.transport.getD ((ptpTransports b.profile).headD 0)

def twoStep (b : TimeBase) : Bool := bit b.flags 0

/-- Flags of a message that a two-step port follows up. -/
def eventFlags (b : TimeBase) : List Byte := [if twoStep b then 2 else 0, 0]

/-- The Announce of a port: the parent's data on a boundary clock that has one, else the instance's own, with the UTC offset of time.query
(R277). -/
def announceMsg (b : TimeBase) (t k seq : Nat) : List Byte :=
  let g := match b.ptp.find? (fun e => e.2.state == 3) with
    | some e => (e.2.best.map (fun (c : PtpClock) => { c with steps := c.steps + 1 })).getD (ownClock b t)
    | none => ownClock b t
  let (_, _, _, src) := Config.ptpQuality t (tbStatus b)
  ptpMsg b t k 11 [0, if b.utcKnown then 12 else 8] (zb 8) seq (ptpLog b.profile 11)
    (zb 10 ++ putBe 2 (toBits 16 b.utcOff) ++ [0] ++ le1 g.prio1 ++ le1 g.cls ++ le1 g.acc ++ putBe 2 g.var ++ le1 g.prio2 ++ fit 8 g.gm ++ putBe 2 g.steps ++ [src])

/-- What a port sends at a millisecond (R277): a master its Announce and Sync, a slave with end-to-end delay its request, every port of a
peer-to-peer profile its own. -/
def ptpDue (s : State) (t k : Nat) : State × List TxHeld :=
  match tget (tb s t).ptp k with
  | none => (s, [])
  | some q =>
    let b := tb s t
    let go := fun (m : List Byte) => [ptpFrame s t k (ptpTr b q) m false]
    let master := q.state == 1
    let asks := peerDelay b.profile || q.state == 3
    let req := if peerDelay b.profile then 2 else 1
    let ann := master && q.annLeft == 0
    let syn := master && q.syncLeft == 0
    let rq := asks && q.reqLeft == 0
    let next := fun (on : Bool) (left every : Nat) => if on then every - 1 else left - 1
    (modPtp s t k (fun q => { q with
        annLeft := next ann q.annLeft (ptpEvery b.profile 11), syncLeft := next syn q.syncLeft (ptpEvery b.profile 0)
        reqLeft := next rq q.reqLeft (ptpEvery b.profile 1), annSeq := (q.annSeq + b2n ann) % 65536, syncSeq := (q.syncSeq + b2n syn) % 65536
        reqSeq := (q.reqSeq + b2n rq) % 65536 }),
      (if syn then go (ptpMsg b t k 0 (eventFlags b) (zb 8) q.syncSeq (ptpLog b.profile 0) (zb 10)) else [])
        ++ (if rq then go (ptpMsg b t k req [0, 0] (zb 8) q.reqSeq [0x7F] (zb (if req = 2 then 20 else 10))) else [])
        ++ (if ann then go (announceMsg b t k q.annSeq) else []))

/-- A millisecond on one port of an instance: listening and what was heard run out (three Announce intervals; a slave's master is lost by
PTP_MASTER_LOSS), then what is due. -/
def ptpPortTick (s : State) (t k : Nat) : State × List TxHeld :=
  let b := tb s t
  let s := if thas b.ptp k then s else modTb s t (fun b => { b with ptp := tset b.ptp k { wait := 3 * ptpEvery b.profile 11 } })
  let s := modPtp s t k (fun q =>
    let gone := q.best.isSome && q.state != 3 && q.bestLeft ≤ 1
    { q with wait := q.wait - 1, bestLeft := q.bestLeft - 1, best := if gone then none else q.best })
  ptpDue (ptpDecide s t) t k

/-- A millisecond of Sundique's instances on the ports `up` says have their link: the frames to send, each with its port (13 R277). -/
def ptpTick (s : State) (up : Nat → Bool) : State × List (Nat × TxHeld) :=
  (s.tbs.filter (fun e => e.2.profile != 0xFF)).foldl (fun (s, out) e =>
    ((List.range 24).filter (fun k => bit e.2.ports k && up k)).foldl (fun (s, out) k =>
      let (s, fs) := ptpPortTick s e.1 k
      (s, out ++ fs.map (k, ·))) (s, out)) (s, [])

/-! ### Sending (13 R278, R281) -/

/-- The checksum of the UDP datagram over IPv6 whose data begin at `o`, formed again. -/
def ptpResum (b : List Byte) (o : Nat) : List Byte :=
  if fldBe b 12 2 = 0x86DD then
    b.take (o - 8) ++ udpBytes (slice b (o - 40) 16) (slice b (o - 24) 16) (fldBe b (o - 8) 2) (fldBe b (o - 6) 2) (b.drop o)
  else b

/-- A PTP event message as it leaves port `k` at stamp `x`: a one-step port writes the egress timestamp into Sync, and into Pdelay_Resp; a
two-step port gives it to Sundique for a message that follows; the stamp of a request is kept. The frame, the state, and what follows. -/
def ptpStamp (s : State) (k : Nat) (x : Int) (h : TxHeld) (t o : Nat) : List Byte × State × Option TxHeld :=
  let b := tb s t
  let kind := fld h.bytes o 1 % 16
  let seq := fldBe h.bytes (o + 30) 2
  let tr := if fldBe h.bytes 12 2 = 0x88F7 then 0 else if fldBe h.bytes 12 2 = 0x0800 then 1 else 2
  if kind = 1 ∨ kind = 2 then (h.bytes, modPtp s t k (fun q => { q with request := some (seq, x) }), none)
  else if twoStep b then
    let m := ptpMsg b t k (if kind = 0 then 8 else 10) [0, 0] (slice h.bytes (o + 8) 8) seq (slice h.bytes (o + 33) 1)
      (putStamp x ++ (if kind = 0 then [] else slice h.bytes (o + 44) 10))
    (h.bytes, s, some (ptpFrame s t k tr m true))
  else (ptpResum (patch h.bytes (o + 34) (putStamp x)) o, s, none)

/-- A frame as port `k` of PORTS sends it now, its capture at a place within the Mere cycle that is not stated: its bytes, and the message
that follows it. -/
def ptpLeave (s : State) (k : Nat) (h : TxHeld) : List Byte × State × Option TxHeld :=
  match h.ptp with
  | none => (h.bytes, s, none)
  | some (t, o) =>
    let (e, s) := drawBelow s 8
    ptpStamp s k (fullStamp s t e + corrOut s (tsPortOf k)) h t o

/-! ### The servo (13 R276 to R280, 15 R310) -/

/-- The mean of a mode-1 time base's frequency adjustments over HO_AVG seconds that end 1 s before the loss (15 R309, R310). -/
def meanAdj (hist : List Int) (avg : Nat) (d : Int) : Int :=
  let xs := (hist.drop 1).take avg
  let xs := if xs.isEmpty then hist else xs
  if xs.isEmpty then d else divEvenI (xs.foldl (· + ·) 0) xs.length

/-- A PTP instance loses its master: its slave port forgets it; VALID stays, HOLDOVER sets, the frequency is held. -/
def masterLoss (t : Nat) (s : State) : State :=
  if (tb s t).mode = 1 then
    let s := modTb s t (fun b => { b with holdover := true, locked := false, slew := 0, adj := meanAdj b.hist s.refs.hoAvg b.adj })
    ptpDecide (modTb s t (fun b => { b with ptp := tmap b.ptp (fun _ q => if q.state = 3 then { q with best := none } else q) })) t
  else s

def execPtpMasterLoss (t : Nat) (s : State) : Host.Outcome State Fault Refusal := runBase s (masterLoss t)

/-- The servo of mode-1 time base `t` acts on a measured offset (2^-16 ns). What it calls for is not stated: a frequency, a slew or a
step, and whether it is within its lock limit, are free values (log entry 30). A refused step is slewed instead (13 R280). -/
def servo (s : State) (t : Nat) (off : Int) : State :=
  let (k, s) := drawBelow s 4
  let (lk, s) := drawBelow s 2
  let (f, s) := drawInt s (-256000000) 256000000
  let (r, s) := drawInt s 1 1000
  let b := tb s t
  let step := k == 3 || b.forced
  let s := if step then
      if stepRefused b off && !b.forced then
        let s := tbSlew (modTb s t (fun b => { b with stepRef := true, refused := true })) t r.toNat (-off)
        if b.refused then s else evD s 0x902 t 0 0
      else modTb (tbStep s t (-off)) t (fun b => { b with forced := false, refused := false })
    else if k = 1 then modTb s t (fun b => { b with adj := f })
    else if k = 2 then tbSlew s t r.toNat (-off)
    else s
  modTb s t (fun b => { b with holdover := false, locked := lk == 1, valid := b.valid || lk == 1 })

/-- A slave port has the origin and the arrival of a Sync: the servo acts on the offset they give with the delay measured. -/
def ptpMeasure (s : State) (t k : Nat) (origin arrival : Int) : State :=
  let d := (tgetD (tb s t).ptp k {}).delay
  let s := modPtp s t k (fun q => { q with pend := none, sync := some (origin, arrival) })
  if (tb s t).mode = 1 then servo s t (arrival - origin - d) else s

/-! ### Receiving -/

/-- A message for an instance on port `k`: Announces give the masters to choose from, Syncs with their Follow_Ups the offset, the delay
messages the delay, and requests are answered. `x` is the corrected arrival in the time of the instance. -/
def ptpHear (s : State) (t k tr : Nat) (m : List Byte) (x : Int) : State × List TxHeld :=
  let b := tb s t
  let src := slice m 20 10
  let seq := fldBe m 30 2
  let two := bit (fld m 6 1) 1
  let corr := getCorr m
  let own := portIdentity t k
  let s := modTb s t (fun b => { b with ptp := tset b.ptp k { tgetD b.ptp k { wait := 3 * ptpEvery b.profile 11 } with transport := some tr } })
  let q := tgetD (tb s t).ptp k {}
  let parent := q.state == 3 && ((q.best.map (·.sender)).getD []) == src
  let mine := slice m 44 10 == own
  let set := fun (f : PtpPort → PtpPort) => modPtp s t k f
  match fld m 0 1 % 16 with
  | 0 =>
    if !parent then (s, [])
    else if two then (set (fun q => { q with pend := some (seq, x - corr) }), [])
    else (ptpMeasure s t k (getStamp m 34) (x - corr), [])
  | 8 =>
    match q.pend with
    | some (n, a) => if parent ∧ n = seq then (ptpMeasure s t k (getStamp m 34 + corr) a, []) else (s, [])
    | none => (s, [])
  | 1 =>
    if q.state = 1 ∧ !peerDelay b.profile then
      (s, [ptpFrame s t k tr (ptpMsg b t k 9 [0, 0] (slice m 8 8) seq [0x7F] (putStamp x ++ src)) false])
    else (s, [])
  | 9 =>
    match q.request, q.sync with
    | some (n, r), some (o, a) =>
      if parent ∧ mine ∧ n = seq then (set (fun q => { q with request := none, delay := ((a - o) + (getStamp m 34 - corr - r)) / 2 }), []) else (s, [])
    | _, _ => (s, [])
  | 2 =>
    if peerDelay b.profile then
      (s, [ptpFrame s t k tr (ptpMsg b t k 3 (eventFlags b) (slice m 8 8) seq [0x7F] ((if twoStep b then putStamp x else zb 10) ++ src)) false])
    else (s, [])
  | 3 =>
    match q.request with
    | some (n, r) =>
      if !mine ∨ n ≠ seq then (s, [])
      else if two then (set (fun q => { q with request := none, answer := some (seq, x - r - corr, getStamp m 34) }), [])
      else (set (fun q => { q with request := none, delay := (x - r - corr) / 2 }), [])
    | none => (s, [])
  | 10 =>
    match q.answer with
    | some (n, d, r) => if mine ∧ n = seq then (set (fun q => { q with answer := none, delay := (d - (getStamp m 34 - r) - corr) / 2 }), []) else (s, [])
    | none => (s, [])
  | 11 =>
    let s := if bit (fld m 7 1) 2 then modTb s t (fun b => { b with utcKnown := true, utcOff := sext 16 (fldBe m 44 2) }) else s
    let c : PtpClock := ⟨fld m 47 1, fld m 48 1, fld m 49 1, fldBe m 50 2, fld m 52 1, slice m 53 8, fldBe m 61 2, src⟩
    if src.take 8 == own.take 8 ∨ 255 ≤ c.steps then (s, [])
    else if !q.once.contains src then (modPtp s t k (fun q => { q with once := src :: q.once }), [])
    else
      let better := match q.best with | none => true | some d => d.sender == src || decide (c.rank < d.rank)
      if better then (ptpDecide (modPtp s t k (fun q => { q with best := some c, bestLeft := 3 * ptpEvery b.profile 11 })) t, []) else (s, [])
  | _ => (s, [])

/-- A PTP message received on port `k` of PORTS over transport `tr`: `m` begins at its header, `xs` gives its arrival by time base. Every
instance of its domain and profile on the port reads it; what they answer. -/
def ptpMessage (k tr : Nat) (xs : List (Nat × Int)) (m : List Byte) (s : State) : State × List TxHeld :=
  let hears := fun (b : TimeBase) =>
    b.profile != 0xFF && bit b.ports k && b.domain == fld m 4 1 && (ptpTransports b.profile).contains tr && (fld m 0 1 / 16 == if b.profile = 2 then 1 else 0)
  (xs.filter (fun x => hears (tb s x.1))).foldl (fun (s, out) x =>
    let (s, fs) := ptpHear s x.1 k tr m x.2
    (s, out ++ fs)) (s, [])

end Sys2Proof.Machine
end

