-- ==== Sys2Proof/Machine/Eddy.lean ====
section
/-! DEFINITION. Eddy (05 R116 to R122) and what streams and local ports share of it: the filter, a path's frame with its realignment, slips
(R124), the delay lines and the crossfade of a mode switch (R126). -/
namespace Sys2Proof.Machine

/-- An instant of `w` zeros. -/
def zeroInstant (w : Nat) : List F32 := List.replicate w 0

/-- `n` instants of zeros that are not lost. -/
def zeroInsts (n w : Nat) : List Inst := List.replicate n ⟨false, zeroInstant w⟩

/-! ### The filter (05 R117, R120, R121) -/

/-- D_E of a mode in units of 2^-16 ns (05 R117). -/
def eddyDelay (mode : Nat) : Nat := if mode = 0 then 500000 * 65536 else if mode = 1 then 80 * 1000000000 * 65536 / 48000 else 0

/-- Taps per output sample in a tenant of rate `fsT` (05 R117). -/
def eddyTaps (mode fsT : Nat) : Nat := (if mode = 1 then 160 else 48) * (fsT / 48000)

/-- How far the newest tap lies ahead of the position, in 2^-44 input sample: half the taps, but no further than D_E, so that no sample is
read before it is presented (05 R121). (DEDUCED, log entry 108.) -/
def eddyLead (mode fsIn fsT : Nat) : Nat := min (eddyTaps mode fsT / 2 * 2 ^ 44) (eddyDelay mode * fsIn * 2 ^ 44 / (65536 * 1000000000))

/-- The coefficient of tap `j` at the fraction `f` of a position (44 bits): Standard has 256 stored phases and interpolates linearly,
Mastering 1,024 and cubically (05 R117). (DESIGN CHOICE for the rounding of the linear one, log entry 108.) -/
def eddyCoeff (mode fsIn fsOut f j : Nat) : Int :=
  if mode = 1 then
    let at_ := fun d => Config.eddyStored true fsIn fsOut (f / 2 ^ 34 + d) j
    (Config.eddyCubic (at_ 0) (at_ 1) (at_ 2) (at_ 3) (BitVec.ofNat 34 f)).toInt
  else
    let a := (Config.eddyStored false fsIn fsOut (f / 2 ^ 36) j).toInt
    let b := (Config.eddyStored false fsIn fsOut (f / 2 ^ 36 + 1) j).toInt
    a + divEvenI ((b - a) * (f % 2 ^ 36 : Nat)) (2 ^ 36)

/-- One product on the grid of the 64-bit accumulator (05 R120). -/
def eddyProduct (x : F32) (c : Int) : Int :=
  if fMag x = 0 then 0 else divEvenI (fVal x * c * (2 ^ Config.accFrac.toNat : Nat)) (2 ^ (149 + Config.coeffFrac.toNat))

/-- Channel `ch` of the filter at position `p` (44 fraction bits) over the input presented: binary32 samples times 30-bit coefficients,
summed in 64-bit fixed point, the result rounded half to even (05 R120). -/
def eddySample (mode fsIn fsOut lead taps : Nat) (past : List Past) (p : Int) (ch : Nat) : F32 :=
  let q := p + lead
  let newest := q / (2 ^ 44 : Nat)
  let f := (q % (2 ^ 44 : Nat)).toNat
  let sum := past.foldl (fun (a : Int) e =>
    let j := newest - e.pos
    if 0 ≤ j ∧ j < taps then
      let x := e.data.getD ch 0
      if fMag x = 0 then a else a + eddyProduct x (eddyCoeff mode fsIn fsOut f j.toNat)
    else a) 0
  roundF false (sext 64 (toBits 64 sum) * (2 ^ (149 - Config.accFrac.toNat) : Nat)) 1

/-- What a path converts: its mode, the input and output rates, the tenant's rate, and its channels. -/
structure EddyPath where
  mode  : Nat
  fsIn  : Nat
  fsOut : Nat
  fsT   : Nat
  width : Nat

/-- The output of a path at position `p`. -/
def EddyPath.sample (e : EddyPath) (past : List Past) (p : Int) : List F32 :=
  (List.range e.width).map (eddySample e.mode e.fsIn e.fsOut (eddyLead e.mode e.fsIn e.fsT) (eddyTaps e.mode e.fsT) past p)

/-- Whether the input at position `p` was lost, which the loss mask of the output shows. (DEDUCED, log entry 95.) -/
def lostAt (past : List Past) (p : Int) : Bool := past.any (fun e => decide ((e.pos : Int) = p / (2 ^ 44 : Nat)) && e.lost)

/-- A sample of a realignment of which `left` of 32 are to come: 16 fade out, 16 fade in (05 R122). -/
def realignFade (left : Nat) (y : List F32) : List F32 :=
  if left = 0 then y else y.map (fun v => fScale v (if 17 ≤ left then left - 17 else 17 - left) 16)

/-- `n` instants of a path from position `p` at ratio `rho`, the first being instant `i`; half-way through a realignment the position is set
to `goal` (05 R122). Also the position and the realignment afterwards. -/
def eddyRun (e : EddyPath) (past : List Past) (goal : Nat → Int) (rho : Nat) : Nat → Nat → Int → Nat → List Inst × Int × Nat
  | 0, _, p, fade => ([], p, fade)
  | n + 1, i, p, fade =>
    let (ys, q, f) := eddyRun e past goal rho n (i + 1) (if fade = 17 then goal (i + 1) else p + rho) (fade - 1)
    (⟨lostAt past p, realignFade fade (e.sample past p)⟩ :: ys, q, f)

/-- Presented input kept for the filters: as far back as the longest filter, frame, delay and phase error reach. -/
def keepPast (new past : List Past) : List Past :=
  (new.reverse ++ past.filter (fun e => !new.any (fun x => x.pos == e.pos))).take 2304

/-- An instant presented earlier, or zeros. -/
def pastInst (past : List Past) (w q : Nat) : Inst := match past.find? (fun e => e.pos == q) with | some e => ⟨e.lost, e.data⟩ | none => ⟨false, zeroInstant w⟩

/-- The `n` instants of a path before position `p` at ratio `rho`. -/
def eddyBefore (e : EddyPath) (past : List Past) (p rho n : Nat) : List Inst :=
  (List.range n).map (fun i => ⟨false, e.sample past ((p : Int) - ((n - i) * rho : Nat))⟩)

/-! ### The ratio and the phase (05 R116, R122) -/

/-- F with 44 fraction bits. -/
def fixedRatio (fs fsT : Nat) : Nat := divEven (fs * 2 ^ 44) fsT

/-- F x r / m: the ratio without its phase correction, 44 fraction bits; m is the media clock's rate in the time of `b` (05 R116). -/
def ratioOf (b : TimeBase) (m : MClk) (fs r : Nat) : Nat := if m.inc = 0 then 0 else divEven (fs * r * 256 * b.inc) (m.inc * 1000000000)

/-- The ratio with its correction, within F x (1 +- 0.02). -/
def clampRatio (f : Nat) (z : Int) : Nat := (clampI (divEven (f * 98) 100 : Nat) (divEven (f * 102) 100 : Nat) z).toNat

/-- The phase correction c: (p* - p) / (PHASE_TC x fs of the tenant), within 100 ppm of F. (DEDUCED, log entry 95.) -/
def phaseCorr (f fsT tc : Nat) (e : Int) : Int :=
  let lim : Int := ((divEven (f * 100) 1000000 : Nat) : Int)
  clampI (-lim) lim (divEvenI (e * 1000) (tc * fsT))

/-- A phase error beyond 1 ms of input of rate `fs` (05 R122). -/
def beyondMs (fs : Nat) (e : Int) : Bool := decide (fs * 2 ^ 44 < e.natAbs * 1000)

/-- A conversion at the boundary that begins a frame (05 R116, R122): `goal` is the position demanded, `ratio` F x r / m, `fs` the input
rate, `f` F, `tc` PHASE_TC. Its ratio and correction hold through the frame; an error beyond 1 ms makes the next boundary begin a
realignment instead. The first frame after a takeover keeps the values taken over (R128). -/
def Conv.aim (cv : Conv) (goal : Int) (ratio f fs fsT tc : Nat) : Conv :=
  let p : Int := (cv.pos.map Int.ofNat).getD goal
  let e := goal - p
  let cv := { cv with pos := some p.toNat, phaseErr := divEvenI e (2 ^ 28) }
  if cv.taken then { cv with taken := false }
  else if cv.realign then { cv with realign := false, fade := 32, realigns := inc48 cv.realigns 1, corr := 0, rho := clampRatio f ratio }
  else if cv.fade ≠ 0 then { cv with corr := 0, rho := clampRatio f ratio }
  else if beyondMs fs e then { cv with realign := true, rho := clampRatio f (ratio + cv.corr) }
  else
    let c := phaseCorr f fsT tc e
    { cv with corr := c, rho := clampRatio f (ratio + c) }

/-- The path a switch brings in, at the same boundary (05 R126): it starts at the position demanded. -/
def Conv.aim2 (cv : Conv) (goal : Int) (ratio f fsT tc : Nat) : Conv :=
  let p : Int := (cv.pos2.map Int.ofNat).getD goal
  { cv with pos2 := some p.toNat, rho2 := clampRatio f (ratio + phaseCorr f fsT tc (goal - p)) }

/-! ### Slips (05 R124) -/

/-- The sum over the channels of |a - b|. -/
def sumDist (a b : List F32) : Nat := (List.zipWith fDist a b).foldl (· + ·) 0

/-- The instant k, 1 ≤ k < n, at which a drop or repeat falls: a concealed one before any other, else the least step, the earliest on a
tie. -/
def slipPlace (concealed : Nat → Bool) (xs : List (List F32)) (n : Nat) : Nat :=
  match (range 1 n).find? concealed with
  | some k => k
  | none =>
    let step := fun (k : Nat) => sumDist (xs.getD k []) (xs.getD (k - 1) [])
    (range 2 n).foldl (fun b k => if step k < step b then k else b) 1

/-- A list without its instant `k`; with its instant `k - 1` presented twice. -/
def dropAt {α : Type} (k : Nat) (xs : List α) : List α := xs.take k ++ xs.drop (k + 1)
def repeatAt {α : Type} (k : Nat) (xs : List α) : List α := xs.take k ++ ((xs.drop (k - 1)).take 1) ++ xs.drop k

/-! ### Mode switches (05 R126) -/

/-- `n` instants through a delay line: `act` 1 makes it longer by repeating an instant, 2 shorter by dropping one, placed under R124. -/
def lineStep (act n : Nat) (line xs : List Inst) : List Inst × List Inst :=
  let a := line ++ xs
  let at_ := slipPlace (fun k => (a.getD k default).lost) ((a.take (n + 1)).map (·.data)) n
  if act = 1 ∧ 2 ≤ n then (repeatAt at_ (a.take (n - 1)), a.drop (n - 1))
  else if act = 2 ∧ n < a.length then (dropAt at_ (a.take (n + 1)), a.drop (n + 1))
  else (a.take n, a.drop n)

/-- The linear crossfade of `xf` instants of which `left` are to come (05 R126). -/
def crossfade (xf left : Nat) (a b : List Inst) : List Inst :=
  (List.zip a b).mapIdx (fun i (x, y) =>
    let j := xf - left + i + 1
    if xf ≤ j then y else ⟨x.lost || y.lost, List.zipWith (fun u v => fBlend u v (xf - j) j xf) x.data y.data⟩)

/-- The switch after a frame of `n` instants, and whether its crossfade ended in it. -/
def Switch.next (w : Switch) (n : Nat) : Option Switch × Bool :=
  if !w.live then (some w, false)
  else
    match w.phase with
    | 1 => (some (if w.slips ≤ 1 then { w with phase := 2, slips := 0, left := 0 } else { w with slips := w.slips - 1 }), false)
    | 2 =>
      if w.left = 0 then (some { w with left := w.xfade }, false)
      else if w.left ≤ n then (if w.slips = 0 then none else some { w with phase := 3, left := 0 }, true)
      else (some { w with left := w.left - n }, false)
    | 3 => (if w.slips ≤ 1 then none else some { w with slips := w.slips - 1 }, false)
    | _ => (some { w with left := w.left - n }, false)

/-- Whether both paths of a switch run. -/
def Conv.both (cv : Conv) : Bool := match cv.switch with | some w => w.live && w.phase == 2 | none => false

/-- Whether lock-follow is one of the paths that run. -/
def Conv.follows (cv : Conv) : Bool := cv.mode == 2 || (cv.both && (cv.switch.map (·.mode)) == some 2)

/-- Whether a mode switch makes a slip in each frame: its steps 2 and 6 (05 R126). -/
def Conv.slipping (cv : Conv) : Bool := match cv.switch with | some w => w.live && (w.phase == 1 || w.phase == 3) | none => false

/-- Whether an Eddy path is one of them. -/
def Conv.converts (cv : Conv) : Bool := cv.mode != 2 || (cv.both && (cv.switch.map (·.mode)) != some 2)

/-- The frame of a conversion from `a`, the frame of the path in force, and `b`, that of the path a switch brings in, with `pre`, the
instants of the latter just before the frame, which fill its delay line when it starts (05 R126). A conversion that has lost its bank
fades out over 16 instants and carries zeros (18 R360). -/
def Conv.sound (cv : Conv) (n : Nat) (a b pre : List Inst) : List Inst × Conv :=
  let through := fun (act : Nat) =>
    let (ys, l) := lineStep act n cv.line a
    (ys, { cv with line := l })
  match cv.switch with
  | none => through 0
  | some w =>
    if !w.live then through 0
    else
      match w.phase with
      | 1 => through 1
      | 2 =>
        let (ys, l) := lineStep 0 n cv.line a
        let (zs, l2) := lineStep 0 n (if w.left = 0 then pre else cv.line2) b
        (if w.left = 0 then ys else crossfade w.xfade w.left ys zs, { cv with line := l, line2 := l2 })
      | 3 => through 2
      | _ => (a.mapIdx (fun i y => ⟨y.lost, y.data.map (fun v => fScale v (w.left - (i + 1)) 16)⟩), cv)

/-- A conversion after a frame: at the end of the crossfade the new path takes the old one's place and the units of the old mode return;
the slips of a switch are counted. Also whether the switch has ended. -/
def Conv.switched (cv : Conv) (n : Nat) : Conv × Bool :=
  match cv.switch with
  | none => (cv, false)
  | some w =>
    let (w', done) := w.next n
    let cv := { cv with switch := w', swSlips := if w.live && (w.phase == 1 || w.phase == 3) then inc48 cv.swSlips 1 else cv.swSlips }
    if done then
      ({ cv with mode := w.mode, units := cv.pendUnits, pendUnits := 0, line := cv.line2, line2 := [], pos := cv.pos2, rho := cv.rho2, pos2 := none, fade := 0, realign := false }, w'.isNone)
    else (if w.phase = 4 ∧ w.left ≤ n then { cv with units := 0 } else cv, w'.isNone)

end Sys2Proof.Machine
end

