-- ==== Sys2Proof/Machine/Present.lean ====
section
/-! DEFINITION. How a receive stream presents its input: presentation times (04 R89, R92), concealment (04 R96), and what of a frame has been
presented by an instant. -/
namespace Sys2Proof.Machine

/-! ### Time of a stream -/

/-- L in units of 2^-16 ns (04 R90). -/
def lUnits (fsT : Nat) (c : List Byte) : Nat := divEven (cL c * 1000000000 * 65536) fsT

/-- The ratio r of a stream, 44 fraction bits (05 R114). -/
def streamRate (c : List Byte) (r : Nat) : Nat := if cArrival c then r else 2 ^ 44

/-- `d` samples of a stream in units of 2^-16 ns: 10^9 / fs each, or 10^9 / (fs x r) with ARRIVAL; formed exactly and rounded
once, to nearest, ties to even (04 R89). -/
def sampleTime (c : List Byte) (r : Nat) (d : Int) : Int :=
  if cArrival c then rateTime (cFs c) r d else divEvenI (d * 1000000000 * 65536) (cFs c)

/-- How many samples of a stream pass in `d` units of 2^-16 ns, in units of 2^-44 sample. -/
def timeSamples (c : List Byte) (r : Nat) (d : Int) : Int := divEvenI (d * (cFs c * streamRate c r : Nat)) (65536 * 1000000000)

/-- The presentation time of position `p`. -/
def presOf (fsT : Nat) (c : List Byte) (x : RxSide) (p : Nat) : Nat :=
  tadd (tadd x.anchorNs (sampleTime c x.est.r ((p : Int) - x.anchorRtp))) (lUnits fsT c)

/-- The position that is presented at time `t`, 44 fraction bits. -/
def posAt (fsT : Nat) (c : List Byte) (x : RxSide) (t : Nat) : Int :=
  ((x.anchorRtp * 2 ^ 44 : Nat) : Int) + timeSamples c x.est.r (tdiff t (tadd x.anchorNs (lUnits fsT c)))

/-- The position that R121 demands of a conversion of a mode for the instant at time `t`, 44 fraction bits. -/
def demanded (fsT : Nat) (c : List Byte) (x : RxSide) (mode t : Nat) : Int := posAt fsT c x (tadd t (-(eddyDelay mode : Int)))

/-- How many sample instants of the tenant frame in progress have begun (05 R123). -/
def elapsed (x : Tenant) : Nat := (-(x.mclk.ahead (x.frame * x.n)) / (2 ^ 56 : Nat)).toNat

/-- The positions from `h` on whose presentation falls before time `t`, the latest `cap` of them where there are more; and the head after
them. -/
def dueUntil (fsT : Nat) (c : List Byte) (x : RxSide) (h t cap : Nat) : List Nat × Nat :=
  let d := tdiff t (presOf fsT c x h)
  if d ≤ 0 then ([], h)
  else
    let k := (timeSamples c x.est.r d / (2 ^ 44 : Nat)).toNat
    let e := h + k + b2n (decide (tdiff (presOf fsT c x (h + k)) t < 0))
    (range (max h (e - cap)) e, e)

/-! ### Concealment (04 R96) -/

/-- The `i`-th concealed instant of a gap, after `v` was presented; `recent` are the instants CONCEAL 1 repeats. (DEDUCED, log entry 51.) -/
def concealed (mode spp w i : Nat) (v : List F32) (recent : List (List F32)) : List F32 :=
  match mode with
  | 0 => (List.range w).map (fun j => if i < 16 then fScale (v.getD j 0) (16 - i) 16 else 0)
  | 1 =>
    let k := (i - 1) / spp + 1
    let old := (List.replicate (spp - recent.length) (zeroInstant w) ++ recent).getD ((i - 1) % spp) []
    (List.range w).map (fun j =>
      let r := if k ≤ 4 then fScale (old.getD j 0) 1 (2 ^ k) else 0
      if i ≤ 16 then fBlend (v.getD j 0) r (16 - i) i 16 else r)
  | _ => zeroInstant w

/-- One instant is presented: the received data with the fade after a gap, or concealment. -/
def playOne (c : List Byte) (x : RxSide) : Option (List F32) → RxSide × List F32
  | some d =>
    let j := if x.gap ≠ 0 then 1 else x.fadeIn
    let y := if j < 16 then d.map (fun v => fScale v j 16) else d
    ({ x with gap := 0, fadeIn := min 17 (j + 1), lastV := y, recent := (x.recent ++ [y]).drop (x.recent.length + 1 - cSpp c) }, y)
  | none => ({ x with gap := x.gap + 1 }, concealed (cConceal c) (cSpp c) (cChannels c) (x.gap + 1) x.lastV x.recent)

/-- Instants presented one after the other. -/
def playList (c : List Byte) : List (Option (List F32)) → RxSide → RxSide × List Inst
  | [], x => (x, [])
  | d :: ds, x =>
    let (x, y) := playOne c x d
    let (x, ys) := playList c ds x
    (x, ⟨d.isNone, y⟩ :: ys)

/-- The sample that position `p` holds: the stream's own, or as the active device's fill map says (16 R324); a poisoned one is lost
(18 R351). -/
def heldAt (s : State) (k : Nat) (tw : Option TwinStream) (x : RxSide) (p : Nat) : Option (List F32) :=
  match tw with
  | some v =>
    if v.fill.contains p then ((v.data.find? (fun e => e.1 == p)).map (·.2)).or ((tget x.slots p).map (·.data)) else none
  | none => if poisoned s (.jitter k p) then none else (tget x.slots p).map (·.data)

/-- What presenting gives: the stream's new state, the instants presented, how many were concealed, and the positions presented from
received data. -/
structure Played where
  x    : RxSide
  out  : List Inst := []
  lost : Nat := 0
  fill : List Nat := []

/-- `n` instants in which the stream has nothing to present: zeros before it has presented anything, concealment after. -/
def Played.idle (p : Played) (c : List Byte) (n : Nat) : Played :=
  if p.x.recent.isEmpty ∧ p.x.gap = 0 then { p with out := p.out ++ zeroInsts n (cChannels c) }
  else
    let (x, ys) := playList c (List.replicate n none) p.x
    { p with x := x, out := p.out ++ ys, lost := p.lost + n }

/-- Positions `ps` presented after `p`; what has been presented stays at hand for the filters. -/
def Played.andThen (p : Played) (c : List Byte) (held : Nat → Option (List F32)) (ps : List Nat) : Played :=
  let (x, ys) := playList c (ps.map held) p.x
  let new := List.zipWith (fun q (y : Inst) => (⟨q, y.lost, y.data⟩ : Past)) ps ys
  { x := { x with conv := { x.conv with past := keepPast new x.conv.past } }
    out := p.out ++ ys, lost := p.lost + (ys.filter (·.lost)).length, fill := p.fill ++ ps.filter (fun q => (held q).isSome) }

/-- A stream whose input is presented at its own times presents what falls due before time `t`, and everything below position `least`.
(DEDUCED, log entry 95.) -/
def presentDue (s : State) (k : Nat) (c : List Byte) (fsT : Nat) (tw : Option TwinStream) (t least : Nat) (x : RxSide) : Played :=
  match x.head with
  | none => { x := x }
  | some h =>
    let (ps, e) := dueUntil fsT c x h t 2304
    let ps := ps ++ range e least
    let p := ({ x := x } : Played).andThen c (heldAt s k tw x) ps
    { p with x := { p.x with head := some (max e least), fresh := x.fresh && ps.isEmpty } }

/-- What a stream has presented of the frame in progress up to now, before its anchor changes (04 R91): a lock-follow stream the instants
that have begun, another what is due. -/
def presentNow (s : State) (k : Nat) (st : Stream) : Played :=
  let c := st.cfg
  let x := st.rx
  let t := tenant s st.tenant
  if x.conv.converts then presentDue s k c t.fs none (tb s (cTb c)).now 0 x
  else
    match x.head with
    | none => { x := x }
    | some h =>
      let n := min (elapsed t) (t.n - t.skip) - x.early.length
      if x.fresh then { x := x }
      else
        let p := ({ x := x } : Played).andThen c (heldAt s k none x) (range h (h + n))
        { p with x := { p.x with head := some (h + n), early := x.early ++ p.out } }

end Sys2Proof.Machine
end

