-- ==== Sys2Proof/Machine/RxStream.lean ====
section
/-! DEFINITION. Chapter 04, the receive side: parsing, the eleven checks of R88, playout time, merge and key changes. -/
namespace Sys2Proof.Machine

/-- The anchor pair moved on by whole seconds of samples (04 R89, origin_time). -/
def advanceAnchor (c : List Byte) (x : RxSide) (d : Int) : RxSide × Int :=
  let fs := cFs c
  let q := (max d 0) / fs
  let step := sampleTime c x.est.r fs
  ({ x with anchorRtp := x.anchorRtp + (q * fs).toNat, anchorNs := tadd x.anchorNs (q * step) }, d - q * fs)

/-! ### Parsed packets -/

/-- An RTP packet or AVTPDU that passed the format check: raw sequence number, timestamp, the header's bytes (the associated
data of a keyed packet) and what follows it. -/
structure RxPkt where
  seq  : Nat
  ts   : Option Nat
  head : List Byte
  body : List Byte
  pad  : Bool

/-- An RTP packet checked against a stream (04 R75): V, PT, SSRC, CSRC list, extension. -/
def parseRtp (c : List Byte) (b : List Byte) : Option RxPkt :=
  let b0 := fld b 0 1
  let n0 := 12 + 4 * (b0 % 16)
  let n := if bit b0 4 then n0 + 4 + 4 * fldBe b (n0 + 2) 2 else n0
  if b.length < n ∨ b0 / 64 ≠ 2 ∨ fld b 1 1 % 128 ≠ cPt c ∨ (cSsrcCheck c ∧ fldBe b 8 4 ≠ cSsrc c) then none
  else some ⟨fldBe b 2 2, some (fldBe b 4 4), b.take n, b.drop n, bit b0 5⟩

/-- The nsr code of a RATE (04 R78). -/
def nsrCode (rate : Nat) : Nat := if rate < 2 then rate + 1 else if rate = 2 then 0xA else rate

/-- The format code and bit depth of an AAF FORMAT (04 R78). -/
def aafCode (f : Nat) : Nat := if f = 5 then 4 else if f = 6 then 3 else if f = 7 then 2 else 1
def aafDepth (f : Nat) : Nat := if f = 5 then 16 else if f = 6 then 24 else 32

/-- The payload size of a stream's packet (04 R74). -/
def payloadSize (c : List Byte) : Nat := cSpp c * cChannels c * sampleBytes (cFormat c)

/-- An AVTPDU checked against a stream (04 R78). -/
def parseAaf (c : List Byte) (b : List Byte) : Option RxPkt :=
  let b1 := fld b 1 1
  let b17 := fld b 17 1
  if b.length < 24 + payloadSize c ∨ fld b 0 1 ≠ 2 ∨ !bit b1 7 ∨ bits b1 6 4 ≠ 0 ∨ fld b 16 1 ≠ aafCode (cFormat c) ∨ b17 / 16 ≠ nsrCode (cRate c)
      ∨ (b17 % 4) * 256 + fld b 18 1 ≠ cChannels c ∨ fld b 19 1 ≠ aafDepth (cFormat c) ∨ fldBe b 20 2 ≠ payloadSize c then none
  else some ⟨fld b 2 1, if bit b1 0 then some (fldBe b 12 4) else none, b.take 24, (b.drop 24).take (payloadSize c), false⟩

/-- Padding removed by the count in its last byte (04 R75). (DEDUCED, log entry 69.) -/
def unpad (pad : Bool) (b : List Byte) : Option (List Byte) :=
  if !pad then some b
  else
    let n := (b.getLast?.getD 0).toNat
    if n = 0 ∨ b.length < n then none else some (b.take (b.length - n))

/-- The value congruent to `x` modulo `m` nearest to `ref`; of two equally near the older one (R423). -/
def nearest (m : Nat) (ref : Int) (x : Nat) : Int :=
  let d := ((x : Int) - ref) % (m : Int)
  if 2 * d < m then ref + d else ref + d - m

/-! ### Samples -/

/-- A received sample as binary32, and whether it was bad (04 R79). -/
def decodeSample (f : Nat) (b : List Byte) : F32 × Bool :=
  let v := sext (8 * sampleBytes f) (beNat b)
  match f with
  | 3 => (ofScaled (muExpand (leNat b)) 13, false)
  | 4 => (ofScaled (aExpand (leNat b)) 12, false)
  | 8 => cleanF (BitVec.ofNat 32 (beNat b))
  | _ => (ofScaled v (8 * sampleBytes f - 1), false)

/-- The sample instant `j` of a payload: one value per channel, with how many were bad. -/
def instantOf (c : List Byte) (body : List Byte) (j : Nat) : List F32 × Nat :=
  let w := sampleBytes (cFormat c)
  let n := cChannels c
  let xs := (List.range n).map (fun k => decodeSample (cFormat c) (slice body ((j * n + k) * w) w))
  (xs.map (·.1), (xs.filter (·.2)).length)

/-! ### Legs -/

/-- A leg of a stream, and the stream with it replaced. -/
def Stream.leg (st : Stream) (g : Nat) : Leg := if g = 0 then st.legA else st.legB
def Stream.setLeg (st : Stream) (g : Nat) (l : Leg) : Stream := if g = 0 then { st with legA := l } else { st with legB := l }

/-- Counter `i` of a stream in the state raised by one. -/
def count (s : State) (k i : Nat) : State := modStream s k (·.bump i 1)

/-- The object code of a stream in an event (22 R405). -/
def streamObj (k : Nat) : Nat := k

/-- An event of the stream `k`. -/
def streamEv (s : State) (k typ aux : Nat) : State := evT s ((tget s.streams k).getD default).tenant typ (streamObj k) 0 aux

/-- The policer (04 R97): the bucket refilled to the present Mere cycle and, if it holds one, a token taken. -/
def police (s : State) (c : List Byte) (l : Leg) : Leg × Bool :=
  let unit := cSpp c * 1000 * 1200000000
  let t := min (l.tokens + (s.mere - l.tokAt) * (cFs c * (1000 + cPolTol c))) (cPolBurst c * unit)
  if unit ≤ t then ({ l with tokens := t - unit, tokAt := s.mere }, true) else ({ l with tokens := t, tokAt := s.mere }, false)

/-! ### Keys on receive (04 R84 to R87) -/

/-- The SRTP index of a sequence number on a leg (RFC 3711 Appendix A): the first packet has rollover counter 0. -/
def srtpIndex (l : Leg) (seq : Nat) : Nat :=
  match l.idxHi with
  | none => seq
  | some h =>
    let roc := h / 65536
    let sl := h % 65536
    let v := if sl < 32768 then (if sl + 32768 < seq then roc + 2 ^ 32 - 1 else roc) else if seq + 32768 < sl then roc + 1 else roc
    v % 2 ^ 32 * 65536 + seq

/-- The key an index selects, and whether it is the pending one (04 R86). -/
def keyFor (st : Stream) (i : Nat) : Option Key × Bool :=
  match st.nextKey with
  | some (act, k) => if act ≤ i then (some k, true) else (st.key, false)
  | none => (st.key, false)

/-- The plaintext of a packet's body under a key, if it authenticates (04 R84). A master key identifier is not looked for: a packet that
carries one has its tag where none belongs. -/
def unprotect (k : Key) (p : RxPkt) (i : Nat) : Option (List Byte) :=
  let n := tagLen k.cipher
  if p.body.length < n then none
  else
    let ct := p.body.take (p.body.length - n)
    if p.body.drop (p.body.length - n) = srtpTag k.cipher k.mkey k.salt p.head ct i then some (srtpCrypt k.cipher k.mkey k.salt p.head ct i) else none

/-- The replay window of a leg: 128 packets behind the highest index. -/
def replayed (l : Leg) (i : Nat) : Bool :=
  match l.idxHi with
  | none => false
  | some h => decide (128 ≤ tdiff h i) || l.window.contains i

/-- An authenticated index recorded. -/
def recordIndex (l : Leg) (i : Nat) : Leg :=
  let h := match l.idxHi with | some h => if 0 < tdiff i h then i else h | none => i
  { l with idxHi := some h, window := i :: l.window.filter (fun j => decide (tdiff h j < 128)) }

/-- A pending key whose change is complete on every leg replaces the old one; its second slot is returned (04 R86). -/
def settleKey (k : Nat) (s : State) : State :=
  match tget s.streams k with
  | none => s
  | some st =>
    match st.nextKey with
    | none => s
    | some (act, key) =>
      let past := fun (l : Leg) => match l.idxHi with | some h => decide (act + 128 ≤ h) | none => false
      if past st.legA && (!cDual st.cfg || past st.legB) then
        let s := if st.slots = 2 then refund s st.tenant { keys := 1 } else s
        modStream s k (fun st => { st with key := some key, nextKey := none, nextUsed := false, slots := min st.slots 1 })
      else s

/-! ### The checks -/

/-- A packet dropped by check 8, 9 or 11 (04 R91). An ARRIVAL stream of RTP re-anchors after 8 in a row: what it holds unpresented is
discarded and the next packet anchors; until then it plays on, and conceals, by the anchor it has. Any other stream raises STREAM_TS_FAULT
after 8 of check 8. -/
def dropRun (s : State) (k : Nat) (ts : Bool) : State :=
  match tget s.streams k with
  | none => s
  | some st =>
    let x := { st.rx with drops := st.rx.drops + 1, tsDrops := if ts then st.rx.tsDrops + 1 else 0 }
    let arrival := cArrival st.cfg && !isAaf (cFormat st.cfg)
    if arrival ∧ 8 ≤ x.drops then
      let p := presentNow s k { st with rx := x }
      let live := fun (e : Nat × JSlot) => match p.x.head with | some h => decide (e.1 < h) | none => false
      streamEv (modStream s k (fun st => { st.bump 24 p.lost with
        rx := { p.x with drops := 0, tsDrops := 0, reanchor := true, slots := p.x.slots.filter live, est := { p.x.est with minErr := none } } })) k 0x407 0
    else
      let fault := !arrival && decide (8 ≤ x.tsDrops) && !x.tsFault
      let s := modStream s k (fun st => { st with rx := { x with tsFault := x.tsFault || fault } })
      if fault then streamEv s k 0x408 0 else s

/-- The estimator at the first packet of an anchor (05 R115). -/
def Est.anchorAt (e : Est) (pos arr : Nat) : Est :=
  { e with acqLeft := e.acqTime * 1000, state := 1, predPos := pos, predTime := arr, minErr := none, integ := ((e.r : Int) - 2 ^ 44) * (2 ^ 32 : Nat) }

/-- The first position of a packet and its presentation time: the anchor pair is set by the first packet of an ARRIVAL stream and after a
re-anchor (04 R91), and advanced (R89). An AAF packet continues the sample count of the one before it. Positions stand above 2^40, so that
none is negative. -/
def placePacket (s : State) (k : Nat) (st : Stream) (ts arr : Nat) : Played × Nat × Nat :=
  let c := st.cfg
  let x := st.rx
  let l := lUnits (tenant s st.tenant).fs c
  if isAaf (cFormat c) then
    let origin := ((ts + 2 ^ 32 - cTsOffset c % 2 ^ 32) % 2 ^ 32) * 65536
    let pos := if x.anchored then ((x.anchorRtp : Int) + divEvenI (timeSamples c x.est.r (tdiff origin x.anchorNs)) (2 ^ 44)).toNat else 2 ^ 40
    let est := if cArrival c && !x.anchored then x.est.anchorAt pos arr else x.est
    ({ x := { x with anchored := true, anchorRtp := pos, anchorNs := origin, est := est } }, pos, tadd origin l)
  else if cArrival c && (!x.anchored || x.reanchor) then
    let p := if x.reanchor then presentNow s k st else { x := x }
    let x := p.x
    let pos := if x.anchored then ((x.anchorRtp : Int) + sext 32 (ts + 2 ^ 32 - x.anchorRtp % 2 ^ 32)).toNat else 2 ^ 40 + ts
    let pres := tadd arr (divEvenI ((l : Int) - sampleTime c x.est.r (cSpp c)) 2)
    ({ p with x := { x with
        anchored := true, reanchor := false, anchorRtp := pos, anchorNs := tadd pres (-(l : Int)), head := none
        slots := x.slots.filter (fun e => decide (e.1 < pos)), est := x.est.anchorAt pos arr } }, pos, pres)
  else
    let d := sext 32 (ts + 2 ^ 32 - x.anchorRtp % 2 ^ 32)
    let (x, d) := advanceAnchor c x d
    ({ x := x }, ((x.anchorRtp : Int) + d).toNat, tadd (tadd x.anchorNs (sampleTime c x.est.r d)) l)

/-- Whether position `p`, presented at `pres`, is already past (04 R92): its time has passed, or lock-follow has taken it. -/
def isPast (now : Nat) (x : Tenant) (r : RxSide) (p pres : Nat) : Bool :=
  decide (tdiff pres now < 0) || (r.conv.follows && (match r.conv.followPos.or r.head with | some h => decide (p < h + (elapsed x - r.early.length)) && !r.fresh | none => false))

/-- The estimator of a stream takes an admitted packet in arrival mode alone (05 R114, R115). -/
def feedEstimator (c : List Byte) (pos arr : Nat) (e : Est) : Est := if cArrival c then e.feed (cFs c) pos arr else e

/-- The timestamp of an AVTPDU: its own, or the last one carried on by the sequence distance (04 R78). (DEDUCED, log entry 71.) -/
def aafTime (c : List Byte) (l : Leg) (p : RxPkt) (ext : Int) : Option Nat :=
  match p.ts with
  | some t => some t
  | none => l.tsSeq.map (fun (b : Int × Nat) =>
      (((b.2 : Int) + divEvenI ((nearest 256 b.1 (ext % 256).toNat - b.1) * cSpp c * 1000000000) (cFs c)) % (2 ^ 32 : Nat)).toNat)

/-- A packet of a leg is admitted, or is a duplicate: a leg that was down is up again (04 R94). A leg is neither up nor down before its first
packet. (DEDUCED, log entry 70.) -/
def legSeen (s : State) (k g : Nat) : State :=
  let l := ((tget s.streams k).getD default).leg g
  let s' := modStream s k (·.setLeg g { l with up := true, admitAt := some s.mere })
  if !l.up && l.admitAt.isSome then streamEv s' k 0x405 g else s'

/-- The codec task that takes over the payload of a stream, if there is one (09 R209): a decoder of a receive stream, an encoder
of a transmit stream. -/
def codecOf (s : State) (k : Nat) : Option Nat :=
  (s.tasks.find? (fun e => e.2.library && e.2.live && e.2.stream == k % 65536 && (if k < 65536 then e.2.libId == 6 || e.2.libId == 8 else e.2.libId == 5 || e.2.libId == 7))).map (·.1)

/-- Whether a payload has the size its stream asks for: that of R74, or 1 to 1,400 bytes under a codec task. -/
def sizeOk (s : State) (k n : Nat) : Bool :=
  if (codecOf s k).isSome then decide (1 ≤ n ∧ n ≤ 1400) else n == payloadSize ((tget s.streams k).getD default).cfg

/-- Check 3 on what follows the header of a keyed packet: the payload, padding of 1 to 255 bytes where P says so, and the tag, of any suite
while the stream holds no key. (DEDUCED, log entry 69.) -/
def keyedSizeOk (s : State) (k : Nat) (key : Option Key) (pad : Bool) (n : Nat) : Bool :=
  let tags := match key with | some y => [tagLen y.cipher] | none => [10, 16]
  tags.any (fun t => decide (t ≤ n) && (if pad then (range 1 256).any (fun d => decide (t + d ≤ n) && sizeOk s k (n - t - d)) else sizeOk s k (n - t)))

/-- The first position that is not past at time `now`, counted back from position `lo`, presented at `pres`: where playout begins
once the first packet is admitted, the instants before its own samples being empty slots (04 R96; DEDUCED, log entry 50). -/
def firstDue (c : List Byte) (r lo pres now : Nat) : Nat :=
  let d := tdiff pres now
  let k := if d ≤ 0 then 0 else (timeSamples c r d / (2 ^ 44 : Nat)).toNat
  lo - (if tdiff (tadd pres (-(sampleTime c r k))) now < 0 then k - 1 else k)

/-- The samples of positions `ps` of a packet are written, and the stream takes note of it (04 R93 to R96). -/
def admitPacket (s : State) (k : Nat) (x : RxSide) (key : Int) (ts pos pres arr : Nat) (body : List Byte) (ps : List Nat) : State :=
  let st := (tget s.streams k).getD default
  let c := st.cfg
  let codec := codecOf s k
  let vals := ps.map (fun j => (j, if codec.isSome then (List.replicate (cChannels c) 0, 0) else instantOf c body j))
  let slots := vals.foldl (fun t (v : Nat × List F32 × Nat) =>
    tset t (pos + v.1) { data := v.2.1, seq := key : JSlot }) x.slots
  let bad := vals.foldl (fun n v => n + v.2.2) 0
  let lo := pos + ps.headD 0
  let head := x.head.getD (firstDue c x.est.r lo (tadd pres (sampleTime c x.est.r (ps.headD 0))) (tb s (cTb c)).now)
  let x' := { x with
    slots := slots, head := some head, fresh := x.fresh || x.head.isNone, active := true, silent := false, admitAt := some s.mere, drops := 0, tsDrops := 0, tsFault := false
    hist := ((key, ts) :: x.hist).take 1024, est := feedEstimator c pos arr x.est }
  let s := modStream (clearMarks (fun o => match o with | .jitter n p => n == k && ps.any (fun j => pos + j == p) | _ => false) s) k (fun st => { st.bump 25 bad with rx := x' })
  let s := match codec with
    | some n => { s with tasks := tmod s.tasks n (fun (w : Task) => { w with coded := w.coded ++ [le2 body.length ++ le6 pres ++ body] }) }
    | none => s
  let s := if x.active then s else streamEv s k 0x401 0
  if x.silent then streamEv s k 0x403 0 else s

/-- Checks 8 to 11 (04 R88, R92, R93). What a packet that is dropped has not anchored it does not move. -/
def rxPlace (k g : Nat) (key : Int) (ts : Nat) (reordered : Bool) (body : List Byte) (arr : Nat) (s : State) : State :=
  let st := (tget s.streams k).getD default
  let c := st.cfg
  let t := tenant s st.tenant
  let now := (tb s (cTb c)).now
  let l := lUnits t.fs c
  let (p, pos, pres) := placePacket s k st ts arr
  let x := p.x
  let first := cArrival c && !isAaf (cFormat c) && (!st.rx.anchored || st.rx.reanchor)
  let save := fun (s : State) => if first then s else modStream s k (fun st => { st with rx := { st.rx with anchorRtp := x.anchorRtp, anchorNs := x.anchorNs, anchored := x.anchored } })
  if 2000000000 * 65536 < (tdiff (tadd pres (-(l : Int))) now).natAbs then
    dropRun (count (if isAaf (cFormat c) then s else save s) k 20) k true
  else
    let s := save s
    if (l : Int) < tdiff (tadd pres (sampleTime c x.est.r (cSpp c - 1))) now then dropRun (count s k 21) k false
    else
      let js := List.range (cSpp c)
      let filled := fun j => match tget x.slots (pos + j) with
        | some y => !y.presented || x.hist.any (fun h => h.1 == y.seq)
        | none => false
      let free := js.filter (fun j => !filled j)
      if free.isEmpty then count (legSeen s k g) k (12 + g)
      else
        let s := if free.length < cSpp c then count s k 22 else s
        let ok := free.filter (fun j => !isPast now t x (pos + j) (tadd pres (sampleTime c x.est.r j)))
        let s := if ok.length < free.length then count s k 23 else s
        if ok.isEmpty then dropRun s k false
        else
          let s := modStream (legSeen s k g) k (·.bump 24 p.lost)
          admitPacket (if reordered then count s k (16 + g) else s) k x key ts pos pres arr body ok

/-- Check 7 and the sequence numbers of the leg (04 R94, R95). (DEDUCED, log entry 70.) -/
def rxOrder (k g : Nat) (p : RxPkt) (body : List Byte) (arr : Nat) (s : State) : State :=
  let st := (tget s.streams k).getD default
  let c := st.cfg
  let l := st.leg g
  let aaf := isAaf (cFormat c)
  let ext : Int := match l.seqHi with | none => p.seq | some h => nearest (if aaf then 256 else 65536) h p.seq
  let key : Int := if aaf then ext else p.seq
  match aafTime c l p ext with
  | none => count s k (6 + g)
  | some ts =>
    if st.rx.hist.any (fun h => h.1 == key && h.2 != ts) then streamEv (count s k 19) k 0x406 g
    else
      let hi := l.seqHi.getD ext
      let s := modStream s k (fun st => (st.bump (14 + g) (ext - hi - 1).toNat).setLeg g { l with
        seqHi := some (max hi ext), tsSeq := if p.ts.isSome then some (ext, ts) else l.tsSeq })
      rxPlace k g key ts (decide (ext < hi)) body arr s

/-- Checks 4 to 6 of a keyed stream (04 R84 to R87), after the size that check 3 asks of it. Padding that is not as its last byte says fails
check 3, which shows only on the plaintext. -/
def rxKeyed (k g : Nat) (p : RxPkt) (arr : Nat) (s : State) : State :=
  let st := (tget s.streams k).getD default
  let l := st.leg g
  let i := srtpIndex l p.seq
  let (key, next) := keyFor st i
  if !keyedSizeOk s k key p.pad p.body.length then count s k (6 + g)
  else
    match key with
    | none => count s k 18
    | some key =>
      match unprotect key p i with
      | none => count s k (8 + g)
      | some body =>
        match (unpad p.pad body).filter (fun b => sizeOk s k b.length) with
        | none => count s k (6 + g)
        | some b =>
          if replayed l i then count s k (10 + g)
          else
            let s := modStream s k (fun st => { st.setLeg g (recordIndex l i) with nextUsed := st.nextUsed || next })
            let s := if next && !st.nextUsed then streamEv s k 0x409 key.keyId else s
            rxOrder k g p b arr (settleKey k s)

/-- A packet classified to leg `g` of receive stream `k` (04 R88): its RTP packet or AVTPDU, whether its UDP checksum is good,
and its arrival in the stream's time base. -/
def rxPacket (k g : Nat) (loop sumOk : Bool) (b : List Byte) (arr : Nat) (s : State) : State :=
  match tget s.streams k with
  | none => s
  | some st =>
    let c := st.cfg
    let s := count s k g
    if !bit st.legEn g then count s k (2 + g)
    else
      let (l, ok) := if loop then (st.leg g, true) else police s c (st.leg g)
      let s := modStream s k (·.setLeg g l)
      if !ok then count s k (4 + g)
      else
        match (if !sumOk then none else if isAaf (cFormat c) then parseAaf c b else parseRtp c b) with
        | none => count s k (6 + g)
        | some p =>
          if cKeyed c then rxKeyed k g p arr s
          else
            match unpad p.pad p.body with
            | some body => if sizeOk s k body.length then rxOrder k g p body arr s else count s k (6 + g)
            | none => count s k (6 + g)

/-! ### Silence and idle legs -/

/-- No leg has admitted a packet for L (04 R96); a stream that was never active is not silent. (DEDUCED, log entry 70.) -/
def noPacket (n : Nat) (s : State) : State :=
  match tget s.streams (skey 0 n) with
  | none => s
  | some st =>
    if st.rx.active && !st.rx.silent then streamEv (modStream s (skey 0 n) (fun st => { st with rx := { st.rx with silent := true } })) (skey 0 n) 0x402 0
    else s

def execNoPacketForL (stream : Nat) (s : State) : Host.Outcome State Fault Refusal := runMere s (noPacket stream)

/-- A leg has admitted no packet for L plus one packet time (04 R94). -/
def legIdle (n g : Nat) (s : State) : State :=
  match tget s.streams (skey 0 n) with
  | none => s
  | some st =>
    let l := st.leg (g % 2)
    if l.up then streamEv (modStream s (skey 0 n) (·.setLeg (g % 2) { l with up := false })) (skey 0 n) 0x404 (g % 2) else s

def execLegIdleTimeout (stream leg : Nat) (s : State) : Host.Outcome State Fault Refusal := runMere s (legIdle stream leg)

end Sys2Proof.Machine
end

