-- ==== Sys2Proof/Machine/Net.lean ====
section
/-! DEFINITION. Chapter 10: network ports, their frames, filters, flow control and counters. -/
namespace Sys2Proof.Machine

/-- Network port `p`, and the state with it changed. -/
def netPort (s : State) (p : Nat) : NetPort := tgetD s.netPorts p {}
def modNet (s : State) (p : Nat) (f : NetPort → NetPort) : State := { s with netPorts := tset s.netPorts p (f (netPort s p)) }

/-- A bit of NET_INT_STATUS sets; on its change from 0 to 1 while enabled NET_PORT is raised (10, 20 R376). -/
def netInt (s : State) (p b : Nat) : State :=
  let n := netPort s p
  if bit n.int b then s
  else
    let s := modNet s p (fun n => { n with int := setBit n.int b true })
    if bit n.intEn b then evD s 0x804 p 0 b else s

/-- Counter `i` of port `p` raised by `k`; bit 47 changing to 1 sets its bit of NET_CTR_HALF (10 R228). -/
def netCount (s : State) (p i k : Nat) : State :=
  let old := tgetD (netPort s p).ctr i 0
  let new := inc48 old k
  let s := modNet s p (fun n => { n with ctr := tset n.ctr i new })
  if !bit old 47 && bit new 47 then netInt (modNet s p (fun n => { n with half := setBit n.half i true })) p 1 else s

/-- Whether port `p` carries a leg of a stream, of either direction or of one only. -/
def portLegs (s : State) (p : Nat) : Bool := s.streams.any (fun e => (legOffs e.2.cfg).any (fun o => legPort e.2.cfg o == p))
def portTxLegs (s : State) (p : Nat) : Bool :=
  s.streams.any (fun e => decide (65536 ≤ e.1) && (legOffs e.2.cfg).any (fun o => legPort e.2.cfg o == p))

/-! ### Transmit (10 R215, R222 to R226) -/

/-- Whether the MAC puts its outer tag on a frame: with OUTER_EN on every one but a MAC control frame (10 R218). -/
def outerTagged (n : NetPort) (b : List Byte) : Bool := bit n.tagFlags 0 && fldBe b 12 2 != 0x8808

/-- A frame as the MAC sends it, with its outer tag and padded to 60 bytes without the FCS. -/
def macFrame (n : NetPort) (b : List Byte) : List Byte :=
  let tpid := if bit n.tagFlags 1 then 0x8100 else 0x88A8
  let b := if outerTagged n b then b.take 12 ++ putBe 2 tpid ++ putBe 2 n.outerTci ++ b.drop 12 else b
  b ++ zb (60 - b.length)

/-- The kind of a destination: 0 unicast, 1 multicast, 2 broadcast. -/
def dstKind (b : List Byte) : Nat := if b.take 6 = List.replicate 6 0xFF then 2 else if bit (fld b 0 1) 0 then 1 else 0

/-- Whether a network leg is fenced: single transmit, and the device does not drive the shared outputs (16 R326). -/
def netFenced (s : State) : Bool := role s != 0 && s.twin.txMode == 1 && !drivesShared s

/-- A frame leaves on the wire as `b`; with TX_EN 0 it is dropped (10 NET_OUT_EN). A packet of a leg that is fenced stays with its leg
(16 R326). -/
def netWire (s : State) (p : Nat) (h : TxHeld) (b : List Byte) : State :=
  if tripGet s (.netTxEn p) = 0 then netCount s p 46 1
  else match h.leg with
    | some (k, g) =>
      if netFenced s then modStream s k (fun st => st.setLeg g { st.leg g with fenced := some b }) else count (wire s) k (26 + g)
    | none => wire s
where
  /-- The frame on the wire, counted. -/
  wire (s : State) : State :=
    let m := macFrame (netPort s p) b
    emit (netCount (netCount (netCount s p 40 (m.length + 4)) p 41 1) p (42 + dstKind m) 1) (.netFrame p h.cls m)

/-- Whether the LC PLL of the port calibrates; 400GBASE-R uses those of both groups (10 R211). -/
def calibrating (s : State) (p : Nat) : Bool :=
  (if groupMode s (p / 4) = 1 then [0, 1] else [p / 4]).any (fun g => (tgetD s.netGroups g {}).pllCal)

/-- Whether class `c` of port `p` is held by pause. -/
def classHeld (s : State) (p c : Nat) : Bool := bit (netPort s p).held c

/-- A frame offered to port `p`: it is dropped without a link, held, or sent with `send` (10 R214, R215, R226). (DEDUCED, log entry 72.) -/
def netQueue (send : State → State) (s : State) (p : Nat) (h : TxHeld) : State :=
  let n := netPort s p
  let cal := calibrating s p
  if tripGet s (.netTxEn p) = 0 ∨ (!n.link ∧ !cal) then netCount s p 46 1
  else if cal ∧ h.ptp.isSome then netInt (netCount s p 45 1) p 4
  else if cal ∨ n.txLpi ∨ classHeld s p h.cls ∨ n.queue.any (fun x => x.cls == h.cls) then
    modNet s p (fun n => { n with queue := n.queue ++ [{ h with calib := cal }] })
  else send s

/-- A frame is sent; a PTP event message takes its egress stamp now, and a message that follows it is offered (13 R278). -/
def netSend (s : State) (p : Nat) (h : TxHeld) : State :=
  if tripGet s (.netTxEn p) = 0 then netCount s p 46 1
  else
    let (b, s, f) := ptpLeave s p h
    let s := netWire s p h b
    match f with
    | some f => netQueue (fun s => netWire s p f f.bytes) s p f
    | none => s

/-- The frames of port `p` that may leave now, highest class first, in order within a class (10 R222). -/
def netRelease (s : State) (p : Nat) : State :=
  let n := netPort s p
  let go := fun (h : TxHeld) => !n.txLpi && !classHeld s p h.cls && (!h.calib || (!calibrating s p && n.link))
  let out := (List.range 8).reverse.flatMap (fun c => n.queue.filter (fun h => h.cls == c && go h))
  let s := modNet s p (fun n => { n with queue := n.queue.filter (fun h => !go h) })
  out.foldl (fun s h => netSend s p h) s

/-- Transmit LPI ends: the frames that waited are sent (10 R227). -/
def endLpi (s : State) (p : Nat) : State := if (netPort s p).txLpi then netRelease (modNet s p (fun n => { n with txLpi := false })) p else s

/-- A leg's packet still held at its next slot is dropped (10 R224). -/
def netStale (s : State) (p : Nat) (l : Nat × Nat) : State :=
  if (netPort s p).queue.any (fun x => x.leg == some l) then
    netCount (modNet s p (fun n => { n with queue := n.queue.filter (fun x => x.leg != some l) })) p 47 1
  else s

/-- A frame offered to port `p`. Outlet holds one packet of a leg (10 R224), which no transmit LPI delays (R227). -/
def netOffer (s : State) (p : Nat) (h : TxHeld) : State :=
  let s := match h.leg with | some l => endLpi (netStale s p l) p | none => s
  netQueue (fun s => netSend s p h) s p h

/-- The held classes of port `p` become `m`; the time any class was held counts in NET_TX_PAUSED_US (10 R225, R228). -/
def setHeld (s : State) (p m : Nat) : State :=
  let n := netPort s p
  let s := modNet s p (fun n => { n with held := m })
  if n.held = 0 ∧ m ≠ 0 then modNet s p (fun n => { n with pausedAt := some s.mere })
  else if n.held ≠ 0 ∧ m = 0 then
    let cyc := s.mere - n.pausedAt.getD s.mere + n.pausedRem
    netCount (modNet s p (fun n => { n with pausedAt := none, pausedRem := cyc % 1200 })) p 51 (cyc / 1200)
  else s

/-- Pause for the classes of mask `m` with a quanta for each: a class in WD_HOLD ignores it (10 R225, R226). -/
def pauseClasses (s : State) (p m : Nat) (quanta : Nat → Nat) : State :=
  let n := netPort s p
  let new := (List.range 8).foldl (fun h c => if bit m c && !bit n.wdMask c then setBit h c (quanta c != 0) else h) n.held
  netRelease (setHeld s p new) p

/-! ### Flow-control timers -/

def execPauseHoldExpiry (port cls : Nat) (s : State) : Host.Outcome State Fault Refusal :=
  runMere s (fun s => if port < 8 ∧ cls < 8 then netRelease (setHeld s port (setBit (netPort s port).held cls false)) port else s)

/-- The watchdog ends a hold (10 R226). -/
def pauseWd (p c : Nat) (s : State) : State :=
  if p < 8 ∧ c < 8 ∧ classHeld s p c then
    let s := setHeld s p (setBit (netPort s p).held c false)
    let s := netCount (modNet s p (fun n => { n with wdMask := setBit n.wdMask c true })) p 50 1
    netRelease (netInt (evD s 0x803 p 0 c) p 2) p
  else s

def execPauseWdExpiry (port cls : Nat) (s : State) : Host.Outcome State Fault Refusal := runMere s (pauseWd port cls)

def execWdHoldExpiry (port cls : Nat) (s : State) : Host.Outcome State Fault Refusal :=
  runMere s (fun s => if port < 8 ∧ cls < 8 then modNet s port (fun n => { n with wdMask := setBit n.wdMask cls false }) else s)

/-- The oldest frame of class `c` that waits for the LC PLL is dropped (10 R215). -/
def txnrExpiry (p c : Nat) (s : State) : State :=
  match (netPort s p).queue.find? (fun h => h.cls == c && h.calib) with
  | none => s
  | some h => netInt (netCount (modNet s p (fun n => { n with queue := n.queue.erase h })) p 45 1) p 4

def execTxnrHoldExpiry (port cls : Nat) (s : State) : Host.Outcome State Fault Refusal := runMere s (txnrExpiry port cls)

/-! ### Energy-efficient Ethernet (10 R227) -/

/-- Whether port `p` is 10GBASE-R or 25GBASE-R. -/
def lpiPort (s : State) (p : Nat) : Bool := portExists s p && decide (5 ≤ groupMode s (p / 4))

/-- LPI_IDLE has passed with no frame queued. -/
def lpiIdle (p : Nat) (s : State) : State :=
  let n := netPort s p
  if lpiPort s p ∧ n.lpiEn = 1 ∧ n.link ∧ !n.txLpi ∧ n.queue.isEmpty ∧ !portTxLegs s p then
    emit (netCount (modNet s p (fun n => { n with txLpi := true })) p 52 1) (.linkSignal p 4)
  else s

def execLpiIdleExpiry (port : Nat) (s : State) : Host.Outcome State Fault Refusal := runMere s (lpiIdle port)

/-- The wake time of the mode has passed: the frames that waited are sent. -/
def execLpiWakeTimeExpiry (port : Nat) (s : State) : Host.Outcome State Fault Refusal :=
  runMere s (fun s => endLpi s port)

/-- The partner asserts or ends LPI. -/
def receiveLpi (p : Nat) (on : Bool) (s : State) : State :=
  if p < 8 ∧ lpiPort s p then
    let s := if on && !(netPort s p).rxLpi then netCount s p 28 1 else s
    modNet s p (fun n => { n with rxLpi := on })
  else s

def execReceiveLpiChange (port : Nat) (on : Bool) (s : State) : Host.Outcome State Fault Refusal := runMere s (receiveLpi port on)

/-! ### Links, modes, calibration and adaptation (10 R211 to R214) -/

/-- CORR_IN and CORR_OUT of a port mode, ps, without the lane deskew (13 R281). -/
def netCorr (mode fec : Nat) : Nat × Nat :=
  match mode with
  | 1 => (612000, 248000)
  | 2 => (636000, 262000)
  | 3 => (668000, 276000)
  | 4 => (702000, 290000)
  | 5 => if fec = 1 then (92000, 78000) else (598000, 196000)
  | _ => (118000, 96000)

/-- At link up the time engine takes the corrections of the mode; in multi-lane modes both include the deskew measured, a free value
(13 R281, log entry 1). (DESIGN CHOICE, log entry 77.) -/
def linkCorr (s : State) (p : Nat) : State :=
  let g := tgetD s.netGroups (p / 4) {}
  let (a, b) := netCorr g.mode g.fec
  let (d, s) := if g.mode ≤ 3 then drawBelow s (2 ^ 20) else (0, s)
  { s with tsPorts := tset s.tsPorts p { tgetD s.tsPorts p {} with corrIn := a + d, corrOut := b + d } }

/-- The link of port `p` goes down: NET_LINK, its counter, and every frame held but those that wait for the PLL is dropped. -/
def linkDrop (s : State) (p : Nat) : State :=
  if (netPort s p).link then
    let n := ((netPort s p).queue.filter (fun h => !h.calib)).length
    let s := modNet s p (fun n => { n with link := false, rxLpi := false, txLpi := false, queue := n.queue.filter (·.calib) })
    let s := netInt (netCount (netCount s p 53 1) p 46 n) p 0
    evD s 0x801 p 0 0
  else s

/-- Adaptation of the port's lanes asks for its credits; the lanes of 400GBASE-R are those of both groups (10 R213). -/
def askAdapt (s : State) (p : Nat) : State := (if groupMode s (p / 4) = 1 then [0, 1] else [p / 4]).foldl (fun s g => askWeir s 2 2 (.serdes g)) s

/-- A link is lost, and adaptation runs again (10 R213). -/
def linkDown (s : State) (p : Nat) : State := if (netPort s p).link then askAdapt (linkDrop s p) p else s

/-- A change of link state or of the faults the MAC sees (10 R214); after a loss of link adaptation asks for its credits
(R213). -/
def linkChange (p : Nat) (up lf rf : Bool) (s : State) : State :=
  if portExists s p then
    let s := modNet s p (fun n => { n with localFault := lf, remoteFault := rf })
    let s := if s.dev.safe then s else if lf then emit s (.linkSignal p 1) else if rf then emit s (.linkSignal p 2) else s
    if up then
      if (netPort s p).link ∨ calibrating s p ∨ s.dev.safe ∨ !bit s.clk.sds (p / 4) then s
      else
        let s := linkCorr (modNet s p (fun n => { n with link := true })) p
        netRelease (evD (netInt s p 0) 0x801 p 0 1) p
    else linkDown s p
  else s

def execNetLinkChange (port : Nat) (up localFault remoteFault : Bool) (s : State) : Host.Outcome State Fault Refusal :=
  run s (linkChange port up localFault remoteFault)

/-- One group takes a mode: idle lanes, dropped frames, PLL calibration, and no port until the change is complete (10 R212). -/
def setGroup (s : State) (g mode fec preset : Nat) : State :=
  let ps := range (4 * g) (4 * g + 4)
  let s := ps.foldl linkDrop s
  let s := ps.foldl (fun s p => netCount (modNet s p (fun n => { n with queue := [], adapting := false, localFault := false, remoteFault := false }))
    p 46 (netPort s p).queue.length) s
  { s with netGroups := tset s.netGroups g { mode := mode, fec := fec, preset := preset, pllCal := true, pending := true } }

/-- The configuration of a port that the new mode does not have returns to its defaults. -/
def clearConfig (s : State) (p : Nat) : State :=
  if portIn s p then s
  else
    modNet s p (fun n => { ({} : NetPort) with
      int := n.int, intEn := n.intEn, half := n.half, ctr := n.ctr
      held := n.held, wdMask := n.wdMask, pausedAt := n.pausedAt, pausedRem := n.pausedRem })

/-- The groups a GROUP value changes: a group that is part of a 400GBASE-R port takes the other with it (DEDUCED, log
entry 20). -/
def groupsOf (s : State) (g : Nat) : List Nat := if g = 2 then [0, 1] else if groupMode s g = 1 then [g, 1 - g] else [g]

/-- net.mode_set. -/
def planNetMode (c : Ctx) (s : State) : Plan :=
  let g := c.u8 0
  let mode := c.u8 1
  let gs := groupsOf s g
  { fails := failIf (decide (2 < g) || (mode == 1 && g != 2)) (.field 0) ++ failIf (decide (6 < mode)) (.field 1)
      ++ failIf (decide (1 < c.u8 2) || (c.u8 2 == 1 && mode != 5)) (.field 2) ++ failIf (decide (3 < c.u8 3)) (.field 3)
      ++ failIf ((List.range 8).any (fun p => gs.contains (p / 4) && portLegs s p)) (.conflict [])
    touch := gs.map .group
    pends := true
    act := fun s =>
      let s := gs.foldl (fun s h => if g = 2 ∨ h = g then setGroup s h mode (c.u8 2) (c.u8 3) else setGroup s h 0 0 0) s
      ((List.range 8).foldl clearConfig s, .pend (.netMode g) (gs.map .group)) }

def cmdNetMode : Cmd := { opcode := 0x0801, issuer := 'M', scope := 'D', least := 4, rsvd := [(4, 44)], plan := planNetMode }

def execNetModeSet (r : Req) (s : State) : Host.Outcome State Fault Refusal := runCmd cmdNetMode r s

/-- The ports of a mode change exist: adaptation asks for its credits, and the command completes (10 R211 to R213). -/
def netModeDone (g : Nat) (s : State) : State :=
  (pendingFor s (fun w => w == .netMode g)).foldl (fun s p =>
    let gs := (List.range 2).filter (fun h => p.holds.contains (.group h))
    let s := { s with netGroups := tmap s.netGroups (fun h x => if gs.contains h then { x with pending := false } else x) }
    finish (gs.foldl (fun s h => if groupMode s h = 0 then s else askWeir s 2 2 (.serdes h)) s) p 0 0) s

def execNetModeDone (group : Nat) (s : State) : Host.Outcome State Fault Refusal := runBase s (netModeDone group)

/-- Full calibration of an LC PLL ends: held frames leave once the link is up (10 R213, R215). -/
def pllDone (k : Nat) (s : State) : State :=
  if k < 2 ∧ thas s.netGroups k then
    let s := { s with netGroups := tmod s.netGroups k (fun g => { g with pllCal := false }) }
    (range (4 * k) (4 * k + 4)).foldl netRelease s
  else s

def execPllCalDone (k : Nat) (s : State) : Host.Outcome State Fault Refusal := runBase s (pllDone k)

/-- Adaptation at link start ends. -/
def execAdaptDone (port : Nat) (s : State) : Host.Outcome State Fault Refusal :=
  runBase s (fun s => if (netPort s port).adapting then netInt (modNet s port (fun n => { n with adapting := false })) port 5 else s)

/-! ### Frames as received (04 R76, R82; 10 R218) -/

/-- The tags of a frame from offset `o`, outermost first, at most `k`, as (TPID, TCI), and the offset of its EtherType. -/
def tagsFrom (b : List Byte) : Nat → Nat → List (Nat × Nat) × Nat
  | 0, o => ([], o)
  | k + 1, o =>
    if fldBe b o 2 = 0x8100 ∨ fldBe b o 2 = 0x88A8 then
      let (ts, e) := tagsFrom b k (o + 4)
      ((fldBe b o 2, fldBe b (o + 2) 2) :: ts, e)
    else ([], o)

/-- The tags of a frame: two, or one where the outer tag has been removed (10 R218). -/
def tagsOf (b : List Byte) (k : Nat) : List (Nat × Nat) × Nat := tagsFrom b k 12

/-- The VID that keys a frame: that of the inner tag; an 802.1ad tag or a priority tag does not count (04 R82). -/
def keyVid (tags : List (Nat × Nat)) : Nat :=
  match tags.getLast? with
  | some (tpid, tci) => if tpid = 0x8100 then tci % 4096 else 0
  | none => 0

/-- A UDP datagram: addresses as IPv6 or IPv4-mapped, ports, whether its checksum holds, and its data. -/
structure Udp where
  src   : List Byte
  dst   : List Byte
  sport : Nat
  dport : Nat
  sumOk : Bool
  data  : List Byte

/-- Where the UDP header of an IPv6 packet stands, behind extension headers: `h` is the next header, at offset `o`. -/
def udpBehind (b : List Byte) : Nat → Nat → Nat → Option Nat
  | 0, _, _ => none
  | n + 1, h, o =>
    let next := fld b o 1
    if h = 17 then some o
    else if h = 0 ∨ h = 43 ∨ h = 60 then udpBehind b n next (o + 8 + 8 * fld b (o + 1) 1)
    else if h = 51 then udpBehind b n next (o + 8 + 4 * fld b (o + 1) 1)
    else if h = 44 ∧ fldBe b (o + 2) 2 / 8 = 0 ∧ fldBe b (o + 2) 2 % 2 = 0 then udpBehind b n next (o + 8)
    else none

/-- The UDP datagram of an unfragmented IP packet at offset `o`; `strict` leaves out options and extension headers. -/
def udpAt (strict : Bool) (b : List Byte) (o etype : Nat) : Option Udp :=
  let body := b.drop o
  let mk := fun (src dst pseudo : List Byte) (u : List Byte) (v6 : Bool) =>
    let n := fldBe u 4 2
    let sum := fldBe u 6 2
    let good := fold16 (onesSum (pseudo ++ putBe 2 n ++ u.take n) 0) == 0xFFFF
    if u.length < 8 then none
    else some (Udp.mk src dst (fldBe u 0 2) (fldBe u 2 2) (decide (8 ≤ n ∧ n ≤ u.length) && (if sum = 0 then !v6 else good)) ((u.take n).drop 8))
  let ihl := fld body 0 1 % 16 * 4
  if etype = 0x0800 ∧ fld body 0 1 / 16 = 4 ∧ (ihl = 20 ∨ (!strict ∧ 20 < ihl)) ∧ fldBe body 6 2 % 0x4000 = 0 ∧ fld body 9 1 = 17 then
    let map := fun (a : List Byte) => zb 10 ++ [0xFF, 0xFF] ++ a
    mk (map (slice body 12 4)) (map (slice body 16 4)) (slice body 12 8 ++ [0, 17]) ((body.take (fldBe body 2 2)).drop ihl) false
  else if etype = 0x86DD then
    ((if strict then (if fld body 6 1 = 17 then some 40 else none) else udpBehind body 8 (fld body 6 1) 40)).bind (fun h =>
      mk (slice body 8 16) (slice body 24 16) (slice body 8 32 ++ [0, 17]) ((body.take (40 + fldBe body 4 2)).drop h) true)
  else none

/-- The UDP datagram of an IPv4 packet without options or fragments, or an IPv6 packet without extension headers, at offset
`o` (04 R76). -/
def udpOf (b : List Byte) (o etype : Nat) : Option Udp := udpAt true b o etype

/-- The legs of live receive streams that a predicate on the leg's record selects. -/
def rxLegs (s : State) (f : List Byte → Nat → Bool) : Option (Nat × Nat) :=
  (s.streams.flatMap (fun e =>
    if e.1 < 65536 ∧ e.2.live then ((legOffs e.2.cfg).filter (f e.2.cfg)).map (fun o => (e.1, (o - 48) / 48)) else [])).head?

/-- The RTP leg a datagram belongs to: looked up with its source fields, and only if that fails with them taken as any
(04 R82). -/
def rtpLeg (s : State) (p vid : Nat) (u : Udp) : Option (Nat × Nat) :=
  let base := fun (c : List Byte) (o : Nat) => !isAaf (cFormat c) && legPort c o == p && legVid c o == vid && slice c (o + 8) 16 == u.dst && fld c (o + 4) 2 == u.dport
  let srcIs := fun (c : List Byte) (o : Nat) => slice c (o + 24) 16 == u.src
  let srcAny := fun (c : List Byte) (o : Nat) => allZero (slice c (o + 24) 16)
  let portIs := fun (c : List Byte) (o : Nat) => fld c (o + 6) 2 == u.sport
  let portAny := fun (c : List Byte) (o : Nat) => fld c (o + 6) 2 == 0
  (rxLegs s (fun c o => base c o && srcIs c o && portIs c o)).or
    ((rxLegs s (fun c o => base c o && srcIs c o && portAny c o)).or
      ((rxLegs s (fun c o => base c o && srcAny c o && portIs c o)).or (rxLegs s (fun c o => base c o && srcAny c o && portAny c o))))

/-- The AAF leg a frame belongs to (04 R82). -/
def aafLeg (s : State) (p vid : Nat) (dst sid : List Byte) : Option (Nat × Nat) :=
  rxLegs s (fun c o => isAaf (cFormat c) && legPort c o == p && legVid c o == vid && slice c (o + 8) 6 == dst && slice c (o + 24) 8 == sid)

/-- A frame with at most `k` tags offered to the streams of port code `p`; none where no leg takes it (04 R83). -/
def streamFrame (s : State) (p tsp eighth k : Nat) (b : List Byte) : Option State :=
  let (tags, o) := tagsOf b k
  let et := fldBe b o 2
  let vid := keyVid tags
  let take := fun (l : Nat × Nat) (ok : Bool) (data : List Byte) =>
    let st := (tget s.streams l.1).getD default
    rxPacket l.1 l.2 false ok data (ingressStamp s tsp (cTb st.cfg) eighth) s
  if et = 0x22F0 then (aafLeg s p vid (b.take 6) (slice b (o + 6) 8)).map (fun l => take l true (b.drop (o + 2)))
  else
    match udpOf b (o + 2) et with
    | none => none
    | some u => (rtpLeg s p vid u).map (fun l => take l u.sumOk u.data)

/-! ### The receive path (10 R216 to R221) -/

/-- The class of a frame that is no PTP message (10 R217). -/
def frameClass (n : NetPort) (b : List Byte) (k : Nat) : Nat :=
  match (tagsOf b k).1 with
  | (_, tci) :: _ => tci / 8192
  | [] => n.rxClass

/-- Whether a filter matches (10 R219). -/
def filterHits (f b : List Byte) : Bool :=
  let off := fld f 4 2
  let sel := (List.range 128).filter (fun i => bit (fld f (16 + i / 8) 1) (i % 8))
  if sel.isEmpty then true
  else if b.length ≤ off + sel.getLast?.getD 0 then false
  else crc16 (sel.map (fun i => b.getD (off + i) 0)) == BitVec.ofNat 16 (fld f 6 2)

/-- The lowest enabled filter of port `p` that matches. -/
def filterOf (s : State) (p : Nat) (b : List Byte) : Option (Nat × List Byte) :=
  (s.filters.find? (fun e => bit (fld e.2 1 1) 0 && bit (fld e.2 2 1) p && filterHits e.2 b)).map (fun e => (e.1, e.2))

/-- Sundique's own frames, which filters 56 to 63 hold (10 R219): ARP, LLDP, neighbour discovery, IGMP and MLD queries, and
network control sessions. They go to Wellhead. (DEDUCED, log entry 73.) -/
def sundiqueFrame (s : State) (b : List Byte) (k : Nat) : Bool :=
  let o := (tagsOf b k).2
  let et := fldBe b o 2
  let ip := b.drop (o + 2)
  let icmp := if fld ip 6 1 = 58 then fld ip 40 1 else if fld ip 6 1 = 0 ∧ fld ip 40 1 = 58 then fld ip (48 + 8 * fld ip 41 1) 1 else 0
  et == 0x0806 || et == 0x88CC || (et == 0x86DD && (icmp == 130 || (decide (133 ≤ icmp) && decide (icmp ≤ 137))))
    || (et == 0x0800 && fld ip 9 1 == 2 && fld ip ((fld ip 0 1 % 16) * 4) 1 == 0x11)
    || (match udpOf b (o + 2) et with
      | none => false
      | some u => s.ctl.sessions.any (fun e => e.2.rights != 0 && e.2.udpPort == u.dport && (e.2.address == u.dst || e.2.address == u.src)))

/-- A frame delivered to the packet ring LQ of a tenant or of PF0, as an entry of KIND 1 (10 R219, R220); none where there is no such ring. -/
def toRing (s : State) (t lq src : Nat) (time : Nat × Nat) (b : List Byte) : Option State :=
  (findQ s t lq).bind (fun k => if ((tget s.queues k).map (·.typ)) = some 6 then some (d2hWrite s k 1 src (some time) b) else none)

/-- Whether the MAC of port `p` is in a power state other than Run: it is idle, and the device is not in Run (19 R365). -/
def macAsleep (s : State) (p : Nat) : Bool := s.pwr.state != 0 && !portLegs s p

/-- Whether a frame is a PTP message, over any IP packet that is no fragment (10 R216). -/
def isPtp (b : List Byte) (k : Nat) : Bool :=
  let o := (tagsOf b k).2
  let et := fldBe b o 2
  et == 0x88F7 || (match udpAt false b (o + 2) et with | some u => u.dport == 319 || u.dport == 320 | none => false)

/-- The corrected arrival of a frame on port `k` of PORTS in every time base that has an instance (13 R273). -/
def ptpStamps (s : State) (k eighth : Nat) : List (Nat × Int) :=
  (s.tbs.filter (fun e => e.2.profile != 0xFF)).map (fun e => (e.1, fullStamp s e.1 eighth + corrIn s (tsPortOf k)))

/-- A PTP message of a frame with at most `n` tags goes to Sundique's instances on port `k` of PORTS (10 R216, 13 R277); their answers. -/
def ptpRx (s : State) (k n : Nat) (xs : List (Nat × Int)) (b : List Byte) : State × List TxHeld :=
  let o := (tagsOf b n).2
  let et := fldBe b o 2
  if s.ctl.mgmtDown then (s, [])
  else if et = 0x88F7 then ptpMessage k 0 xs (b.drop (o + 2)) s
  else match udpAt false b (o + 2) et with
    | some u => if u.sumOk then ptpMessage k (if et = 0x0800 then 1 else 2) xs u.data s else (s, [])
    | none => (s, [])

/-! ### Inlet (10 R217; DEDUCED and DESIGN CHOICE, log entry 21) -/

/-- A frame reaches Inlet, which admits it by its class. It is delivered at once; its bytes stay in the buffer until PCIe or Wellhead has
taken them. -/
def inletOne (s : State) (p : Nat) (f : InFrame) : State :=
  if (f.cls + 1) * 524288 < s.inlet + f.len then netCount s p (32 + f.cls) 1
  else
    let s := { s with inlet := s.inlet + f.len }
    match f.ring with
    | some (t, lq, src, time) => (toRing s t lq src time f.bytes).getD (netCount s p 22 1)
    | none =>
      let (s, out) := ptpRx s p f.tags f.stamps f.bytes
      out.foldl (fun s h => netOffer s p h) s

/-- The MAC buffer feeds Inlet until it meets a frame for which Inlet refuses class 7. -/
def macFeed (p : Nat) : List InFrame → State → State
  | [], s => modNet s p (fun n => { n with macBuf := [] })
  | f :: fs, s => if 4194304 < s.inlet + f.len then modNet s p (fun n => { n with macBuf := f :: fs }) else macFeed p fs (inletOne s p f)

/-- `n` bytes have left Inlet. -/
def inletDrain (s : State) (n : Nat) : State :=
  (List.range 8).foldl (fun s p => if (netPort s p).macBuf.isEmpty then s else macFeed p (netPort s p).macBuf s) { s with inlet := s.inlet - n }

/-- A frame for Inlet: while that refuses class 7 it waits in the MAC buffer, if it fits whole. -/
def inletOffer (s : State) (p : Nat) (f : InFrame) : State :=
  let n := netPort s p
  if n.macBuf.isEmpty ∧ s.inlet + f.len ≤ 4194304 then inletOne s p f
  else if (n.macBuf.map (·.len)).sum + f.len ≤ 262144 then modNet s p (fun n => { n with macBuf := n.macBuf ++ [f] })
  else netInt (netCount s p 19 1) p 3

/-- Steps 7 to 9: filters, fall-back, admission. `len` is the frame's length as received, `k` the tags it may have. -/
def toHost (s : State) (p eighth len k : Nat) (b : List Byte) : State :=
  let n := netPort s p
  let time := ringStamp s p eighth
  let ring := fun (t lq src : Nat) => inletOffer s p ⟨frameClass n b k, len, b, k, some (t, lq, src, time), []⟩
  match filterOf s p b with
  | some (i, f) =>
    if bit (fld f 1 1) 1 && macAsleep s p then wake (evD (netInt (netCount s p 24 1) p 6) 0x802 p 0 i)
    else if bit (fld f 1 1) 2 then netCount s p 23 1
    else ring (fld f 8 2) (fld f 12 4) i
  | none =>
    if sundiqueFrame s b k then inletOffer s p ⟨frameClass n b k, len, b, k, none, []⟩
    else
      let ok := b.take 6 == n.mac || (dstKind b == 2 && bit n.rxFlags 0) || (dstKind b == 1 && bit n.rxFlags 1) || bit n.rxFlags 2
      if ok && n.defRing != 0xFFFFFFFF then ring n.defTenant n.defRing 0xFFFF else netCount s p 22 1

/-- Steps 2 to 6. -/
def rxGood (s : State) (p eighth len : Nat) (b : List Byte) : State :=
  let n := netPort s p
  if fldBe b 12 2 = 0x8808 then
    match fldBe b 14 2 with
    | 1 => let s := netCount s p 17 1
           if n.pauseMode = 1 then pauseClasses s p 0xFF (fun _ => fldBe b 16 2) else s
    | 0x101 =>
      let s := netCount s p 18 1
      if n.pauseMode = 2 then pauseClasses s p (fldBe b 16 2 % 256 &&& n.pfcEn) (fun c => fldBe b (18 + 2 * c) 2) else s
    | _ => netCount s p 29 1
  else if s.ctl.stage ≠ 4 then netCount s p 20 1
  else
    let outer := bit n.tagFlags 0
    let mine := fldBe b 12 2 == (if bit n.tagFlags 1 then 0x8100 else 0x88A8) && fldBe b 14 2 % 4096 == n.outerTci % 4096
    if outer && !mine then netCount s p 21 1
    else
      let b := if outer then b.take 12 ++ b.drop 16 else b
      let k := if outer then 1 else 2
      if isPtp b k then inletOffer s p ⟨7, len, b, k, none, ptpStamps s p eighth⟩
      else
        match streamFrame s p p eighth k b with
        | some s => s
        | none => toHost s p eighth len k b

/-- The counter of a good frame's length. -/
def sizeClass (n : Nat) : Nat :=
  if n ≤ 64 then 10 else if n ≤ 127 then 11 else if n ≤ 255 then 12 else if n ≤ 511 then 13 else if n ≤ 1023 then 14 else if n ≤ 1518 then 15 else 16

/-- Whether RS-FEC runs on port `p` (10 R211). -/
def fecOn (s : State) (p : Nat) : Bool :=
  let g := tgetD s.netGroups (p / 4) {}
  decide (1 ≤ g.mode ∧ g.mode ≤ 5) && g.fec != 1

/-- What RS-FEC has counted (10 R228). -/
def fecCount (s : State) (p : Nat) (f : Nat × Nat × Nat) : State :=
  if fecOn s p then netCount (netCount (netCount s p 25 f.1) p 26 f.2.1) p 27 f.2.2 else s

/-- A frame arrives on port `p` (10 R216). On a port without link it is lost. -/
def netRx (p : Nat) (f : RxFrame) (s : State) : State :=
  let s := inletDrain s f.taken
  let n := netPort s p
  let len := f.bytes.length + 4
  if !portExists s p ∨ !n.link then s
  else
    let s := fecCount s p f.fec
    if len < 64 then netCount s p (if f.fcsOk then 6 else 7) 1
    else if n.maxFrame < len then netCount s p (if f.fcsOk then 8 else 9) 1
    else if !f.fcsOk then netCount s p 5 1
    else
      let s := netCount (netCount (netCount (netCount s p 0 len) p 1 1) p (2 + dstKind f.bytes) 1) p (sizeClass len) 1
      rxGood s p f.eighth len f.bytes

def execNetRxFrame (port : Nat) (f : RxFrame) (s : State) : Host.Outcome State Fault Refusal := runMere s (netRx port f)

/-! ### net.port_config, net.filter_set, net.stats, net.tx_allow -/

/-- A ring field names a device-to-host packet ring of a tenant. -/
def isPacketRing (s : State) (t lq : Nat) : Bool :=
  match (findQ s t lq).bind (tget s.queues) with
  | some q => q.typ == 6 && (q.context.map (·.link)) == some 0xFFFF
  | none => false

/-- The configuration of a port after net.port_config: the groups MASK selects. -/
def configPort (c : Ctx) (n : NetPort) : NetPort :=
  let m := c.u8 1
  let n := if bit m 0 then { n with mac := slice c.p 2 6 } else n
  let n := if bit m 1 then { n with maxFrame := c.u16 8 } else n
  let n := if bit m 2 then { n with rxFlags := c.u8 10, rxClass := c.u8 11, defTenant := c.u16 12, defRing := c.u32 16 } else n
  let n := if bit m 3 then { n with tagFlags := c.u8 20, outerTci := c.u16 22 } else n
  let n := if bit m 4 then { n with pauseMode := c.u8 24, pfcEn := c.u8 25, pauseWd := c.u8 26, wdHold := c.u16 28 } else n
  let n := if bit m 5 then { n with txnrHold := c.u8 30, hostClass := c.u8 31 } else n
  if bit m 6 then { n with lpiEn := c.u8 32, lpiIdle := c.u16 34 } else n

/-- net.port_config: only the groups MASK selects are checked (22 R425). -/
def planPortConfig (c : Ctx) (s : State) : Plan :=
  let p := c.u8 0
  let m := c.u8 1
  change (failIf (decide (8 ≤ p) || !portExists s p) (.field 0) ++ failIf (bit m 7) (.field 1)
      ++ (if bit m 1 then failIf (!(decide (1522 ≤ c.u16 8) && decide (c.u16 8 ≤ 9216))) (.field 8) else [])
      ++ (if bit m 2 then
          failIf (decide (8 ≤ c.u8 10)) (.field 10) ++ failIf (decide (6 < c.u8 11)) (.field 11) ++ failIf (!tenantField s (c.u16 12)) (.field 12)
            ++ failIf (c.u32 16 != 0xFFFFFFFF && !isPacketRing s (c.u16 12) (c.u32 16)) (.field 16)
        else [])
      ++ (if bit m 3 then failIf (decide (4 ≤ c.u8 20)) (.field 20) else [])
      ++ (if bit m 4 then
          failIf (decide (2 < c.u8 24)) (.field 24) ++ failIf (c.u8 26 == 0 || decide (200 < c.u8 26)) (.field 26)
            ++ failIf (c.u16 28 == 0 || decide (10000 < c.u16 28)) (.field 28)
        else [])
      ++ (if bit m 5 then failIf (decide (200 < c.u8 30)) (.field 30) ++ failIf (decide (4 < c.u8 31)) (.field 31) else [])
      ++ (if bit m 6 then
          failIf (decide (1 < c.u8 32) || (c.u8 32 == 1 && !lpiPort s p)) (.field 32)
            ++ failIf (!(decide (10 ≤ c.u16 34) && decide (c.u16 34 ≤ 1000))) (.field 34)
        else []))
    [.group (p / 4)] (fun s => modNet s p (configPort c))

def cmdPortConfig : Cmd :=
  { opcode := 0x0802, issuer := 'M', scope := 'D', least := 36, rsvd := [(14, 2), (21, 1), (27, 1), (33, 1), (36, 12)], plan := planPortConfig }

def execNetPortConfig (r : Req) (s : State) : Host.Outcome State Fault Refusal := runCmd cmdPortConfig r s

/-- net.filter_set. -/
def planFilter (c : Ctx) (s : State) : Plan :=
  change (failIf (decide (55 < c.u8 0)) (.field 0) ++ failIf (decide (8 ≤ c.u8 1)) (.field 1) ++ failIf (decide (1023 < c.u16 4)) (.field 4)
      ++ failIf (!tenantField s (c.u16 8)) (.field 8) ++ failIf (!bit (c.u8 1) 2 && !isPacketRing s (c.u16 8) (c.u32 12)) (.field 12))
    [] (fun s => { s with filters := tset s.filters (c.u8 0) (fit 48 c.p) })

def cmdFilter : Cmd := { opcode := 0x0803, issuer := 'M', scope := 'D', least := 32, rsvd := [(3, 1), (10, 2), (32, 16)], plan := planFilter }

def execNetFilterSet (r : Req) (s : State) : Host.Outcome State Fault Refusal := runCmd cmdFilter r s

/-- A counter of a port as read: NET_TX_PAUSED_US includes the hold that lasts (10 R228). -/
def netCtr (s : State) (p i : Nat) : Nat :=
  let n := netPort s p
  let v := tgetD n.ctr i 0
  if i = 51 then match n.pausedAt with | some a => inc48 v ((s.mere - a + n.pausedRem) / 1200) | none => v else v

/-- net.stats: 64 words. -/
def planNetStats (c : Ctx) (s : State) : Plan :=
  resultAt c 8 (indirectFails c ++ failIf (decide (8 ≤ c.u8 0)) (.field 0)) ((List.range 64).flatMap (fun i => le8 (netCtr s (c.u8 0) i)))

def cmdNetStats : Cmd := { opcode := 0x0804, issuer := 'M', scope := 'D', query := true, least := 16, plan := planNetStats }

def execNetStats (r : Req) (s : State) : Host.Outcome State Fault Refusal := runCmd cmdNetStats r s

/-- net.tx_allow. -/
def planTxAllow (c : Ctx) (s : State) : Plan :=
  change (failIf (!thas s.tenants (c.u16 0)) (.field 0)) [.tenant (c.u16 0)] (fun s => modTenant s (c.u16 0) (fun x => { x with txMask := c.u8 2 }))

def cmdTxAllow : Cmd := { opcode := 0x0805, issuer := 'M', scope := 'D', least := 3, plan := planTxAllow }

def execNetTxAllow (r : Req) (s : State) : Host.Outcome State Fault Refusal := runCmd cmdTxAllow r s

end Sys2Proof.Machine
end

