-- ==== Sys2Proof/Machine/Field.lean ====
section
/-! DEFINITION. Chapter 11: field ports, PLCA and CSMA/CD, station keys and GPIO keys. -/
namespace Sys2Proof.Machine

/-- Field port `p`, and the state with it changed. -/
def fldPort (s : State) (p : Nat) : FldPort := tgetD s.fld p {}
def modFld (s : State) (p : Nat) (f : FldPort → FldPort) : State := { s with fld := tset s.fld p (f (fldPort s p)) }

/-- Counter `i` of field port `p` raised by `k`, with its half-range bit (11 R246). -/
def fldCount (s : State) (p i k : Nat) : State :=
  modFld s p (fun f =>
    let old := tgetD f.ctr i 0
    let new := inc48 old k
    { f with ctr := tset f.ctr i new, half := if !bit old 47 && bit new 47 then setBit f.half i true else f.half })

/-- Whether field port `p` carries a stream leg, or a transmit leg. -/
def fldLegs (s : State) (p : Nat) : Bool := portLegs s (16 + p)
def fldTxLegs (s : State) (p : Nat) : Bool := portTxLegs s (16 + p)

/-- Whether the port is in a power state other than Run (11 R245). -/
def fldAsleep (s : State) (p : Nat) : Bool := s.pwr.state != 0 && !fldLegs s p

/-- Whether the PHY transmitter may act: configured, enabled, and the device drives the shared outputs (11 R230, 16 R326). -/
def fldMaySend (s : State) (p : Nat) : Bool := (fldPort s p).configured && tripGet s (.fldTxEn p) != 0 && drivesShared s

/-! ### Transmit (11 R231 to R236) -/

/-- A frame is on the medium as `b`. -/
def fldPut (s : State) (p : Nat) (h : TxHeld) (b : List Byte) : State :=
  let b := b ++ zb (60 - b.length)
  let s := fldCount (fldCount s p 6 (b.length + 4)) p 7 1
  let s := match h.leg with | some (k, g) => count s k (26 + g) | none => s
  emit s (.fldFrame p b)

/-- A frame leaves the port, a PTP event message with its egress stamp of this instant; the message that follows it goes right behind it under
CSMA/CD, and in the port's next opportunity under PLCA (13 R278). -/
def fldSend (s : State) (p : Nat) (h : TxHeld) : State :=
  let (b, s, f) := ptpLeave s (8 + p) h
  let s := fldPut s p h b
  match f with
  | none => s
  | some f =>
    if (fldPort s p).plca then modFld s p (fun x => { x with queue := x.queue ++ [f] })
    else fldPut (modFld s p (fun x => { x with behind := x.behind ++ [f] })) p f f.bytes

/-- CSMA/CD sends frames one behind the other: they stay at hand until the first of them has met no collision. -/
def fldGo (s : State) (p : Nat) (hs : List TxHeld) : State :=
  match hs with
  | [] => s
  | h :: rest =>
    rest.foldl (fun s h => fldSend s p h) (fldSend (modFld s p (fun f => { f with cur := some h, attempts := 0, backing := false, behind := rest })) p h)

/-- Frames that waited for a transmit opportunity are sent by CSMA/CD once the port has fallen back to it, behind a frame that is in
back-off (11 R233). -/
def fldFall (s : State) (p : Nat) : State :=
  let f := fldPort s p
  if f.plca || f.backing || !fldMaySend s p then s else fldGo (modFld s p (fun f => { f with queue := [] })) p f.queue

/-- A frame of the host or of Sundique offered to a field port. -/
def fldOffer (s : State) (p : Nat) (h : TxHeld) : State :=
  let f := fldPort s p
  if tripGet s (.fldTxEn p) = 0 then fldCount s p 12 1
  else if !fldMaySend s p then s
  else if f.plca || f.backing then modFld s p (fun f => { f with queue := f.queue ++ [h] })
  else fldGo s p [h]

/-- A stream packet offered to a field port waits for the next cycle, until its bound (11 R235, R236). -/
def fldOfferLeg (s : State) (p : Nat) (h : TxHeld) : State :=
  if tripGet s (.fldTxEn p) = 0 then fldCount s p 12 1 else modFld s p (fun f => { f with legPkts := f.legPkts ++ [h] })

/-- The oldest packet of the leg cannot begin within W + 30 us of its slot (11 R236). -/
def fldDeadline (p : Nat) (s : State) : State :=
  if (fldPort s p).legPkts.isEmpty then s else fldCount (modFld s p (fun f => { f with legPkts := f.legPkts.drop 1 })) p 12 1

def execFldPacketDeadline (port : Nat) (s : State) : Host.Outcome State Fault Refusal := runMere s (fldDeadline port)

/-- The settings of fld.port_config come into force (11). A coordinator beacons at once. -/
def fldApply (s : State) (p : Nat) (c : List Byte) : State :=
  let old := fldPort s p
  let s := modFld s p (fun f => { f with
    configured := true, role := fld c 1 1, nodeId := fld c 2 1, nodeCount := fld c 3 1, toTimer := fld c 4 1, burstCount := fld c 5 1
    burstTimer := fld c 6 1, wakeEn := bit (fld c 7 1) 0, maxNode := fld c 8 2, tenant := fld c 10 2, defRing := fld c 12 4, mac := slice c 16 6
    keyEtype := fld c 22 2, keyTimeout := fld c 24 2, stuckTime := fld c 26 2, staged := none })
  let s := if fld c 1 1 = old.role ∧ old.configured then s else modFld s p (fun f => { f with plca := f.role == 1, lost := false })
  let s := if fld c 22 2 = old.keyEtype then s
    else { s with keys := tmap s.keys (fun k n => if k / 256 = p then { n with first := true } else n) }
  fldFall { s with tsPorts := tset s.tsPorts (16 + p) { tgetD s.tsPorts (16 + p) {} with corrIn := 1210000, corrOut := 640000 } } p

/-- One PLCA cycle of the port: staged settings apply at its boundary; in its own opportunity the node sends the leg's packet first,
then frames of its queue, at most 1 + BURST_COUNT in all (11 R231, R235). `overran` says that the cycle before was longer
than W (R236). -/
def plcaCycle (p : Nat) (overran : Bool) (s : State) : State :=
  let s := match (fldPort s p).staged with | some c => fldApply s p c | none => s
  let s := if overran then fldCount s p 11 1 else s
  let f := fldPort s p
  if !f.plca || !fldMaySend s p then s
  else
    let s := if f.role = 1 then emit s (.fldSignal p 0) else s
    let n := 1 + f.burstCount
    let m := n - f.legPkts.length
    let s := modFld s p (fun f => { f with legPkts := f.legPkts.drop n, queue := f.queue.drop m })
    (f.legPkts.take n ++ f.queue.take m).foldl (fun s h => fldSend s p h) s

def execPlcaCycle (port : Nat) (overran : Bool) (s : State) : Host.Outcome State Fault Refusal :=
  runMere s (fun s => if port < 16 then plcaCycle port overran s else s)

/-- A follower sees no BEACON while the medium stays idle (11 R233). -/
def beaconTimeout (p : Nat) (s : State) : State :=
  let f := fldPort s p
  if p < 16 ∧ f.role = 2 ∧ f.plca then
    fldFall (evT (fldCount (modFld s p (fun f => { f with plca := false, lost := true })) p 18 1) f.tenant 0x814 p 0 0) p
  else s

def execPlcaBeaconTimeout (port : Nat) (s : State) : Host.Outcome State Fault Refusal := runMere s (beaconTimeout port)

/-- One second without a foreign BEACON (11 R233). -/
def beaconResume (p : Nat) (s : State) : State :=
  let f := fldPort s p
  if p < 16 ∧ f.role = 1 ∧ !f.plca ∧ f.lost then evT (modFld s p (fun f => { f with plca := true, lost := false })) f.tenant 0x815 p 0 1 else s

def execBeaconResume (port : Nat) (s : State) : Host.Outcome State Fault Refusal := runMere s (beaconResume port)

/-- A BEACON is received (11 R233). -/
def fldBeacon (p : Nat) (s : State) : State :=
  let f := fldPort s p
  if f.role = 2 ∧ !f.plca then
    let s := modFld s p (fun f => { f with plca := true, lost := false })
    if f.lost then evT s f.tenant 0x815 p 0 0 else s
  else if f.role = 1 then
    let s := fldCount s p 17 1
    if f.plca then fldFall (evT (fldCount (modFld s p (fun f => { f with plca := false, lost := true })) p 18 1) f.tenant 0x814 p 0 1) p else s
  else s

/-- A frame that met a collision is not counted as sent. -/
def fldUncount (s : State) (p : Nat) (h : TxHeld) : State := fldCount (fldCount s p 6 (2 ^ 48 - max 64 (h.bytes.length + 4))) p 7 (2 ^ 48 - 1)

/-- A collision of the frame CSMA/CD has on the medium (11 R232): a jam; late, it is dropped; after the 16th it is dropped; else
the port backs off for a number of slots it draws. The frame was counted when it started, and counts again when it is sent
again; so do those behind it, which wait for it or, where it is dropped, follow (log entry 24). A message that follows a PTP event message
up is made anew when that is sent again. -/
def collide (p : Nat) (late : Bool) (s : State) : State :=
  let f := fldPort s p
  match f.cur with
  | none => s
  | some h =>
    if !fldMaySend s p then s else
    let s := (h :: f.behind).foldl (fun s h => fldUncount s p h) (fldCount s p 8 1)
    let s := emit s (.fldSignal p 1)
    let rest := f.behind.filter (!·.follow)
    let next := fun (s : State) => fldGo (modFld s p (fun f => { f with cur := none, backing := false, behind := [] })) p rest
    if late then fldCount (next s) p 10 1
    else if 15 ≤ f.attempts then fldCount (next s) p 9 1
    else
      let (_, s) := drawBelow s (2 ^ min (f.attempts + 1) 10)
      modFld s p (fun f => { f with attempts := f.attempts + 1, backing := true, queue := rest ++ f.queue, behind := [] })

def execCollision (port : Nat) (late : Bool) (s : State) : Host.Outcome State Fault Refusal := runMere s (collide port late)

/-- The back-off ends: the frame is sent again, then those that waited behind it, unless PLCA has come back and gives them an
opportunity of their own (11 R233). -/
def backoffEnd (p : Nat) (s : State) : State :=
  let f := fldPort s p
  match f.cur with
  | some h =>
    if f.backing ∧ fldMaySend s p then
      let rest := if f.plca then [] else f.queue
      let s := fldSend (modFld s p (fun f => { f with backing := false, behind := rest, queue := f.queue.drop rest.length })) p h
      rest.foldl (fun s h => fldSend s p h) s
    else s
  | none => s

def execBackoffExpiry (port : Nat) (s : State) : Host.Outcome State Fault Refusal := runMere s (backoffEnd port)

/-! ### Sundique's PTP instances (13 R277) -/

/-- Whether port `k` of PORTS carries PTP: a network port with its link up, a field port that is configured. -/
def ptpUp (s : State) (k : Nat) : Bool := if k < 8 then portExists s k && (netPort s k).link else (fldPort s (k - 8)).configured

/-- A millisecond of the PTP instances, while Sundique runs: what they send goes to its port. -/
def ptpRun (s : State) : State :=
  if s.ctl.stage = 4 ∧ !s.ctl.mgmtDown then
    let (s, out) := ptpTick s (ptpUp s)
    out.foldl (fun s x => if x.1 < 8 then netOffer s x.1 x.2 else fldOffer s (x.1 - 8) x.2) s
  else s

/-! ### Delivered key state (11 R241 to R243) -/

/-- The object code of a key (11 R243). -/
def keyObj (src port node key : Nat) : Nat := src * 2 ^ 24 + port * 2 ^ 16 + node * 256 + key

/-- One change of a delivered state: FLD_KEY, and Pool (a standby takes its key transitions from the active device, 06 R152). -/
def keyChange (s : State) (t src port node key : Nat) (held : Bool) (cause : Nat) : State :=
  let s := if follows s then s else modTenant (keyToPool s t src port node key held) t (fun x => { x with keyed := x.keyed ++ [(src, port, node, key, held)] })
  evT s t 0x811 (keyObj src port node key) (b2n held) cause

/-- The keys of a node in mask `m` take the delivered state that its raw state gives. -/
def deliverKeys (s : State) (p n m cause : Nat) : State :=
  let k := tgetD s.keys (256 * p + n) {}
  let on := fun (i : Nat) => bit k.raw i && !bit k.blocked i && !bit k.latched i && !k.absent
  let new := (List.range 16).foldl (fun d i => if bit m i then setBit d i (on i) else d) k.delivered
  let s' := { s with keys := tset s.keys (256 * p + n) { k with delivered := new } }
  (List.range 16).foldl (fun s i => if bit k.delivered i == bit new i then s else keyChange s (fldPort s p).tenant 0 p n i (bit new i) cause) s'

/-- A node's delivered state becomes what its raw state gives. -/
def deliverNode (s : State) (p n cause : Nat) : State := deliverKeys s p n 0xFFFF cause

/-- Every node's state is delivered once the device is in Run (11 R245). -/
def deliverAll (s : State) : State := s.keys.foldl (fun s e => deliverNode s (e.1 / 256) (e.1 % 256) 0) s

/-- A key frame (11 R238 to R241). -/
def keyFrame (p opp : Nat) (b : List Byte) (s : State) : State :=
  let f := fldPort s p
  let d := b.drop 14
  let n := fld d 2 1
  let seq := fld d 3 1
  let held := fldBe d 4 2
  let s := fldCount s p 13 1
  let i := 256 * p + n
  let k := tgetD s.keys i {}
  if fld d 0 1 ≠ 1 ∨ fld d 1 1 ≠ 1 ∨ !allZero (slice d 6 2) then fldCount s p 14 1
  else if f.plca ∧ opp ≠ n then fldCount s p 16 1
  else if thas s.keys i ∧ !k.absent ∧ nearest 256 k.seq seq ≤ k.seq then fldCount s p 15 1
  else
    let asleep := fldAsleep s p
    let press := (List.range 16).any (fun j => bit held j && !bit k.raw j)
    let k' : KeyNode :=
      if k.first then { seq := seq, raw := held, delivered := k.delivered, blocked := held, latched := 0, absent := false, first := false }
      else { k with seq := seq, raw := held, blocked := k.blocked &&& held, latched := k.latched &&& held, absent := false }
    let s := { s with keys := tset s.keys i k' }
    if asleep then
      if press && f.wakeEn then wake (fldCount (evD s 0x816 p 0 n) p 20 1) else s
    else deliverNode s p n 0

/-- No accepted key frame for KEY_TIMEOUT (11 R240). -/
def nodeAbsent (p n : Nat) (s : State) : State :=
  let i := 256 * p + n
  match tget s.keys i with
  | none => s
  | some k =>
    if k.absent then s
    else
      let s := { s with keys := tset s.keys i { k with absent := true, first := true, latched := 0, blocked := 0, raw := 0 } }
      evT (deliverNode s p n 2) (fldPort s p).tenant 0x813 (p * 2 ^ 16 + n * 256) 0 0

def execKeyTimeout (port node : Nat) (s : State) : Host.Outcome State Fault Refusal :=
  runMere s (fun s => if port < 16 ∧ node < 256 then nodeAbsent port node s else s)

/-- A GPIO key's state is delivered. -/
def deliverGpio (s : State) (pin cause : Nat) : State :=
  match tget s.gpioKeys pin with
  | none => s
  | some k =>
    let on := k.raw && !k.blocked && !k.latched
    let s := { s with gpioKeys := tset s.gpioKeys pin { k with delivered := on } }
    if on == k.delivered then s else keyChange s k.tenant 1 pin 0 0 on cause

/-- A key delivered as held for STUCK_TIME is latched off (11 R242). -/
def keyStuck (src port node key : Nat) (s : State) : State :=
  if src = 0 then
    let i := 256 * port + node
    let k := tgetD s.keys i {}
    if bit k.delivered key ∧ node < 256 ∧ key < 16 then
      let s := deliverKeys { s with keys := tset s.keys i { k with latched := setBit k.latched key true } } port node (2 ^ key) 1
      evT s (fldPort s port).tenant 0x812 (keyObj 0 port node key) 0 0
    else s
  else
    match tget s.gpioKeys port with
    | some k =>
      if k.delivered then
        evT (deliverGpio { s with gpioKeys := tset s.gpioKeys port { k with latched := true } } port 1) k.tenant 0x812 (keyObj 1 port 0 0) 0 0
      else s
    | none => s

def execStuckTimeExpiry (src port node key : Nat) (s : State) : Host.Outcome State Fault Refusal := runMere s (keyStuck src port node key)

/-- A debounced level of a GPIO key pin is accepted (11 R244). -/
def gpioLevel (pin : Nat) (level : Bool) (s : State) : State :=
  match tget s.gpioKeys pin with
  | none => s
  | some k =>
    let held := level == (k.polarity == 1)
    let k := if k.first then { k with raw := held, blocked := held, first := false } else { k with raw := held, blocked := k.blocked && held, latched := k.latched && held }
    deliverGpio { s with gpioKeys := tset s.gpioKeys pin k } pin 0

def execGpioDebounceAccept (pin : Nat) (level : Bool) (s : State) : Host.Outcome State Fault Refusal := runBase s (gpioLevel pin level)

/-! ### The receive path (11 R237) -/

/-- A frame received on field port `p` in opportunity `opp`. One that passes the first step enters the receive buffer, from which `f.taken`
bytes have gone (log entry 21). (DEDUCED, log entry 75.) -/
def fldFrame (p : Nat) (f : RxFrame) (opp : Nat) (s : State) : State :=
  let len := f.bytes.length + 4
  let x := fldPort s p
  let b := f.bytes
  let isKey := fldBe b 12 2 == x.keyEtype
  let fill := x.rxFill - f.taken
  let s := modFld s p (fun x => { x with rxFill := fill })
  if !f.fcsOk ∨ len < 64 ∨ 1522 < len then fldCount s p 2 1
  else if 32768 < fill + len then fldCount s p 3 1
  else
    let s := fldCount (fldCount (modFld s p (fun x => { x with rxFill := fill + len })) p 0 len) p 1 1
    if s.ctl.stage ≠ 4 ∨ !x.configured then fldCount s p 5 1
    else if fldAsleep s p ∧ !isKey then fldCount s p 19 1
    else if isPtp b 2 then
      let (s, out) := ptpRx s (8 + p) 2 (ptpStamps s (8 + p) f.eighth) b
      out.foldl (fun s h => fldOffer s p h) s
    else if isKey then keyFrame p opp b s
    else
      match streamFrame s (16 + p) (16 + p) f.eighth 2 b with
      | some s => s
      | none => (if x.defRing = 0xFFFFFFFF then none else toRing s x.tenant x.defRing 0xFFFF (ringStamp s (16 + p) f.eighth) b).getD (fldCount s p 4 1)

/-- What a field port receives. -/
def fldReceive (p : Nat) (x : FldRx) (s : State) : State :=
  match x with
  | .beacon => fldBeacon p s
  | .frame f opp => fldFrame p f opp s

def execFldRxFrame (port : Nat) (f : FldRx) (s : State) : Host.Outcome State Fault Refusal :=
  runMere s (fun s => if port < 16 then fldReceive port f s else s)

/-! ### Commands -/

/-- Whether any key bind or stream leg uses field port `p`. -/
def fldInUse (s : State) (p : Nat) : Bool :=
  fldLegs s p || s.tenants.any (fun e => e.2.mix.buses.any (fun b => b.2.xps.any (fun x => match x.bind with | some k => k.src == 0 && k.port == p | none => false)))

/-- Whether 11 R234 still holds for every open transmit leg of port `p` under a configuration. -/
def fldLegsFit (s : State) (p : Nat) (f : FldPort) : Bool :=
  s.streams.all (fun e =>
    !(decide (65536 ≤ e.1) && (legOffs e.2.cfg).any (fun o => legPort e.2.cfg o == 16 + p)) ||
      (f.role == 1 && decide (f.nodeCount * f.toTimer < 4000) &&
        (legOffs e.2.cfg).all (fun o => legPort e.2.cfg o != 16 + p ||
          !decide (pace (tenant s e.2.tenant) e.2.cfg * periodU (tenant s e.2.tenant) < fldCycle f (legFrame e.2.cfg o 0 (streamTag e.2.cfg (anyKey e.2))) * 300))))

/-- fld.port_config: the settings take effect together at the next cycle boundary, at once where no cycle runs. -/
def planFldConfig (c : Ctx) (s : State) : Plan :=
  let p := c.u8 0
  let role := c.u8 1
  let f := fldSoon s p
  let new := { f with role := role, nodeCount := c.u8 3, toTimer := c.u8 4, maxNode := c.u16 8 }
  let changed := f.role != role || f.nodeCount != c.u8 3 || f.toTimer != c.u8 4 || f.maxNode != c.u16 8
  change (failIf (decide (15 < p)) (.field 0) ++ failIf (decide (2 < role)) (.field 1)
      ++ failIf (if role = 2 then c.u8 2 == 0 || c.u8 2 == 255 else c.u8 2 != 0) (.field 2) ++ failIf (role == 1 && decide (c.u8 3 < 2)) (.field 3)
      ++ failIf (c.u8 4 == 0) (.field 4) ++ failIf (c.u8 6 == 0) (.field 6) ++ failIf (decide (2 ≤ c.u8 7)) (.field 7)
      ++ failIf (!(decide (64 ≤ c.u16 8) && decide (c.u16 8 ≤ 1522))) (.field 8) ++ failIf (!tenantField s (c.u16 10)) (.field 10)
      ++ failIf (c.u32 12 != 0xFFFFFFFF && !isPacketRing s (c.u16 10) (c.u32 12)) (.field 12)
      ++ failIf (!(decide (100 ≤ c.u16 24) && decide (c.u16 24 ≤ 10000))) (.field 24) ++ failIf (c.u16 26 == 0 || decide (1440 < c.u16 26)) (.field 26)
      ++ failIf (changed && !fldLegsFit s p new) (.conflict []) ++ failIf (f.tenant != c.u16 10 && fldInUse s p) (.conflict []))
    [.port (16 + p)]
    (fun s => if (fldPort s p).plca then modFld s p (fun f => { f with staged := some c.p }) else fldApply s p c.p)

def cmdFldConfig : Cmd := { opcode := 0x0810, issuer := 'M', scope := 'D', least := 28, rsvd := [(28, 20)], plan := planFldConfig }

def execFldPortConfig (r : Req) (s : State) : Host.Outcome State Fault Refusal := runCmd cmdFldConfig r s

/-- Whether a pin is named by a pending time.schedule ACTION 2 (20 R387). -/
def pinScheduled (s : State) (pin : Nat) : Bool := s.sched.any (fun e => fld e.2.p 3 1 == 2 && fld e.2.p 17 1 % 32 == pin)

/-- fld.gpio_key_set: TENANT 0xFFFF releases the pin. A key delivered as held is delivered as released (log entry 102). -/
def planGpioKey (c : Ctx) (s : State) : Plan :=
  let pin := c.u8 0
  let t := c.u16 4
  let give := t != 0xFFFF
  let others := s.tenants.any (fun e => (t != e.1) && e.2.mix.buses.any (fun b => b.2.xps.any (fun x => match x.bind with | some k => k.src == 1 && k.port == pin | none => false)))
  change (failIf (decide (31 < pin)) (.field 0)
      ++ (if give then
          failIf (decide (1 < c.u8 1)) (.field 1) ++ failIf (c.u8 2 == 0) (.field 2) ++ failIf (!thas s.tenants t) (.field 4)
            ++ failIf (c.u16 6 == 0 || decide (1440 < c.u16 6)) (.field 6)
        else [])
      ++ failIf (pinScheduled s pin || others) (.conflict []))
    []
    (fun s =>
      let s := match tget s.gpioKeys pin with
        | some k => deliverGpio { s with gpioKeys := tset s.gpioKeys pin { k with raw := false } } pin 0
        | none => s
      { s with gpioKeys := if give then tset s.gpioKeys pin ⟨c.u8 1, c.u8 2, t, c.u16 6, false, false, false, false, true⟩ else tdel s.gpioKeys pin })

def cmdGpioKey : Cmd := { opcode := 0x0811, issuer := 'M', scope := 'D', least := 8, plan := planGpioKey }

def execFldGpioKeySet (r : Req) (s : State) : Host.Outcome State Fault Refusal := runCmd cmdGpioKey r s

/-- Whether the mailbox may name field port `p`: a manager, or the owner's (22 R395); and the header must name the owner. -/
def fldOwnFails (c : Ctx) (s : State) (p : Nat) : List Fail :=
  failIf (!c.mgr && (fldPort s p).tenant != c.tenant) .noPermission ++ failIf (decide (15 < p)) (.field 0)
    ++ failIf (c.mgr && (fldPort s p).tenant != c.tenant) (.field 0)

/-- fld.key_query. -/
def planKeyQuery (c : Ctx) (s : State) : Plan :=
  let k := tgetD s.keys (256 * c.u8 0 + c.u8 1) {}
  let seen := thas s.keys (256 * c.u8 0 + c.u8 1)
  answer (fldOwnFails c s (c.u8 0) ++ failIf (c.u8 1 == 0 || c.u8 1 == 255) (.field 1))
    (le2 k.raw ++ le2 k.delivered ++ le2 k.blocked ++ le2 k.latched ++ le1 (b2n (k.absent || !seen)))

def cmdKeyQuery : Cmd := { opcode := 0x0812, issuer := 'O', scope := 'E', query := true, least := 2, plan := planKeyQuery }

def execFldKeyQuery (r : Req) (s : State) : Host.Outcome State Fault Refusal := runCmd cmdKeyQuery r s

/-- fld.stats: 64 words as net.stats writes them. -/
def planFldStats (c : Ctx) (s : State) : Plan :=
  resultAt c 8 (indirectFails c ++ fldOwnFails c s (c.u8 0)) ((List.range 64).flatMap (fun i => le8 (tgetD (fldPort s (c.u8 0)).ctr i 0)))

def cmdFldStats : Cmd := { opcode := 0x0813, issuer := 'O', scope := 'E', query := true, least := 16, plan := planFldStats }

def execFldStats (r : Req) (s : State) : Host.Outcome State Fault Refusal := runCmd cmdFldStats r s

end Sys2Proof.Machine
end

