-- ==== Sys2Proof/Machine/Lp.lean ====
section
/-! DEFINITION. Chapter 12, commands and events: local audio ports, their configuration, start and stop, faults, and channel
status. The pin frame itself is in LpFrame. -/
namespace Sys2Proof.Machine

/-- Local port `k` by its code of 12 R247, and the state with it changed. -/
def lp (s : State) (k : Nat) : LpPort := tgetD s.lps k {}
def modLp (s : State) (k : Nat) (f : LpPort → LpPort) : State := { s with lps := tset s.lps k (f (lp s k)) }

/-- Kinds of port by code. -/
def isSai (k : Nat) : Bool := decide (k < 0x20)
def isAesIn (k : Nat) : Bool := decide (0x20 ≤ k ∧ k < 0x28)
def isAesOut (k : Nat) : Bool := decide (0x28 ≤ k ∧ k < 0x30)

/-- Counter `i` of a local port raised by `n` (12 R270). -/
def lpCount (s : State) (k i n : Nat) : State := modLp s k (fun l => { l with ctr := tset l.ctr i (inc48 (tgetD l.ctr i 0) n) })

/-- A bit of LP_INT_STATUS sets; on its change from 0 to 1 while enabled LP_PORT is raised (12, 20 R376). -/
def lpInt (s : State) (k b : Nat) : State :=
  let l := lp s k
  if bit l.int b then s
  else
    let s := modLp s k (fun l => { l with int := setBit l.int b true })
    if bit l.intEn b then evD s 0x824 k 0 b else s

/-! ### A configuration payload: sai.config, aes.config (12) -/

def lpRate (k : Nat) (c : List Byte) : Nat := if isSai k then fld c 6 1 else fld c 1 1
def lpMode (k : Nat) (c : List Byte) : Nat := if isSai k then fld c 7 1 else fld c 2 1
def lpUnmute (k : Nat) (c : List Byte) : Nat := if isSai k then fld c 10 2 else fld c 4 2
def lpShared (k : Nat) (c : List Byte) : Bool := isSai k && bit (fld c 8 2) 2

/-- The number of set bits of a mask. -/
def popCount (n : Nat) : Nat := ((List.range 32).filter (bit n)).length

/-- Captured and driven channels. -/
def lpIns (k : Nat) (c : List Byte) : Nat := if c.isEmpty then 0 else if isSai k then popCount (fld c 12 4) else if isAesIn k then 2 else 0
def lpOuts (k : Nat) (c : List Byte) : Nat := if c.isEmpty then 0 else if isSai k then popCount (fld c 16 4) else if isAesOut k then 2 else 0

/-- DATA_WIDTH: 24 for AES3. -/
def lpWidth (k : Nat) (c : List Byte) : Nat := if isSai k then fld c 4 1 else 24

/-- The charge of a configuration (12 R248). (DEDUCED, log entry 68.) -/
def lpCharge (k : Nat) (c : List Byte) : Use :=
  { rx := lpIns k c * chCost (rateHz (lpRate k c)), tx := lpOuts k c * chCost (rateHz (lpRate k c)) }

/-- Its Eddy units (05 R119, 12 R248). -/
def lpUnits (k : Nat) (c : List Byte) (fsT : Nat) : Nat :=
  if c.isEmpty then 0 else eddyUnits (lpMode k c) (lpIns k c + lpOuts k c) (rateHz (lpRate k c)) fsT

/-- A configuration with its CLOCK_MODE replaced. -/
def lpSetMode (k m : Nat) (c : List Byte) : List Byte := patch c (if isSai k then 7 else 2) (le1 m)

/-- The least frame a SAI configuration accepts, in BCLK periods (12 R250). -/
def minFrame (c : List Byte) : Nat :=
  if fld c 1 1 = 2 then fld c 5 1 + fld c 2 1 * fld c 3 1 else 2 * ((if fld c 1 1 = 0 then 1 else 0) + fld c 5 1 + fld c 3 1)

/-! ### The output line (12 R252) -/

/-- Whether this device drives the output of a port: its enable and, on a shared output, its place in the pair. -/
def lpDrives (s : State) (k : Nat) : Bool :=
  tripGet s (.lpTxEn k) != 0 && s.clk.started && !s.dev.safe && (!(lpShared k (lp s k).cfg || isAesOut k) || drivesShared s)

/-- The output of local port `k`: 0 high-Z, 1 low, 2 frames (12 R252, R267; 14 R292). -/
def lpLine (s : State) (k : Nat) : Nat :=
  let l := lp s k
  if tripGet s (.lpTxEn k) = 0 then 0
  else if s.dev.safe || !s.clk.started then b2n (isAesOut k)
  else if !lpDrives s k then 0
  else match l.state with
    | 0 => b2n (isAesOut k)
    | 1 => 0
    | 5 => 0
    | 6 => if isAesOut k then 2 else b2n (!lpShared k l.cfg)
    | _ => 2

/-- An output that has come to stand still shows its level. -/
def lpShow (s : State) (k : Nat) : State := if isAesIn k || lpLine s k == 2 then s else emit s (.pinLine k (lpLine s k))

/-! ### Changes of state (12 R252 to R255) -/

/-- An event of a port's tenant. -/
def lpEv (s : State) (k typ aux : Nat) : State := evT s (lp s k).tenant typ k 0 aux

/-- A clock fault of a running or counting port (12 R255): cause 0 loss of clocks, 2 rate change, 3 frame error. A port that has not
begun to count is not counting yet (DEDUCED, log entry 26). -/
def lpFault (s : State) (k cause : Nat) : State :=
  let l := lp s k
  if l.state = 3 ∨ (l.state = 2 ∧ 0 < l.cnt) then
    let s := modLp s k (fun l => { l with state := 6, cnt := 0, fadeOut := if l.state = 3 then 0 else 16, settled := l.settled && !isAesOut k })
    lpShow (lpEv (lpInt (lpCount s k (if cause = 0 then 1 else cause) 1) k 1) k 0x823 cause) k
  else s

/-- The trigger reaches a port: it counts from the first FS edge after it, so not the pin frame that is under way. -/
def lpGo (s : State) (k : Nat) : State := modLp s k (fun l => { l with state := 2, cnt := 0, start := none, startLive := false, mid := l.clk })

/-- A port begins to run: its input begins anew, and its estimator starts from the measured rate (12 R253, R258). -/
def lpRun (s : State) (k : Nat) : State :=
  let s := modLp s k (fun l => { l with
    state := 3, cnt := 0, fadeIn := 0, fadeOut := 16, fifo := [], inNext := none, edge := none
    conv := { l.conv with past := [], pos := none, pos2 := none, realign := false, fade := 0, line := [], line2 := [] }
    est := { (l.est.start ((l.meas * 2 ^ 44 / (16 * rateHz (lpRate k l.cfg)) : Nat) : Int)) with
      acqLeft := l.est.acqTime * 1000, state := 1, minErr := none, limited := false, predPos := l.frames, predTime := (tb s (tenant s l.tenant).mclk.bind.rateTb).now } })
  lpEv (lpInt s k 2) k 0x821 0

/-- UNMUTE frames have been counted. -/
def unmuteDone (k : Nat) (s : State) : State :=
  let l := lp s k
  if l.state = 2 ∧ lpUnmute k l.cfg ≤ l.cnt ∧ !l.cfg.isEmpty then lpRun s k else s

def execUnmuteCountDone (code : Nat) (s : State) : Host.Outcome State Fault Refusal := runMere s (unmuteDone code)

/-- Commands that wait for ports to stop: those none of whose ports still stops complete. -/
def stopCheck (s : State) : State :=
  (pendingFor s (fun w => match w with | .lpStop ks => ks.all (fun k => !(lp s k).stopReq && (lp s k).state != 4) | _ => false)).foldl (fun s p => finish s p 0 0) s

/-- A port is stopped (12 R254); `early` says that its clocks stopped first. -/
def lpStopped (k : Nat) (early : Bool) (s : State) : State :=
  let l := lp s k
  if l.state = 4 ∨ l.stopReq then
    let s := if early then lpCount s k 6 1 else s
    let s := modLp s k (fun l => { l with state := 5, cnt := 0, stopReq := false, start := none, startLive := false })
    stopCheck (lpShow (lpEv (lpInt s k 3) k 0x822 0) k)
  else s

def execLpStopDone (code : Nat) (early : Bool) (s : State) : Host.Outcome State Fault Refusal := runMere s (lpStopped code early)

/-- No FS edge for two pin frames. -/
def lpClockLoss (k : Nat) (s : State) : State :=
  let s := if thas s.lps k then modLp s k (fun l => { l with clk := false, mid := false, sync := l.sync && !isAesIn k }) else s
  if (lp s k).state = 4 ∨ (lp s k).stopReq then lpStopped k true s else lpFault s k 0

def execLpClockLoss (code : Nat) (s : State) : Host.Outcome State Fault Refusal := runMere s (lpClockLoss code)

/-- The rate code whose rate lies within 2 % of a measurement in 1/16 Hz, plus 1; 0 none (12 R257). -/
def rateClass (meas : Nat) : Nat :=
  match (List.range 10).find? (fun r => decide (meas * 100 ≤ rateHz r * 16 * 102 ∧ rateHz r * 16 * 98 ≤ meas * 100)) with
  | some r => r + 1
  | none => 0

/-- The measurement of each 10 ms; it also ends a window of the port's estimator (12 R257, R258). -/
def lpMeasure (k meas : Nat) (s : State) : State :=
  if 0x30 ≤ k then s
  else
    let old := (lp s k).cls
    let new := rateClass meas
    let s := modLp s k (fun l => { l with meas := meas % 2 ^ 22, cls := new })
    let s := if old = new then s else lpInt s k 0
    let l := lp s k
    let s := if l.state = 3 then
        modLp s k (fun l => { l with est := (estLoop (l.est.rebase (rateHz (lpRate k l.cfg)) (tb s (tenant s l.tenant).mclk.bind.rateTb).now) 10).1 })
      else s
    if l.cfg.isEmpty || new == lpRate k l.cfg + 1 then s else lpFault s k 2

def execRateMeasure (code meas : Nat) (s : State) : Host.Outcome State Fault Refusal := runMere s (lpMeasure code meas)

/-! ### AES3 (12 R263 to R267) -/

def execAesLock (n : Nat) (s : State) : Host.Outcome State Fault Refusal :=
  runMere s (fun s => if n < 8 then modLp s (0x20 + n) (fun l => { l with clk := true, sync := false }) else s)

/-- An AES3 input loses lock: a clock fault. -/
def aesLockLoss (n : Nat) (s : State) : State :=
  if n < 8 ∧ (lp s (0x20 + n)).clk then lpClockLoss (0x20 + n) (lpCount s (0x20 + n) 11 1) else s

def execAesLockLoss (n : Nat) (s : State) : Host.Outcome State Fault Refusal := runMere s (aesLockLoss n)

/-- The CRCC of channel status bytes 0 to 22 (IEC 60958-4: x^8 + x^4 + x^3 + x^2 + 1 from all ones; PRESUMED, log entry 27). -/
def crcc (bs : List Byte) : Byte :=
  let step := fun (c : BitVec 8) => if c.getLsbD 0 then (c >>> 1) ^^^ 0xB8#8 else c >>> 1
  (bs.take 23).foldl (fun c b => (List.range 8).foldl (fun c _ => step c) (c ^^^ b)) 0xFF#8

/-- One channel's status at the end of a block: whether it is copied (12 R265). -/
def csGood (cs : List Byte) : Bool := !bit (fld cs 0 1) 0 || crcc cs == cs.getD 23 0

/-- The end of an AES3 block. A missing Z is counted, and synchronisation waits for the next one. -/
def aesBlockEnd (n : Nat) (a b : List Byte) (missing : Bool) (s : State) : State :=
  let k := 0x20 + n
  let l := lp s k
  if !(decide (n < 8) && l.sync) then s
  else
    let (a, b) := (fit 24 a, fit 24 b)
    let s := lpCount s k 8 (b2n (!csGood a) + b2n (!csGood b))
    let newA := if csGood a then a else l.csA
    let newB := if csGood b then b else l.csB
    let s := modLp s k (fun l => { l with csA := newA, csB := newB })
    let s := if newA = l.csA ∧ newB = l.csB then s else lpInt s k 5
    if missing then lpCount (modLp s k (fun l => { l with sync := false })) k 10 1 else s

def execAesBlockEnd (n : Nat) (csA csB : List Byte) (zMissing : Bool) (s : State) : Host.Outcome State Fault Refusal :=
  runMere s (aesBlockEnd n csA csB zMissing)

/-- The synthesiser of an AES3 output. -/
def lpSyn (c : List Byte) : Nat := fld c 6 1

/-- Whether the synthesiser of an AES3 output may serve it: in lock-follow mode only one that follows the owner's media clock (12 R266). -/
def synServes (s : State) (t mode n : Nat) : Bool :=
  let y := tgetD s.syns n {}
  mode != 2 || (y.holder == 1 && y.tenant == t)

/-- t_AES_SETTLE has passed since SYN_LOCKED: the count of R253 begins (12 R267). -/
def aesSettle (n : Nat) (s : State) : State :=
  let k := 0x28 + n
  let l := lp s k
  if n < 8 ∧ !l.cfg.isEmpty ∧ (tgetD s.syns (lpSyn l.cfg) {}).locked ∧ synServes s l.owner (lpMode k l.cfg) (lpSyn l.cfg) then
    modLp s k (fun l => { l with settled := true, clk := true, cnt := 0, mid := !l.settled })
  else s

def execAesSettleExpiry (n : Nat) (s : State) : Host.Outcome State Fault Refusal := runMere s (aesSettle n)

/-- Synthesiser `n` leaves lock: the AES3 outputs that use it lose their clock (12 R267). -/
def lpSynLost (s : State) (n : Nat) : State :=
  (range 0x28 0x30).foldl (fun s k =>
    let l := lp s k
    if l.cfg.isEmpty ∨ lpSyn l.cfg ≠ n ∨ !l.settled then s
    else lpClockLoss k (modLp s k (fun l => { l with settled := false }))) s

/-! ### Commands -/

/-- The failing conditions of a PORT at offset 0 that must be the header tenant's (12 R247, 22 R395). -/
def lpOwnFails (c : Ctx) (s : State) (k : Nat) : List Fail :=
  failIf (!c.mgr && (lp s k).tenant != c.tenant) .noPermission ++ failIf (c.mgr && (lp s k).tenant != c.tenant) (.field 0)

/-- Port `k` is given to `t`: its charge returns, and its configuration, status and Eddy units go at the boundary of the tenant that had it
(02 R38, 05 R119, 12 R248). -/
def lpRelease (s : State) (k t : Nat) : State :=
  let l := lp s k
  let had := thas s.tenants l.tenant
  let s := if had then closeInput (refund s l.tenant l.charge) l.tenant (fun r => r.kind == 1 && r.obj == k) else s
  modLp s k (fun l => { l with
    tenant := t, prev := if had && l.prev == 0xFFFF then l.tenant else l.prev, next := none, charge := {}, start := none, startLive := false
    conv := { l.conv with units := l.conv.units + l.conv.pendUnits, pendUnits := 0 } })

/-- The configuration of a port that has been given away goes. -/
def lpReset (s : State) (k : Nat) : State :=
  lpShow (modLp s k (fun l => { l with
    prev := 0xFFFF, cfg := [], state := 0, cnt := 0, settled := false, fifo := [], inNext := none, edge := none, out := []
    outPos := none, outSlip := none, outAcc := none, outc := {}, delay := 0, conv := { pendUnits := l.conv.pendUnits } })) k

/-- Whether legacy cascade mode holds a port, or is about to (12 R268). -/
def lpHeld (s : State) (k : Nat) : Bool := (lp s k).legacy || (decide (28 ≤ k ∧ k < 32) && s.cway.legacy.isSome)

/-- lp.assign. -/
def planLpAssign (c : Ctx) (s : State) : Plan :=
  let k := c.u8 0
  let t := c.u16 2
  let l := lp s k
  change (failIf (decide (0x30 ≤ k)) (.field 0) ++ failIf (!tenantField s t) (.field 2)
      ++ failIf (!(l.state == 0 || l.state == 5) || lpHeld s k) (.conflict []))
    [.port (0x100 + k)] (fun s => if (lp s k).tenant = t then s else lpRelease s k t)

def cmdLpAssign : Cmd := { opcode := 0x0820, issuer := 'M', scope := 'D', least := 4, plan := planLpAssign }

def execLpAssign (r : Req) (s : State) : Host.Outcome State Fault Refusal := runCmd cmdLpAssign r s

/-- The Eddy units a new configuration needs beside those held: more channels of an unchanged conversion need the difference, another
conversion all of its own, until the boundary (05 R119, R126); beside a mode switch that runs to mode `to_`, that one's too. -/
def lpNeed (k : Nat) (old new : List Byte) (to_ : Option Nat) (fsT : Nat) : Nat :=
  match to_ with
  | some m => (if lpMode k new = m then 0 else lpUnits k (lpSetMode k m old) fsT) + lpUnits k new fsT
  | none => if !old.isEmpty ∧ lpMode k old = lpMode k new ∧ lpRate k old = lpRate k new then lpUnits k new fsT - lpUnits k old fsT else lpUnits k new fsT

/-- SOURCE at offset `o` with `n` channels. -/
def lpSourceFails (s : State) (t n lq o : Nat) : List Fail :=
  if n = 0 then failIf (lq != 0xFFFFFFFF) (.field o)
  else match sourceInfo s t lq with
    | none => [sourceMissing s t lq o]
    | some (w, _, _) => failIf (w != n) (.field o)

/-- What sai.config and aes.config share: ownership, charges, and the effect from the next boundary. `fails` are the field checks,
`same` masks the fields that may change while the port runs. -/
def lpConfig (c : Ctx) (s : State) (k : Nat) (p : List Byte) (fails : List Fail) (same : List Byte → List Byte) : Plan :=
  let l := lp s k
  let t := c.tenant
  let fsT := (tenant s t).fs
  let busy := !(l.state == 0 || l.state == 5)
  let need := lpNeed k l.base p (if busy then l.conv.switch.map (·.mode) else none) fsT
  { fails := lpOwnFails c s k ++ fails ++ failIf (lpHeld s k || (busy && same p != same l.conf)) (.conflict [])
      ++ quotaFails s t ((lpCharge k p).sub l.charge) ++ failIf (decide (eddyFree s + l.conv.pendUnits < need)) .noResource
    touch := [.port (0x100 + k)]
    act := fun s =>
      let s := refund (charge s t ((lpCharge k p).sub l.charge)) t (l.charge.sub (lpCharge k p))
      (modLp s k (fun l => { l with
        next := some p, charge := lpCharge k p, conv := { l.conv with pendUnits := need } }), .ok []) }

/-- sai.config. -/
def planSaiConfig (c : Ctx) (s : State) : Plan :=
  let k := c.u8 0
  let p := fit 48 c.p
  let x := tenant s c.tenant
  let slots := c.u8 2
  let wideMask := fun (m : Nat) => decide (slots < 32) && decide (2 ^ slots ≤ m)
  lpConfig c s k p
    (failIf (decide (0x20 ≤ k)) (.field 0) ++ failIf (decide (2 < c.u8 1)) (.field 1)
      ++ failIf (if c.u8 1 = 2 then slots == 0 || decide (32 < slots) else slots != 2) (.field 2)
      ++ failIf (!(decide (8 ≤ c.u8 3) && decide (c.u8 3 ≤ 32))) (.field 3) ++ failIf (!(decide (8 ≤ c.u8 4) && decide (c.u8 4 ≤ c.u8 3))) (.field 4)
      ++ failIf (decide (9 < c.u8 6)) (.field 6) ++ failIf (decide (2 < c.u8 7) || (c.u8 7 == 2 && rateHz (c.u8 6) != x.fs)) (.field 7)
      ++ failIf (decide (8 ≤ c.u16 8)) (.field 8) ++ failIf (!(decide (16 ≤ c.u16 10) && decide (c.u16 10 ≤ 4096))) (.field 10)
      ++ failIf (wideMask (c.u32 12)) (.field 12) ++ failIf (wideMask (c.u32 16)) (.field 16) ++ lpSourceFails s c.tenant (popCount (c.u32 16)) (c.u32 20) 20)
    (fun q => patch (patch q 7 [0]) 20 (zb 4))

def cmdSaiConfig : Cmd := { opcode := 0x0821, issuer := 'O', scope := 'T', least := 24, rsvd := [(24, 24)], plan := planSaiConfig }

def execSaiConfig (r : Req) (s : State) : Host.Outcome State Fault Refusal := runCmd cmdSaiConfig r s

/-- aes.config. An output is in lock-follow mode only when its synthesiser follows the owner's media clock (12 R266). -/
def planAesConfig (c : Ctx) (s : State) : Plan :=
  let k := c.u8 0
  let p := fit 48 c.p
  let x := tenant s c.tenant
  let out := isAesOut k
  lpConfig c s k p
    (failIf (!(isAesIn k || out)) (.field 0) ++ failIf (!(decide (3 ≤ c.u8 1) && decide (c.u8 1 ≤ 9))) (.field 1)
      ++ failIf (decide (2 < c.u8 2) || (c.u8 2 == 2 && (rateHz (c.u8 1) != x.fs || (out && !synServes s c.tenant 2 (c.u8 6))))) (.field 2)
      ++ failIf (decide (8 ≤ c.u8 3)) (.field 3) ++ failIf (!(decide (16 ≤ c.u16 4) && decide (c.u16 4 ≤ 4096))) (.field 4)
      ++ (if out then failIf (decide (7 < c.u8 6)) (.field 6) ++ lpSourceFails s c.tenant 2 (c.u32 8) 8 else []))
    (fun q => patch (patch q 2 [0]) 8 (zb 4))

def cmdAesConfig : Cmd := { opcode := 0x0822, issuer := 'O', scope := 'T', least := 12, plan := planAesConfig }

def execAesConfig (r : Req) (s : State) : Host.Outcome State Fault Refusal := runCmd cmdAesConfig r s

/-- The ports of the masks at offsets 0 and 4. -/
def maskPorts (p : List Byte) : List Nat :=
  (List.range 32).filter (bit (fld p 0 4)) ++ ((List.range 16).filter (bit (fld p 4 2))).map (· + 0x20)

/-- The ports of a mask must all be the header tenant's (12 R269). -/
def maskFails (c : Ctx) (s : State) : List Fail :=
  let other := fun k => (lp s k).tenant != c.tenant
  let ps := maskPorts c.p
  failIf (!c.mgr && ps.any other) .noPermission ++ failIf ((ps.filter isSai).any other) (.field 0) ++ failIf ((ps.filter (fun k => !isSai k)).any other) (.field 4)

/-- lp.start: a port that runs or is in clock fault fails the command (12 R256). A port without a configuration is not ready
(DEDUCED, log entry 28). -/
def planLpStart (c : Ctx) (s : State) : Plan :=
  let ps := maskPorts c.p
  let trig := c.u8 6
  change (maskFails c s ++ failIf (decide (2 < trig)) (.field 6) ++ failIf (trig == 2 && decide (15 < c.u8 7)) (.field 7)
      ++ failIf (ps.any (fun k => (lp s k).state == 3 || (lp s k).state == 6)) (.busy []) ++ failIf (ps.any (fun k => (lp s k).conf.isEmpty)) .notReady)
    (ps.map (fun k => .port (0x100 + k)))
    (fun s => ps.foldl (fun s k => modLp s k (fun l => { l with start := some (trig, c.u8 7, fld c.p 8 6), startLive := false })) s)

def cmdLpStart : Cmd := { opcode := 0x0823, issuer := 'O', scope := 'T', least := 14, plan := planLpStart }

def execLpStart (r : Req) (s : State) : Host.Outcome State Fault Refusal := runCmd cmdLpStart r s

/-- A start takes its place at the boundary of its tenant: trigger 0 is the boundary itself (12 R256). -/
def lpStartBoundary (s : State) (k : Nat) : State :=
  match (lp s k).start with
  | none => s
  | some (0, _, _) => lpGo s k
  | some _ => lpShow (modLp s k (fun l => { l with startLive := true, state := 1, cnt := 0 })) k

/-- The trigger of port `k`'s start arrives, for every port of that start: START_IN serves all that wait for it. -/
def lpTrigger (k : Nat) (s : State) : State :=
  let l := lp s k
  match l.start with
  | some (trig, b, time) =>
    if !l.startLive then s
    else
      let s := if trig = 2 then advanceToTime b time s else s
      (s.lps.filter (fun e => e.2.startLive && (if trig = 2 then e.2.start == some (2, b, time) else (e.2.start.map (·.1)) == some trig))).foldl (fun s e => lpGo s e.1) s
  | none => s

def execLpTrigger (code : Nat) (s : State) : Host.Outcome State Fault Refusal := runMere s (lpTrigger code)

/-- lp.stop: it takes effect at each port's next pin frame; a port that is off or stopped has nothing to do. -/
def planLpStop (c : Ctx) (s : State) : Plan :=
  let ps := maskPorts c.p
  { fails := maskFails c s
    touch := ps.map (fun k => .port (0x100 + k))
    pends := true
    act := fun s =>
      (ps.foldl (fun s k => if (lp s k).state = 0 ∧ (lp s k).start.isNone ∨ (lp s k).state = 5 ∧ (lp s k).start.isNone then s else modLp s k (fun l => { l with stopReq := true })) s,
        .pend (.lpStop ps) (ps.map (fun k => .port (0x100 + k)))) }

def cmdLpStop : Cmd := { opcode := 0x0824, issuer := 'O', scope := 'T', least := 6, plan := planLpStop }

def execLpStop (r : Req) (s : State) : Host.Outcome State Fault Refusal := runCmd cmdLpStop r s

/-- aes.cs_set: in use from the next Z; in professional format byte 23 is computed (12 R266). -/
def planCsSet (c : Ctx) (s : State) : Plan :=
  let k := c.u8 0
  change (lpOwnFails c s k ++ failIf (!isAesOut k) (.field 0) ++ failIf (decide (3 < c.u8 1)) (.field 1)) [.port (0x100 + k)]
    (fun s => modLp s k (fun l => { l with
      nextCsA := if bit (c.u8 1) 0 then some (slice c.p 8 24) else l.nextCsA, nextCsB := if bit (c.u8 1) 1 then some (slice c.p 8 24) else l.nextCsB }))

def cmdCsSet : Cmd := { opcode := 0x0825, issuer := 'O', scope := 'T', least := 32, plan := planCsSet }

def execAesCsSet (r : Req) (s : State) : Host.Outcome State Fault Refusal := runCmd cmdCsSet r s

/-- lp.stats: twelve counters. -/
def planLpStats (c : Ctx) (s : State) : Plan :=
  resultAt c 8 (indirectFails c ++ lpOwnFails c s (c.u8 0) ++ failIf (decide (0x30 ≤ c.u8 0)) (.field 0))
    ((List.range 12).flatMap (fun i => le8 (tgetD (lp s (c.u8 0)).ctr i 0)))

def cmdLpStats : Cmd := { opcode := 0x0826, issuer := 'O', scope := 'T', query := true, least := 16, plan := planLpStats }

def execLpStats (r : Req) (s : State) : Host.Outcome State Fault Refusal := runCmd cmdLpStats r s

end Sys2Proof.Machine
end

