-- ==== Sys2Proof/Machine/Refs.lean ====
section
/-! DEFINITION. Chapter 15: reference candidates, the DPLL of Stillwater, holdover, and the synthesisers. -/
namespace Sys2Proof.Machine

def modRefs (s : State) (f : Refs → Refs) : State := { s with refs := f s.refs }

/-- Candidate `n`, and the state with it changed. -/
def cand (s : State) (n : Nat) : Cand := tgetD s.refs.cands n {}
def modCand (s : State) (n : Nat) (f : Cand → Cand) : State := modRefs s (fun r => { r with cands := tset r.cands n (f (cand s n)) })

/-- The candidate in use, 0x7F none (REF_SEL, triplicated). -/
def refSel (s : State) : Nat := tripGet s .refSel
def setSel (s : State) (n : Nat) : State := tripSet s .refSel n

/-- A bit of REF_FAULT sets. -/
def refFault (s : State) (b : Nat) : State := modRefs s (fun r => { r with fault := setBit r.fault b true })

/-! ### Candidates (15 R302 to R304) -/

/-- The local port a candidate 26 to 65 names. -/
def candPort (n : Nat) : Nat := if n < 34 then 0x20 + (n - 26) else n - 34

/-- Whether a candidate's source is configured (15 R302). -/
def candEnabled (s : State) (n : Nat) : Bool :=
  if n < 16 then (tb s n).mode != 3
  else if n < 24 then groupMode s ((n - 16) / 4) != 0
  else if n = 24 then s.refs.in0 % 4 != 0
  else if n = 25 then s.refs.in1 % 4 != 0
  else decide (n < 66) && !(lp s (candPort n)).cfg.isEmpty && (lp s (candPort n)).tenant != 0xFFFF

/-- The network port that lane `l` serves in its group's mode. -/
def lanePort (s : State) (l : Nat) : Nat :=
  match groupMode s (l / 4) with
  | 1 => 0
  | 2 => l / 4 * 4
  | 3 => l / 2 * 2
  | _ => l

/-- Whether a candidate is active: what the device knows of it, and for a clock from outside whether its edges are there. -/
def candActive (s : State) (n : Nat) (edges : Bool) : Bool :=
  if n < 16 then (tb s n).valid && !(tb s n).holdover
  else if n < 24 then
    let p := tgetD s.netPorts (lanePort s (n - 16)) {}
    edges && p.link && !p.rxLpi
  else if n < 26 then edges
  else
    let l := lp s (candPort n)
    edges && l.clk && (if n < 34 then l.sync else l.cls == lpRate (candPort n) l.cfg + 1)

/-- The phase period of a candidate, in 1/256,000 ns. -/
def candPeriod (s : State) (n : Nat) : Nat :=
  let hz := fun r => 10 ^ 9 * 256000 / r
  let ref := fun (w : Nat) => if w % 4 = 1 then hz 1 else if w % 4 = 2 then hz 10000000 else hz (rateHz (w / 16))
  if n < 16 then hz 1
  else if n < 24 then hz 1000000
  else if n = 24 then ref s.refs.in0
  else if n = 25 then ref s.refs.in1
  else if n < 66 then hz (rateHz (lpRate (candPort n) (lp s (candPort n)).cfg)) else hz 1

/-- The offset of a window: of a time base from its effective increment, of a clock as measured against XA; corrected by XA_CAL; in
0.001 ppm (15 R303). -/
def candFreq (s : State) (n : Nat) (meas : Int) : Int :=
  (if n < 16 then divEvenI (((tb s n).inc : Int) * 1000000000 - 234562480592213 * 1000000000) 234562480592213 else meas) + s.refs.xaCal * 10

/-! ### Selection (15 R305, R306, R309) -/

/-- The place of a candidate in the list. -/
def prioOf (s : State) (n : Nat) : Nat := s.refs.priority.findIdx (· == n)

def qualified (s : State) (n : Nat) : Bool := (cand s n).state == 2

/-- The first qualified candidate of the list. -/
def firstCand (s : State) : Option Nat := s.refs.priority.find? (qualified s)

/-- The DPLL takes a candidate: the first acquisition sets the phase and ORIGIN, every later one is a pull whose phase error is what
the DPLL measures, a free value within the pull period (15 R307, R308; log entry 1). -/
def takeCand (s : State) (n : Nat) : State :=
  let prev := refSel s
  if prev = n then s
  else
    let s := evD (refFault (setSel s n) 2) 0xA03 n 0 prev
    if s.refs.origin = 0x7F then modRefs s (fun r => { r with state := 1, origin := n, err := 0, lastCand := n })
    else
      let t := min (candPeriod s n) (candPeriod s s.refs.origin)
      let (e, s) := drawInt s (-((t / 2 : Nat) : Int)) ((t / 2 : Nat) : Int)
      modRefs s (fun r => { r with state := 3, err := e, lastCand := n })

/-- The mean of the history for holdover: the HO_AVG seconds that end 1 s before (15 R309). -/
def holdFreq (s : State) : Int := meanAdj s.refs.hist s.refs.hoAvg 0

/-- The device runs at nominal. -/
def freeRun (s : State) : State := evD (modRefs s (fun r => { r with state := 0, held := 0 })) 0xA06 s.refs.lastCand 0 0

/-- Holdover: the frequency held is the mean of the history, or nominal with no history or with FREE_RUN (15 R309). -/
def holdover (s : State) : State :=
  let s := evD (refFault (setSel s 0x7F) 1) 0xA05 s.refs.lastCand 0 0
  if s.refs.hist.isEmpty ∨ bit s.refs.flags 1 then freeRun s else modRefs s (fun r => { r with state := 4, held := holdFreq s })

/-- Selection after any change of candidates or list; `wtr` says that a revert may be decided (at a window's end). -/
def reselect (s : State) (wtr : Bool) : State :=
  if s.refs.force ≠ 0 then s
  else
    let cur := refSel s
    let held := cur != 0x7F && qualified s cur && s.refs.priority.contains cur
    match firstCand s with
    | none => if cur = 0x7F ∧ (s.refs.state = 4 ∨ s.refs.state = 0) then s else holdover s
    | some n =>
      if !held then takeCand s n
      else if prioOf s cur ≤ prioOf s n then s
      else if s.refs.state = 3 then takeCand s n
      else
        match s.refs.priority.find? (fun m => qualified s m && decide (s.refs.wtr * 1200000000 ≤ s.mere - (cand s m).qualAt)) with
        | some m => if wtr ∧ bit s.refs.flags 0 ∧ prioOf s m < prioOf s cur then takeCand s m else s
        | none => s

/-- A qualified candidate fails (15 R304). A forced one ends the force (R306). -/
def candFail (s : State) (n : Nat) : State :=
  let s := modCand s n (fun c => { c with state := 3, left := s.refs.qualTime })
  let s := evD (refFault s 0) 0xA02 n 0 0
  let s := if s.refs.force = 1 ∧ refSel s = n then modRefs s (fun r => { r with force := 0 }) else s
  reselect s false

/-- A candidate's window of 1 s ends. -/
def refWindow (n : Nat) (edges : Bool) (meas : Int) (s : State) : State :=
  if 66 ≤ n then s
  else
    let c := cand s n
    if !candEnabled s n then
      let s := if c.state = 2 then candFail s n else s
      reselect (modCand s n (fun c => { c with state := 0, left := s.refs.qualTime })) true
    else
      let q := s.refs.qualTime
      if !candActive s n edges then
        if c.state = 2 then candFail s n else modCand s n (fun c => { c with state := if c.state = 3 then 3 else 1, left := q })
      else
        let f := candFreq s n meas
        let s := modCand s n (fun c => { c with freq := f })
        if c.state = 2 then (if s.refs.reject * 100 < f.natAbs then candFail s n else reselect s true)
        else if 9200 < f.natAbs then modCand s n (fun c => { c with state := 1, left := q })
        else
          let left := (if c.state = 1 then min c.left q else q) - 1
          if left = 0 then
            reselect (evD (modCand s n (fun c => { c with state := 2, left := 0, qualAt := s.mere })) 0xA01 n 0 0) true
          else modCand s n (fun c => { c with state := 1, left := left })

def execRefWindow (cand : Nat) (active : Bool) (freq : Int) (s : State) : Host.Outcome State Fault Refusal := runMere s (refWindow cand active freq)

/-- A candidate stops being active: a qualified one fails at once, another starts its qualification again (15 R304). -/
def activityLoss (n : Nat) (s : State) : State :=
  if candActive s n false then s
  else if (cand s n).state = 2 then candFail s n
  else if (cand s n).state = 1 then modCand s n (fun c => { c with left := s.refs.qualTime })
  else s

def execRefActivityLoss (cand : Nat) (s : State) : Host.Outcome State Fault Refusal := run s (activityLoss cand)

/-- What the device itself knows to have stopped: a candidate whose source is not configured any more is disabled, and one that cannot be
active has failed (15 R302, R304). It looks at each DPLL update (t_REF_TRIP_TB). -/
def candSweep (s : State) : State :=
  s.refs.cands.foldl (fun s e =>
    let n := e.1
    let s := if (cand s n).state = 2 ∧ !(candEnabled s n && candActive s n true) then candFail s n else s
    if candEnabled s n then s else modCand s n (fun c => { c with state := 0, left := s.refs.qualTime })) s

/-! ### Synthesisers (15 R311 to R314, 05 R129) -/

def syn (s : State) (n : Nat) : Syn := tgetD s.syns n {}
def modSyn (s : State) (n : Nat) (f : Syn → Syn) : State := { s with syns := tset s.syns n (f (syn s n)) }

/-- The multiple of a MULT code. -/
def multOf (m : Nat) : Nat := 64 * 2 ^ (m % 4)

/-- The frequency a synthesiser's holder asks for, in 1/64 Hz: MULT x fs_tenant x m of a media clock, the scaled reference of
Stillwater, 49.152 MHz of legacy cascade (05 R129, 15 R311, 12 R268). -/
def synTarget (s : State) (n : Nat) : Nat :=
  let y := syn s n
  let media := fun (mult : Nat) =>
    let m := (tenant s y.tenant).mclk
    let b := tb s m.bind.rateTb
    if b.inc = 0 then 0 else divEven (64 * mult * m.inc * 1000000000) (256 * b.inc)
  match y.holder with
  | 1 => media (multOf y.mult)
  | 2 => (divEvenI ((64 * (if y.rate = 0xFF then 10000000 else multOf y.mult * rateHz y.rate) : Nat) * (256000000000 + s.refs.freq)) 256000000000).toNat
  | 3 => media 1024
  | _ => 0

/-- A synthesiser leaves lock. -/
def synUnlock (s : State) (n : Nat) : State :=
  let y := syn s n
  if y.locked then lpSynLost (evD (modSyn s n (fun y => { y with locked := false, gliding := false })) 0xA08 n 0 y.holder) n else s

/-- A synthesiser settles: SYN_LOCKED. -/
def synLocked (s : State) (n : Nat) : State := evD (modSyn s n (fun y => { y with owes := false })) 0xA07 n 0 (syn s n).holder

/-- One update of a synthesiser: it follows a change of up to 1 ppm, glides over one within 1,000 ppm, and relocks for any other
(15 R312). -/
def synUpdate (s : State) (n : Nat) : State :=
  let y := syn s n
  let t := synTarget s n
  let d := ((t : Int) - y.freq).natAbs
  if y.holder = 0 ∨ !y.locked then s
  else if d * 1000000 ≤ y.freq then
    let s := modSyn s n (fun y => { y with freq := t, gliding := false })
    if y.owes then synLocked s n else s
  else if d * 1000 ≤ y.freq then
    modSyn s n (fun y => { y with gliding := true, freq := if y.freq < t then y.freq + y.freq / 1000000 else y.freq - y.freq / 1000000 })
  else
    modSyn (synUnlock s n) n (fun y => { y with relock := true, owes := true })

/-- All synthesisers of a holder at its updates. -/
def synUpdates (s : State) (holder : Nat → Bool) : State :=
  (List.range 8).foldl (fun s n => if holder (syn s n).holder then synUpdate s n else s) s

/-- A synthesiser is given to a holder: within 1,000 ppm it stays locked and glides, else it relocks; a media-clock holder is phased at
each rebinding. -/
def synBind (s : State) (n holder tenant mult rate : Nat) : State :=
  let s := modSyn s n (fun y => { y with holder := holder, tenant := tenant, mult := mult, rate := rate, owes := true, relock := y.relock || !y.locked })
  synUpdate (if holder = 1 ∧ (syn s n).locked then modSyn s n (fun y => { y with phased := some s.mere }) else s) n

/-- The media clock of tenant `t` has been bound anew: the synthesisers that follow it are phased, and take the change of its rate (05 R129,
15 R312). One that is not locked is phased when it locks. -/
def synRephase (s : State) (t : Nat) : State :=
  (List.range 8).foldl (fun s n =>
    let y := syn s n
    if (y.holder = 1 ∨ y.holder = 3) ∧ y.tenant = t ∧ y.locked then synUpdate (modSyn s n (fun y => { y with phased := some s.mere })) n else s) s

/-- A synthesiser is released: its output is held low. -/
def synRelease (s : State) (n : Nat) : State :=
  let l := (syn s n).locked
  let s := modSyn s n (fun _ => {})
  if l then lpSynLost s n else s

/-- A synthesiser has relocked; a SYNC_IN edge or a rebinding it owes phases it (15 R312, R313, 05 R129). -/
def synRelocked (n : Nat) (s : State) : State :=
  let y := syn s n
  if n < 8 ∧ y.holder ≠ 0 ∧ y.relock ∧ s.refs.apll then
    let t := synTarget s n
    synLocked (modSyn s n (fun y => { y with
      locked := true, relock := false, gliding := false, freq := t, phased := y.phaseTo.or (if y.holder = 1 then some s.mere else y.phased), phaseTo := none })) n
  else s

def execSynRelockDone (n : Nat) (s : State) : Host.Outcome State Fault Refusal := run s (synRelocked n)

/-- The APLL loses lock: every synthesiser unlocks (15 R312). -/
def apllUnlock (s : State) : State :=
  let s := refFault (modRefs s (fun r => { r with apll := false })) 3
  (List.range 8).foldl (fun s n =>
    let held := (syn s n).holder != 0
    modSyn (synUnlock s n) n (fun y => { y with relock := held, owes := held })) s

def execApllUnlock (s : State) : Host.Outcome State Fault Refusal := run s (fun s => if s.refs.apll then apllUnlock s else s)

/-- The APLL returns: each held synthesiser begins to relock. -/
def execApllRelock (s : State) : Host.Outcome State Fault Refusal :=
  run s (fun s => modRefs { s with syns := tmap s.syns (fun _ y => if y.holder = 0 ∨ y.locked then y else { y with relock := true, owes := true }) } (fun r => { r with apll := true }))

/-- A rising edge of SYNC_IN (15 R313). -/
def syncIn (s : State) : State :=
  let early := match s.refs.syncAt with | some a => decide (s.mere - a < 1200000) | none => false
  if early then refFault s 4
  else
    let s := modRefs s (fun r => { r with syncAt := some s.mere })
    (List.range 8).foldl (fun s n =>
      let y := syn s n
      if !bit s.refs.syncMask n ∨ y.holder = 0 then s
      else if y.locked then (if y.gliding then s else modSyn s n (fun y => { y with phased := some s.mere }))
      else modSyn s n (fun y => { y with phaseTo := some s.mere })) s

def execSyncInEdge (s : State) : Host.Outcome State Fault Refusal := run s syncIn

/-- Whether the outputs shared with a twin, and the safe state, let MCLK_OUT toggle (14 R292, 16 R316). -/
def outputsLive (s : State) : Bool := !s.dev.safe && drivesShared s

/-- OUT_ON: MCLK_OUTn toggles (15 R314). -/
def mclkOut (s : State) (n : Nat) : Bool := bit (tripGet s .mclkOe) n && (syn s n).locked && outputsLive s

/-! ### DPLL updates (15 R307 to R310) -/

/-- 0.1 ppm, and the phase within which a pull ends, 10 ns. -/
def dpllStep : Int := 25600
def pullEnd : Nat := 2560000

/-- `f` moved toward `to` by at most 0.1 ppm. -/
def approach (f goal : Int) : Int := f + clampI (-dpllStep) dpllStep (goal - f)

/-- ref.config takes effect. -/
def refApply (s : State) (c : List Byte) : State :=
  let list := ((List.range 16).map (fun i => fld c (16 + i) 1)).takeWhile (· != 0xFF)
  let s := modRefs s (fun r => { r with
    flags := fld c 0 1, in0 := fld c 1 1, in1 := fld c 2 1, qualTime := fld c 3 1, slope := fld c 4 2, bw := fld c 6 2, reject := fld c 8 2, wtr := fld c 10 2
    hoAvg := fld c 12 2, xaCal := sext 16 (fld c 14 2), priority := list, syncMask := fld c 32 1, staged := none })
  reselect s false

/-- The frequency of the candidate in use, in 1/256 ppb. -/
def targetFreq (s : State) : Int := (cand s (refSel s)).freq * 256

/-- One update while a pull runs: the output approaches the target's frequency offset by PULL_SLOPE against the sign of e, and brakes
so that the offset is back at 0 as e is (DEDUCED, log entry 31). -/
def pullUpdate (s : State) : State :=
  let r := s.refs
  let f := targetFreq s
  let slope : Int := r.slope * 2560
  let off := r.freq - f
  let brake := decide (r.err.natAbs * 51200 ≤ off.natAbs * (off.natAbs + 25600)) && decide (off * r.err < 0)
  let want := if brake then f else if 0 < r.err then f - slope else f + slope
  let new := approach r.freq want
  let err := r.err + (new - f)
  if err.natAbs < pullEnd then evD (modRefs s (fun r => { r with freq := new, err := err, integ := new * 2 ^ 32, state := 2, origin := refSel s })) 0xA04 (refSel s) 0 0
  else modRefs s (fun r => { r with freq := new, err := err })

/-- The locked loop holds phase at bandwidth BW: type 2, damping 1, as the other loops (15 R308). (DESIGN CHOICE for its form, log entry 107.) -/
def lockUpdate (s : State) : State :=
  let r := s.refs
  let g : Int := (Config.loopGain r.bw).toNat
  let integ := r.integ - divEvenI (r.err * g * g) (2 ^ 34 * 1000000)
  let new := approach r.freq (divEvenI integ (2 ^ 32) - divEvenI (r.err * g) (1000 * 2 ^ 32))
  modRefs s (fun r => { r with freq := new, integ := integ, err := r.err + (new - targetFreq s) })

/-- The frequency of the update: acquiring approaches the candidate, a locked loop holds phase, holdover and free run approach the
frequency held. The phase error moves by the difference to the candidate's frequency as last measured (log entry 31). -/
def dpllFreq (s : State) : State :=
  let r := s.refs
  match r.state with
  | 1 =>
    let f := targetFreq s
    let new := approach r.freq f
    modRefs s (fun r => { r with freq := new, err := r.err + (new - f), integ := new * 2 ^ 32, state := if new = f then 2 else 1 })
  | 2 => lockUpdate s
  | 3 => pullUpdate s
  | _ => modRefs s (fun r => { r with freq := approach r.freq r.held })

/-- The frequency with the pull offset removed enters the history, one mean per second. (DEDUCED, log entry 64.) -/
def dpllHist (s : State) : State :=
  let r := s.refs
  if refSel s = 0x7F then s
  else
    let sum := r.histSum + (if r.state = 3 then targetFreq s else r.freq)
    if r.histN + 1 < 1000 then modRefs s (fun r => { r with histSum := sum, histN := r.histN + 1 })
    else modRefs s (fun r => { r with hist := (divEvenI sum 1000 :: r.hist).take 3601, histSum := 0, histN := 0 })

/-- Each second a mode-1 time base's frequency adjustment is kept (15 R310). -/
def tbHist (s : State) : State :=
  { s with tbs := s.tbs.map (fun e => (e.1, if e.2.mode = 1 ∧ !e.2.holdover then { e.2 with hist := (e.2.adj :: e.2.hist).take 3601 } else e.2)) }

/-- The DPLL's update, once every 1 ms of Mere time: ref.config takes effect, the frequency moves, mode-3 time bases and Stillwater's
synthesisers follow (15 R307, R310, R312). -/
def dpllUpdate (s : State) : State :=
  let s := gridStep 1 1200000 s
  let s := candSweep (match s.refs.staged with | some c => refApply s c | none => s)
  let s := dpllHist (dpllFreq s)
  let s := if tgetD s.grid 1 0 % 1000 = 0 then tbHist s else s
  let a := s.refs.freq - s.refs.xaCal * 2560
  let s := { s with tbs := s.tbs.map (fun e => (e.1, if e.2.mode = 3 then
    { e.2 with adj := a, locked := s.refs.state == 2, holdover := s.refs.state == 4 || s.refs.state == 0 } else e.2)) }
  synUpdates s (fun h => h == 2)

/-- A DPLL update, with the millisecond of Sundique's PTP instances that falls on it (log entry 30). -/
def execDpllUpdate (s : State) : Host.Outcome State Fault Refusal := runMere s (fun s => ptpRun (dpllUpdate s))

/-! ### Commands -/

/-- The WC_RATE, TYPE and reserved bits of a REF_IN byte. -/
def refInBad (w : Nat) : Bool := bits w 3 2 != 0 || (w % 4 == 3 && !(decide (3 ≤ w / 16) && decide (w / 16 ≤ 9)))

/-- ref.config. -/
def planRefConfig (c : Ctx) (_ : State) : Plan :=
  let list := ((List.range 16).map (fun i => c.u8 (16 + i))).takeWhile (· != 0xFF)
  let bad := (List.range list.length).flatMap (fun i => failIf (decide (65 < list.getD i 0) || (list.take i).contains (list.getD i 0)) (.field (16 + i)))
  let xa := sext 16 (c.u16 14)
  change (failIf (decide (4 ≤ c.u8 0)) (.field 0) ++ failIf (refInBad (c.u8 1)) (.field 1) ++ failIf (refInBad (c.u8 2)) (.field 2) ++ failIf (c.u8 3 == 0) (.field 3)
      ++ failIf (!(decide (5 ≤ c.u16 4) && decide (c.u16 4 ≤ 5000))) (.field 4) ++ failIf (c.u16 6 == 0 || decide (10000 < c.u16 6)) (.field 6)
      ++ failIf (!(decide (100 ≤ c.u16 8) && decide (c.u16 8 ≤ 1000))) (.field 8) ++ failIf (decide (3600 < c.u16 10)) (.field 10)
      ++ failIf (c.u16 12 == 0 || decide (3600 < c.u16 12)) (.field 12) ++ failIf (decide (5000 < xa.natAbs)) (.field 14) ++ bad)
    [] (fun s => modRefs s (fun r => { r with staged := some (fit 33 c.p) }))

def cmdRefConfig : Cmd := { opcode := 0x0A01, issuer := 'M', scope := 'D', least := 33, rsvd := [(33, 15)], plan := planRefConfig }

def execRefConfig (r : Req) (s : State) : Host.Outcome State Fault Refusal := runCmd cmdRefConfig r s

/-- ref.select: CAND matters for MODE 1 only. -/
def planRefSelect (c : Ctx) (s : State) : Plan :=
  let m := c.u8 0
  let n := c.u8 1
  change (failIf (decide (3 < m)) (.field 0) ++ (if m = 1 then failIf (decide (65 < n)) (.field 1) ++ failIf (decide (n ≤ 65) && !qualified s n) (.conflict []) else []))
    []
    (fun s =>
      let s := modRefs s (fun r => { r with force := m })
      match m with
      | 0 => reselect s false
      | 1 => takeCand s n
      | 2 => if s.refs.state = 4 then s else holdover s
      | _ => freeRun (setSel s 0x7F))

def cmdRefSelect : Cmd := { opcode := 0x0A02, issuer := 'M', scope := 'D', least := 2, plan := planRefSelect }

def execRefSelect (r : Req) (s : State) : Host.Outcome State Fault Refusal := runCmd cmdRefSelect r s

/-- e in ns. -/
def errNs (r : Refs) : Int := divEvenI r.err 256000

/-- ref.query. -/
def planRefQuery (_ : Ctx) (s : State) : Plan :=
  let r := s.refs
  answer [] (le1 r.state ++ le1 (refSel s) ++ le1 r.origin ++ zb 1 ++ le4 (toBits 32 (errNs r)) ++ le4 (toBits 32 (divEvenI r.freq 256)) ++ le4 r.hist.length)

def cmdRefQuery : Cmd := { opcode := 0x0A03, issuer := 'M', scope := 'D', query := true, plan := planRefQuery }

def execRefQuery (r : Req) (s : State) : Host.Outcome State Fault Refusal := runCmd cmdRefQuery r s

/-- ref.syn_set. -/
def planSynSet (c : Ctx) (s : State) : Plan :=
  let n := c.u8 0
  let rate := c.u8 2
  let f := multOf (c.u8 3) * rateHz rate
  let h := (syn s n).holder
  change (failIf (decide (7 < n)) (.field 0) ++ failIf (decide (1 < c.u8 1)) (.field 1)
      ++ (if c.u8 1 = 1 then
          failIf (decide (9 < rate) && rate != 0xFF) (.field 2)
            ++ (if rate = 0xFF then [] else failIf (decide (rate ≤ 9) && (decide (f < 1000000) || decide (50000000 < f))) (.field 2) ++ failIf (decide (3 < c.u8 3)) (.field 3))
        else [])
      ++ failIf (h == 1 || h == 3) (.conflict []))
    [] (fun s => if c.u8 1 = 1 then synBind s n 2 0 (c.u8 3) rate else synRelease s n)

def cmdSynSet : Cmd := { opcode := 0x0A04, issuer := 'M', scope := 'D', least := 4, rsvd := [(4, 44)], plan := planSynSet }

def execRefSynSet (r : Req) (s : State) : Host.Outcome State Fault Refusal := runCmd cmdSynSet r s

/-- mclk.syn_bind (05 R129): a synthesiser that another holder has is refused (15 R311), and SYN7 while legacy cascade mode is in force
(12 R268). (DEDUCED, log entry 65.) -/
def planSynBind (c : Ctx) (s : State) : Plan :=
  let n := c.u8 0
  let t := c.u16 4
  let h := (syn s n).holder
  change (failIf (decide (7 < n)) (.field 0) ++ failIf (t != 0xFFFF && decide (3 < c.u8 1)) (.field 1) ++ failIf (t != 0xFFFF && !thas s.tenants t) (.field 4)
      ++ failIf ((n == 7 && s.cway.legacy.isSome) || h == 2 || h == 3 || (h == 1 && t != 0xFFFF && (syn s n).tenant != t)) (.conflict []))
    [] (fun s => if t = 0xFFFF then synRelease s n else synBind s n 1 t (c.u8 1) 0)

def cmdSynBind : Cmd := { opcode := 0x0506, issuer := 'M', scope := 'D', least := 6, rsvd := [(2, 2), (6, 42)], plan := planSynBind }

def execMclkSynBind (r : Req) (s : State) : Host.Outcome State Fault Refusal := runCmd cmdSynBind r s

end Sys2Proof.Machine
end

