-- ==== Sys2Proof/Machine/TxStream.lean ====
section
/-! DEFINITION. Chapter 04, the transmit side: packets, their headers, keys and calendar slots. -/
namespace Sys2Proof.Machine

/-! ### Samples (06 R142 to R144) -/

/-- A sample as a FORMAT carries it, in network order. -/
def encodeSample (f : Nat) (x : F32) : List Byte :=
  match f with
  | 3 => le1 (muCompress (toScaled x 14).1)
  | 4 => le1 (aCompress (toScaled x 13).1)
  | 8 => putBe 4 x.toNat
  | _ => putBe (sampleBytes f) (toBits (8 * sampleBytes f) (toScaled x (8 * sampleBytes f)).1)

/-- The payload of a list of instants, channels interleaved (04 R73). -/
def payloadOf (f ch : Nat) (instants : List (List F32)) : List Byte :=
  instants.flatMap (fun i => (List.range ch).flatMap (fun k => encodeSample f (i.getD k 0)))

/-! ### Building a packet at the boundary before its slots (04 R98 to R100) -/

/-- TS_OFFSET in use: of a SOURCE 1 media clock the offset in use is taken off, so that receivers see the relation of R89
(04 R99, 05 R110; DEDUCED, log entry 25). -/
def tsOffsetInUse (x : Tenant) (c : List Byte) : Int :=
  let o := sext 32 (cTsOffset c)
  if x.mclk.bind.source = 1 then o - divEvenI (x.mclk.offUse * cFs c) (2 ^ 32 * x.fs) else o

/-- The header of a stream's packet whose first sample is tenant sample count `n` (04 R75, R78, R99). -/
def packetHeader (s : State) (st : Stream) (n : Nat) : List Byte :=
  let c := st.cfg
  let x := tenant s st.tenant
  if isAaf (cFormat c) then
    let t := instantTime (tb s (cTb c)) x.mclk n / 65536
    let ts := (t + cTsOffset c) % 2 ^ 32
    [0x02, 0x81] ++ le1 (st.tx.seq % 256) ++ [0] ++ zb 8 ++ putBe 4 ts ++ le1 (aafCode (cFormat c)) ++ le1 (nsrCode (cRate c) * 16 + cChannels c / 256)
      ++ le1 (cChannels c) ++ le1 (aafDepth (cFormat c)) ++ putBe 2 (payloadSize c) ++ [0, 0]
  else
    let ts := ((n * cFs c / x.fs : Nat) + tsOffsetInUse x c) % (2 ^ 32 : Nat)
    [0x80] ++ le1 ((if st.tx.first then 128 else 0) + cPt c) ++ putBe 2 st.tx.seq ++ putBe 4 ts.toNat ++ putBe 4 st.tx.ssrc

/-- A transmit stream's pending key enters use once the packet index reaches ACTIVATE (04 R86). -/
def txKey (k : Nat) (s : State) : State :=
  match tget s.streams k with
  | none => s
  | some st =>
    match st.nextKey with
    | none => s
    | some (act, key) =>
      if act ≤ st.tx.index then
        let s := if st.slots = 2 then refund s st.tenant { keys := 1 } else s
        streamEv (modStream s k (fun st => { st with key := some key, nextKey := none, slots := min st.slots 1 })) k 0x409 key.keyId
      else s

/-- The source frame a transmit stream takes: the output of its bus or task for the frame that has ended; empty where there is
none. -/
def sourceFrame (s : State) (t lq : Nat) : List (List F32) :=
  match liveBus s t lq with
  | some b => b.out
  | none => ((liveTask s t lq).map (·.out)).getD []

/-- The payload of a stream's packet: the samples of its frames, a missing one as zeros in its place (04 R100), or what its encoder task gives (09 R209). -/
def packetPayload (s : State) (k : Nat) (st : Stream) (frames : List (List (List F32))) : List Byte :=
  match codecOf s k with
  | some n => ((tget s.tasks n).bind (fun w => w.coded.head?)).getD []
  | none =>
    let p := max 1 (pace (tenant s st.tenant) st.cfg)
    let n := cSpp st.cfg / p
    payloadOf (cFormat st.cfg) (cChannels st.cfg) ((List.replicate (p - frames.length) [] ++ frames).flatMap (fit' n (cChannels st.cfg)))
where
  /-- `n` instants of one frame, zeros where there are fewer. -/
  fit' (n ch : Nat) (xs : List (List F32)) : List (List F32) := xs.take n ++ List.replicate (n - xs.length) (List.replicate ch 0)

/-- At the boundary that begins frame `m`: the frame just ended enters the STQ, and in every PACE-th frame the packet for the slots
of frame m is built (04 R98, R100). -/
def buildPacket (k m : Nat) (s : State) : State :=
  match tget s.streams k with
  | none => s
  | some st =>
    let x := tenant s st.tenant
    let c := st.cfg
    let p := max 1 (pace x c)
    let stq := (st.tx.stq ++ [sourceFrame s st.tenant (cSource c)]).drop (st.tx.stq.length + 1 - p)
    let s := modStream s k (fun st => { st with tx := { st.tx with stq := stq } })
    if m % p ≠ 0 then s
    else
      let s := txKey k s
      let st := (tget s.streams k).getD default
      let coded := (codecOf s k).isSome
      let body := packetPayload s k st stq
      let zero := if coded then body.isEmpty else decide (stq.length < p) || stq.any (·.isEmpty)
      let s := match codecOf s k with
        | some n => { s with tasks := tmod s.tasks n (fun (w : Task) => { w with coded := w.coded.drop 1 }) }
        | none => s
      let s := if zero then count s k 28 else s
      let pkt : TxPkt := ⟨packetHeader s st ((m - p) * x.n), if coded ∧ zero then zb (payloadSize c) else body, st.tx.index, zero⟩
      modStream s k (fun st => { st with tx := { st.tx with
        pkt := some pkt, dueA := true, dueB := cDual c, first := false, seq := (st.tx.seq + 1) % (if isAaf (cFormat c) then 256 else 65536)
        index := (st.tx.index + 1) % 2 ^ 48, stq := if p = 1 then [] else stq } })

/-! ### Frames on the wire (04 R99) -/

/-- The 802.1Q tag of a leg, with the EtherType that follows. -/
def tagged (c : List Byte) (o et : Nat) : List Byte := (if legVlan c o = 0xFFFF then [] else putBe 2 0x8100 ++ putBe 2 (legVlan c o)) ++ putBe 2 et

/-- A stream packet as a frame on the leg at payload offset `o`, without its FCS. -/
def legFrameBytes (c : List Byte) (o : Nat) (mac : List Byte) (ipId : Nat) (data : List Byte) : List Byte :=
  if isAaf (cFormat c) then slice c (o + 8) 6 ++ mac ++ tagged c o 0x22F0 ++ data
  else
    let src := slice c (o + 24) 16
    let dst := slice c (o + 8) 16
    let v6 := legL3 c o == 1
    let sport := fld c (o + 6) 2
    let dport := fld c (o + 4) 2
    let eth := dstMac v6 dst (slice c (o + 40) 6) ++ mac
    if v6 then
      let u := udpBytes src dst sport dport data
      eth ++ tagged c o 0x86DD ++ putBe 4 (0x60000000 + cDscp c * 2 ^ 22) ++ putBe 2 u.length ++ [17, 64] ++ src ++ dst ++ u
    else
      let s4 := src.drop 12
      let d4 := dst.drop 12
      let u := udpBytes s4 d4 sport dport data
      let h := [0x45] ++ le1 (cDscp c * 4) ++ putBe 2 (20 + u.length) ++ putBe 2 ipId ++ [0x40, 0, 64, 17]
      eth ++ tagged c o 0x0800 ++ h ++ putBe 2 (inetSum (h ++ [0, 0] ++ s4 ++ d4)) ++ s4 ++ d4 ++ u

/-- The packet's bytes after protection (04 R84, R99): the payload encrypted and the tag appended, last. -/
def protectPkt (st : Stream) (p : TxPkt) : List Byte :=
  match st.key with
  | some k =>
    if cKeyed st.cfg then
      let body := srtpCrypt k.cipher k.mkey k.salt p.header p.payload p.index
      p.header ++ body ++ srtpTag k.cipher k.mkey k.salt p.header body p.index
    else p.header ++ p.payload
  | none => p.header ++ p.payload

/-- A loop packet reaches every loop receive stream that names the transmit stream `n` as PEER (04 R82, R83). -/
def loopDeliver (n g : Nat) (data : List Byte) (s : State) : State :=
  (s.streams.filter (fun e => decide (e.1 < 65536) && e.2.live && !e.2.peerGone && cLoop e.2.cfg && cPeer e.2.cfg == n)).foldl (fun s e =>
    let c := e.2.cfg
    let lg := if cDual c ∧ legPort c (48 + 48 * g) = 0xFE then g else if legPort c 48 = 0xFE then 0 else 1
    rxPacket e.1 lg true true data (tb s (cTb c)).now s) s

/-- The source MAC of a leg's port. -/
def portMac (s : State) (p : Nat) : List Byte := if p < 8 then (netPort s p).mac else (fldPort s (p - 16)).mac

/-- The Causeway lanes a leg's packet leaves on: its own, or in a ring both (17 R340). `ring` lists a ring's lanes. -/
def legLanes (ring : List Nat) (p : Nat) : List Nat := if ring.contains (p - 0x20) then ring else [p - 0x20]

/-- One packet leaves on a leg: to a network port, a field port, a lane or a loop. -/
def sendLeg (ring : List Nat) (k g : Nat) (s : State) : State :=
  match tget s.streams k with
  | none => s
  | some st =>
    let c := st.cfg
    let o := 48 + 48 * g
    let p := legPort c o
    match st.tx.pkt with
    | none => s
    | some pkt =>
      let pkt := if isAaf (cFormat c) then { pkt with header := patch pkt.header 4 (slice c (o + 24) 8) } else pkt
      let data := protectPkt st pkt
      if p = 0xFE then loopDeliver (k % 65536) g data (count (emit s (.loopPacket (k % 65536) data)) k (26 + g))
      else if isLane p then
        let up := (legLanes ring p).filter (bit s.cway.link)
        if up.isEmpty then s else up.foldl (fun s l => emit s (.lane l 7 (le1 (fld c (o + 8) 1) ++ data))) (count s k (26 + g))
      else
        let l := st.leg g
        let s := modStream s k (·.setLeg g { l with ipId := (l.ipId + 1) % 65536 })
        let frame := legFrameBytes c o (portMac s p) l.ipId data
        if p < 8 then
          if netFenced s then modStream s k (fun st => st.setLeg g { st.leg g with fenced := some frame })
          else if portExists s p then netOffer s p { cls := cTclass c, bytes := frame, leg := some (k, g) }
          else s
        else fldOfferLeg s (p - 16) { cls := cTclass c, bytes := frame, leg := some (k, g) }

/-- A leg's calendar slot: a packet that Outlet still holds of the leg is dropped, and this one is released (04 R101, 10 R224). A disabled leg sends nothing; without a key nothing is sent and
it is counted (04 R85). -/
def calendarSlot (ring : List Nat) (n g : Nat) (s : State) : State :=
  let k := skey 1 n
  match tget s.streams k with
  | none => s
  | some st =>
    let due := if g = 0 then st.tx.dueA else st.tx.dueB
    if !st.live ∨ !due ∨ 1 < g then s
    else
      let s := netStale s (legPort st.cfg (48 + 48 * g)) (k, g)
      let s := modStream s k (fun st => { st with tx := if g = 0 then { st.tx with dueA := false } else { st.tx with dueB := false } })
      if !bit st.legEn g then s
      else if cKeyed st.cfg ∧ st.key.isNone then count s k 18
      else sendLeg ring k g s

/-- At a claim in single-transmit mode, the packets built for the slots just passed are sent (16 R326). -/
def sendFenced (s : State) : State :=
  s.streams.foldl (fun s e =>
    [0, 1].foldl (fun s g =>
      match (e.2.leg g).fenced with
      | none => s
      | some b =>
        let p := legPort e.2.cfg (48 + 48 * g)
        let s := modStream s e.1 (fun st => st.setLeg g { st.leg g with fenced := none })
        if portExists s p then netOffer s p { cls := cTclass e.2.cfg, bytes := b, leg := some (e.1, g) } else s) s) s

end Sys2Proof.Machine
end

