-- ==== Sys2Proof/Machine/Cascade.lean ====
section
/-! DEFINITION. Chapter 17: Causeway lanes, enumeration, forwarded commands, legacy cascade, the chain bus and the peripheral I2C
ports. -/
namespace Sys2Proof.Machine

def modCway (s : State) (f : Cway → Cway) : State := { s with cway := f s.cway }
def modChain (s : State) (f : Chain → Chain) : State := { s with chain := f s.chain }

/-- The straps (20 DEV_STRAPS). -/
def bootSel (s : State) : Nat := s.dev.straps % 4
def twinId (s : State) : Nat := bits s.dev.straps 4 3
def cascMaster (s : State) : Bool := bit s.dev.straps 8

/-- Whether a stream has a leg on a Causeway lane. -/
def cascadeLegs (s : State) : Bool := s.streams.any (fun e => (legOffs e.2.cfg).any (fun o => isLane (legPort e.2.cfg o)))

/-- The calendar slot of a leg of a transmit stream (04 R101, 10 R224, 17 R340). -/
def execCalendarSlot (stream leg : Nat) (s : State) : Host.Outcome State Fault Refusal := runMere s (fun s => calendarSlot (ringLanes s) stream leg s)

/-! ### Enumeration (17 R336, R337) -/

/-- Whether LANES suits TOPO: a ring has CW0 and one more lane, a tree at least one; no twin link. -/
def lanesOk (s : State) (topo m : Nat) : Bool :=
  decide (m < 16) && (m &&& s.cway.twinLink) == 0 && (if topo = 1 then bit m 0 && popCount m == 2 else m != 0)

/-- cascade.enumerate: a request leaves on every cascade lane. With RENUMBER every device is numbered afresh. -/
def planEnumerate (c : Ctx) (s : State) : Plan :=
  let topo := c.u8 0
  let m := c.u8 2
  { fails := failIf (c.mb == 514 || bootSel s == 2) .noPermission ++ failIf (topo == 0 || decide (2 < topo)) (.field 0) ++ failIf (decide (4 ≤ c.u8 1)) (.field 1)
      ++ failIf (!lanesOk s topo m) (.field 2) ++ failIf (bit (c.u8 1) 0 && cascadeLegs s) (.conflict [])
    touch := [.topology]
    pends := true
    act := fun s =>
      let s := modCway s (fun w => { w with
        manager := true, numbered := true, devNum := 0, topo := topo, lanes := m, flags := c.u8 1, found := []
        devs := if bit (c.u8 1) 0 then [] else tmap w.devs (fun _ d => { d with fresh := false }) })
      ((cwLanes s).foldl (fun s n => emit s (.lane n 1 [])) s, .pend .enumerate [.topology]) }

def cmdEnumerate : Cmd := { opcode := 0x0C01, issuer := 'M', scope := 'D', least := 3, rsvd := [(3, 45)], plan := planEnumerate }

def execCascadeEnumerate (r : Req) (s : State) : Host.Outcome State Fault Refusal := runCmd cmdEnumerate r s

/-- A worker answers and forwards a request in hardware; a device whose TWIN_ID is not 00 cannot be a worker (17 R335). A worker takes
its number here; which one the manager gives is a free value (log entries 1 and 32). A Causeway request is a wake event (19 R368). -/
def enumRequest (lane : Nat) (s : State) : State :=
  if 4 ≤ lane ∨ !bit s.cway.link lane ∨ bit s.cway.twinLink lane ∨ s.cway.manager ∨ twinId s ≠ 0 then s
  else
    let s := wake s
    let (n, s) := if s.cway.numbered then (s.cway.devNum, s) else let (k, s) := drawBelow s 63; (k + 1, s)
    let s := modCway s (fun w => { w with numbered := true, devNum := n, upLane := lane, lostMgr := false })
    let s := emit s (.lane lane 2 (le1 (twinId s) ++ le1 (bootSel s) ++ le1 s.ctl.stage))
    ((cwLanes s).filter (· != lane)).foldl (fun s k => emit s (.lane k 1 [])) s

def execEnumRequest (lane : Nat) (s : State) : Host.Outcome State Fault Refusal := runBase s (enumRequest lane)

/-- The number of a device among those known. -/
def numberOf (s : State) (ident : Nat) : Option Nat := (s.cway.devs.find? (fun e => e.2.ident == ident)).map (·.1)

/-- The enumeration completes once every reached worker runs Sundique. -/
def enumCheck (s : State) : State :=
  if s.cway.found.isEmpty ∨ s.cway.devs.any (fun e => e.2.stage != 4) then s
  else (pendingFor s (fun w => w == .enumerate)).foldl (fun s p => finish s p 0 0) s

/-- The bytes of the running image. -/
def runningImage (s : State) : List Byte := (tgetD s.ctl.slots s.ctl.slot {}).image

/-- Where a device stands in hop order (17 R336): in a ring by its place, leaving the manager on CW0 (an answer the other way round counts
from the far end); in a tree by its hops, then by the lanes of its path. -/
def hopOrder (topo : Nat) (i : EnumInfo) : List Nat :=
  if topo = 1 then [if i.lane = 0 then i.hops else 128 - i.hops] else i.hops :: i.lane :: i.path

/-- Two answers of one device: in a ring the place is that of the answer over CW0 and the way the shorter one, on a tie CW0's (17 R338). -/
def mergeAnswer (topo : Nat) (a d : CwDev) : CwDev :=
  if topo ≠ 1 then d
  else
    let near := if d.hops < a.hops ∨ (d.hops = a.hops ∧ d.lane = 0) then d else a
    { d with hops := near.hops, lane := near.lane, path := near.path, order := if d.order < a.order then d.order else a.order }

/-- A device among those in hop order. -/
def insertDev (d : CwDev) : List CwDev → List CwDev
  | [] => [d]
  | e :: es => if e.order < d.order then e :: insertDev d es else d :: e :: es

/-- The devices the enumeration under way numbers, with an answer among them, in hop order. -/
def freshDevs (topo : Nat) (devs : Tbl CwDev) (d : CwDev) : List CwDev :=
  let known := (devs.map (·.2)).filter (·.fresh)
  let d := (known.find? (·.ident == d.ident)).elim d (mergeAnswer topo · d)
  insertDev d (known.filter (·.ident != d.ident))

/-- An answer numbers the devices (17 R336, R337): one that has its number from before keeps it; those the enumeration has reached take the
lowest free numbers in hop order, also where an earlier answer had given one of them another (DESIGN CHOICE, log entry 32). -/
def numbered (topo : Nat) (devs : Tbl CwDev) (d : CwDev) : Tbl CwDev :=
  let old := devs.filter (fun e => !e.2.fresh)
  match old.find? (fun e => e.2.ident == d.ident) with
  | some e => tset devs e.1 { d with fresh := false }
  | none =>
    let free := (List.range 64).filter (fun n => n != 0 && !thas old n)
    (free.zip (freshDevs topo devs d)).foldl (fun t e => tset t e.1 e.2) old

/-- An answer reaches the manager: the devices are numbered, and each whose number is new raises CASCADE_DEVICE_UP; one where the topology
is broken gets none; a worker without an image of its own is sent the manager's, with SEND_IMAGE. -/
def enumResponse (i : EnumInfo) (s : State) : State :=
  let w := s.cway
  if !w.manager ∨ i.twinId ≠ 0 ∨ 4 ≤ i.lane ∨ !bit w.lanes i.lane then s
  else if i.broken then evD s 0xC04 i.lane 0 0
  else
    let devs := numbered w.topo w.devs ⟨i.ident, true, hopOrder w.topo i, true, i.hops, i.lane, i.path, i.bootSel, i.stage⟩
    let s := modCway s (fun w => { w with found := w.found ++ [i], devs := devs })
    let s := (devs.filter (fun e => e.2.fresh && ((tget w.devs e.1).map (·.ident)) != some e.2.ident)).foldl (fun s e => evD s 0xC01 e.1 0 e.2.hops) s
    let s := match numberOf s i.ident with
      | some n => if bit w.flags 1 && i.bootSel == 2 && i.stage != 4 then emit s (.lane i.lane 6 (le1 n ++ runningImage s)) else s
      | none => s
    enumCheck s

def execEnumResponse (info : EnumInfo) (s : State) : Host.Outcome State Fault Refusal := runBase s (enumResponse info)

/-- No worker has answered within t_ENUM. -/
def enumTimeout (s : State) : State :=
  if s.cway.found.isEmpty then (pendingFor s (fun w => w == .enumerate)).foldl (fun s p => finish s p 0x0402 0) s else s

def execEnumTimeout (s : State) : Host.Outcome State Fault Refusal := runBase s enumTimeout

/-! ### Lanes (17 R332, R335, R338) -/

/-- The Causeway lanes adapt: a heavy operation (19 R363), asked for where they start to train. -/
def cwAdapt (s : State) : State := askWeir s 2 2 (.serdes 2)

/-- A lane's link comes up after step 3 of the start-up; HB_LANE of a twin joins its peer (log entry 33). With a link up neither Still nor
Sleep is the choice (19 R365, R367). -/
def cwLinkUp (lane : Nat) (s : State) : State :=
  if 4 ≤ lane ∨ !s.clk.started ∨ s.dev.safe ∨ !bit s.clk.sds 2 then s
  else
    let twin := role s != 0 && lane == s.twin.hbLane
    let s := if 3 ≤ s.pwr.state then wake s else s
    modCway s (fun w => { w with link := setBit w.link lane true, twinLink := setBit w.twinLink lane twin })

def execCwLinkUp (lane : Nat) (s : State) : Host.Outcome State Fault Refusal := run s (cwLinkUp lane)

/-- The forwarded commands that wait for worker `d`, oldest first. -/
def forwards (s : State) (d : Nat) : List PendCmd := pendingFor s (fun w => match w with | .forward k _ => k == d | _ => false)

/-! ### Virtual channels 0 and 1 (17 R332, R333) -/

/-- The VC 0 credits of 256 bytes a request holds until its response: a longer one goes out as its own come back. (DESIGN CHOICE, log entry
119.) -/
def vcCost (b : List Byte) : Nat := min 64 ((b.length + 256) / 256)

/-- VC 0 credits in use on a lane, and the space for responses (credits of VC 1 at this end) reserved there. -/
def vc0Used (w : Cway) (l : Nat) : Nat := ((w.fwds.filter (·.lane == some l)).map (fun f => vcCost f.bytes)).sum
def vc1Held (w : Cway) (l : Nat) : Nat := (w.fwds.filter (·.lane == some l)).length + (w.owed.filter (·.2 == l)).length

/-- Whether a request may leave on a lane: the space for its response is reserved first, then it waits for VC 0 credits only. -/
def vcRoom (w : Cway) (l : Nat) (b : List Byte) : Bool := decide (vc1Held w l < 64) && decide (vc0Used w l + vcCost b ≤ 64)

/-- The first waiting request of each lane leaves while there is room, in the order the manager took them (17 R342, 02 R36). `left` holds the
lanes on which an older request still waits. -/
def sendFwds : (sent todo : List Fwd) → (left : List Nat) → State → State
  | _, [], _, s => s
  | sent, f :: fs, left, s =>
    match f.lane, tget s.cway.devs f.dev with
    | none, some d =>
      if left.contains d.lane ∨ !vcRoom s.cway d.lane f.bytes then sendFwds (sent ++ [f]) fs (d.lane :: left) s
      else
        let g := { f with lane := some d.lane }
        sendFwds (sent ++ [g]) fs left (emit (modCway s (fun w => { w with fwds := sent ++ g :: fs })) (.lane d.lane 3 (le1 f.dev ++ f.bytes)))
    | _, _ => sendFwds (sent ++ [f]) fs left s

/-- What may leave on VC 0 leaves. -/
def vcSend (s : State) : State := sendFwds [] s.cway.fwds [] s

/-- Worker `d` cannot be reached: its number is free, and what was forwarded to it ends. -/
def loseDevice (s : State) (d : Nat) : State :=
  if thas s.cway.devs d then
    let s := modCway s (fun w => { w with devs := tdel w.devs d, fwds := w.fwds.filter (·.dev != d), owed := w.owed.filter (·.1 != d) })
    vcSend (evD ((forwards s d).foldl (fun s p => finish s p 0x0402 0) s) 0xC02 d 0 0)
  else s

/-- In a ring the workers reached on a lost lane are reached the other way, and requests caught on it are sent again. -/
def reroute (s : State) (lane : Nat) : State :=
  if s.cway.topo ≠ 1 ∨ !s.cway.manager then s
  else
    match (cwLanes s).find? (· != lane) with
    | none => s
    | some other =>
      let n := s.cway.devs.length
      vcSend (modCway s (fun w => { w with
        devs := tmap w.devs (fun _ d => if d.lane = lane then { d with lane := other, hops := n + 1 - d.hops } else d)
        fwds := w.fwds.map (fun f => if f.lane = some lane then { f with lane := none } else f)
        owed := w.owed.map (fun e => if e.2 = lane then (e.1, other) else e) }))

/-- A lane goes down; `lost` and `mgr` say whom no route reaches any more. A worker goes on under its last configuration (01 R13). -/
def cwLaneDown (lane : Nat) (lost : List Nat) (mgr : Bool) (s : State) : State :=
  if 4 ≤ lane ∨ !bit s.cway.link lane then s
  else
    let s := cwAdapt (modCway s (fun w => { w with link := setBit w.link lane false, twinLink := setBit w.twinLink lane false }))
    let s := if s.cway.manager then reroute (lost.foldl loseDevice s) lane else s
    if mgr && s.cway.numbered && !s.cway.manager && !s.cway.lostMgr then evD (modCway s (fun w => { w with lostMgr := true })) 0xC03 0 0 0 else s

def execCwLaneDown (lane : Nat) (lost : List Nat) (managerLost : Bool) (s : State) : Host.Outcome State Fault Refusal :=
  run s (cwLaneDown lane lost managerLost)

/-- An audio frame of a cascade leg: for this device it goes to its stream, where a ring's second copy is a duplicate (17 R340, 04
R93); for another it goes on in VC 2, by the other lane of a ring, in a tree by the lane toward its device, which only the manager's
numbering gives and which is a free choice here (log entry 1). -/
def legFrameRx (lane dst : Nat) (sid bytes : List Byte) (s : State) : State :=
  if 4 ≤ lane ∨ !bit s.cway.link lane ∨ s.ctl.stage ≠ 4 then s
  else if dst = s.cway.devNum ∧ s.cway.numbered then
    let on := fun (p : Nat) => isLane p && (legRoute s p).contains lane
    match rxLegs s (fun c o => isAaf (cFormat c) && on (legPort c o) && slice c (o + 24) 8 == sid) with
    | none => s
    | some (k, g) => rxPacket k g false true bytes (tb s (cTb ((tget s.streams k).getD default).cfg)).now s
  else
    let others := (cwLanes s).filter (· != lane)
    let (i, s) := if others.length ≤ 1 then (0, s) else drawBelow s others.length
    match others[i]? with
    | none => s
    | some n => emit s (.lane n 7 (le1 dst ++ bytes))

def execCascadeLegFrameRx (lane dst : Nat) (streamId bytes : List Byte) (s : State) : Host.Outcome State Fault Refusal :=
  runMere s (legFrameRx lane dst streamId bytes)

/-! ### cascade.query and cascade.forward (17 R342) -/

/-- One entry of cascade.query: the manager itself is device 0; a worker's free capacity is known to it alone (log entry 1). -/
def queryEntry (n : Nat) (s : State) : List Byte × State :=
  if n = 0 ∧ s.cway.manager then (le1 1 ++ le1 0 ++ le1 0 ++ le1 s.ctl.stage ++ le4 (laneFree s 1 0), s)
  else match tget s.cway.devs n with
    | none => (zb 8, s)
    | some d =>
      let (f, s) := drawBelow s 32769
      (le1 1 ++ le1 d.hops ++ le1 d.lane ++ le1 d.stage ++ le4 f, s)

/-- The entries of devices `ns`. -/
def queryEntries : List Nat → State → List Byte × State
  | [], s => ([], s)
  | n :: ns, s =>
    let (a, s) := queryEntry n s
    let (b, s) := queryEntries ns s
    (a ++ b, s)

def planCascadeQuery (c : Ctx) (_ : State) : Plan :=
  { fails := failIf (c.u64 8 % 64 != 0) (.field 8)
    act := fun s =>
      let (b, s) := queryEntries (List.range 64) s
      ({ s with host := mwrite s.host (c.u64 8) b }, .ok []) }

def cmdCascadeQuery : Cmd := { opcode := 0x0C02, issuer := 'M', scope := 'D', query := true, least := 16, plan := planCascadeQuery }

def execCascadeQuery (r : Req) (s : State) : Host.Outcome State Fault Refusal := runCmd cmdCascadeQuery r s

/-- cascade.forward: the descriptor and its payload leave on VC 0 once there is room; a worker that is not there ends the command at once. -/
def planForward (c : Ctx) (s : State) : Plan :=
  let d := c.u8 0
  { fails := failIf (!s.cway.manager) .noPermission ++ failIf (d == 0 || decide (63 < d)) (.field 0) ++ failIf (c.u64 8 % 64 != 0) (.field 8)
    pends := true
    act := fun s =>
      (if thas s.cway.devs d then vcSend (modCway s (fun w => { w with fwds := w.fwds ++ [⟨d, none, c.p.drop 16⟩] })) else s, .pend (.forward d (c.u64 8)) [])
    after := fun s => if thas s.cway.devs d then s else (forwards s d).foldl (fun s p => finish s p 0x0402 0) s }

def cmdForward : Cmd := { opcode := 0x0C03, issuer := 'M', scope := 'D', ind := true, least := 80, rsvd := [(1, 7)], plan := planForward }

def execCascadeForward (r : Req) (s : State) : Host.Outcome State Fault Refusal := runCmd cmdForward r s

/-- The requests without the oldest of device `d`. -/
def dropFirst (d : Nat) : List Fwd → List Fwd
  | [] => []
  | x :: xs => if x.dev = d then xs else x :: dropFirst d xs

/-- The expected completions without the oldest of device `d`. -/
def dropOwed (d : Nat) : List (Nat × Nat) → List (Nat × Nat)
  | [] => []
  | x :: xs => if x.1 = d then xs else x :: dropOwed d xs

/-- A worker's 32-byte response is written to RESULT_ADDR, or its 16-byte completion record becomes CMD_DONE with its number in AUX
(17 R342, 22 R403). The credits and the space its request held are free again; after ACCEPTED_PENDING the space stays for the completion. -/
def fwdResponse (d : Nat) (rsp : List Byte) (s : State) : State :=
  if rsp.length = 16 then vcSend (raiseEv (modCway s (fun w => { w with owed := dropOwed d w.owed })) 0 true ⟨1, fld rsp 4 2, fld rsp 6 2, fld rsp 8 4, fld rsp 12 2, d⟩)
  else
    match forwards s d, s.cway.fwds.find? (·.dev == d) with
    | p :: _, some ⟨_, some l, _⟩ =>
      let a := match p.what with | .forward _ a => a | _ => 0
      let s := modCway s (fun w => { w with fwds := dropFirst d w.fwds, owed := if fld rsp 2 2 = 1 then w.owed ++ [(d, l)] else w.owed })
      vcSend (finish { s with host := mwrite s.host a (fit 32 rsp) } p 0 0)
    | _, _ => s

def execFwdResponseRx (device : Nat) (rsp : List Byte) (s : State) : Host.Outcome State Fault Refusal := runBase s (fwdResponse device rsp)

/-- A forwarded command has no response within t_FWD_TMO. -/
def fwdTimeout (d : Nat) (s : State) : State :=
  match forwards s d with
  | [] => s
  | p :: _ => vcSend (finish (modCway s (fun w => { w with fwds := dropFirst d w.fwds })) p 0x0402 0)

def execFwdTimeout (device : Nat) (s : State) : Host.Outcome State Fault Refusal := runBase s (fwdTimeout device)

/-! ### Legacy cascade (17 R346, 12 R268) -/

/-- The settings of SAI28 to SAI31 in legacy cascade, as a sai.config payload; UNMUTE is not stated, a free value of its range (log
entry 1). -/
def legacyCfg (k mask unmute : Nat) : List Byte :=
  le1 k ++ [2, 32, 32, 24, 0, 5, 2] ++ le2 4 ++ le2 unmute ++ le4 0xFFFFFFFF ++ le4 mask ++ le4 0xFFFFFFFF ++ zb 24

/-- The charge the four ports add for tenant `t` over what they hold for it. -/
def legacyCharge (s : State) (t : Nat) (masks : List Nat) : Use :=
  (List.range 4).foldl (fun u i =>
    let l := lp s (28 + i)
    u.add ((lpCharge (28 + i) (legacyCfg (28 + i) (masks.getD i 0) 16)).sub (if l.tenant = t then l.charge else {}))) {}

/-- The four ports take their legacy settings, in force from the tenant's boundary. -/
def legacyPorts (s : State) (t : Nat) (masks : List Nat) : State :=
  (List.range 4).foldl (fun s i =>
    let k := 28 + i
    let (u, s) := drawInt s 16 4096
    let s := lpRelease s k t
    let p := legacyCfg k (masks.getD i 0) u.toNat
    modLp (charge s t (lpCharge k p)) k (fun l => { l with next := some p, charge := lpCharge k p, legacy := true })) s

/-- cascade.legacy_set. A tenant at 96 kHz cannot run the fixed 48 kHz lock-follow ports; a master needs SYN7, which another holder may
have (15 R311). -/
def planLegacy (c : Ctx) (s : State) : Plan :=
  let on := c.u8 0 == 1
  let t := c.u16 2
  let masks := (List.range 4).map (fun i => c.u32 (4 + 4 * i))
  let busy := (List.range 4).any (fun i => let st := (lp s (28 + i)).state; st != 0 && st != 5)
  change (failIf (decide (1 < c.u8 0)) (.field 0) ++ (if on then failIf (!thas s.tenants t || (tenant s t).rate96) (.field 2) else [])
      ++ failIf (busy || (twinId s != 0 && cascMaster s) || (on && cascMaster s && ((syn s 7).holder == 1 || (syn s 7).holder == 2))) (.conflict []) ++ (if on then quotaFails s t (legacyCharge s t masks) else []))
    ((List.range 4).map (fun i => .port (0x100 + 28 + i)))
    (fun s =>
      if on then modCway (legacyPorts s t masks) (fun w => { w with legacyNext := some (true, t, masks) })
      else match s.cway.legacy with
        | none => modCway s (fun w => { w with legacyNext := none })
        | some h =>
          modCway ((List.range 4).foldl (fun s i => modLp (lpRelease s (28 + i) (lp s (28 + i)).tenant) (28 + i) (fun l => { l with legacy := false })) s)
            (fun w => { w with legacyNext := some (false, h, []) }))

def cmdLegacy : Cmd := { opcode := 0x0C04, issuer := 'M', scope := 'D', least := 20, plan := planLegacy }

def execCascadeLegacySet (r : Req) (s : State) : Host.Outcome State Fault Refusal := runCmd cmdLegacy r s

/-- Entry or exit takes effect at a boundary of its tenant: on the master SYN7 follows the tenant's media clock, and SAI28_BCLK and SAI28_FS
become outputs or inputs again (12 R268). -/
def legacyBoundary (t : Nat) (s : State) : State :=
  match s.cway.legacyNext with
  | some (on, h, _) =>
    if h ≠ t then s
    else
      let s := modCway s (fun w => { w with legacyNext := none, legacy := if on then some t else none })
      if !cascMaster s then s
      else if on then emit (synBind s 7 3 t 0 5) (.saiClock true)
      else emit (if (syn s 7).holder = 3 then synRelease s 7 else s) (.saiClock false)
  | none => s

/-! ### The chain bus (17 R343 to R345) -/

/-- A reserved chain-bus address. -/
def chainReserved (a : Nat) : Bool := decide (a < 8) || decide (0x78 ≤ a)

/-- CHAIN_ADDR written through address `via`. The device answers at 0x4C while it has no assigned address, else at that address only;
one that answers at 0x4C sees ADDR_IN high (DEDUCED, log entry 34). -/
def chainAddrWrite (via a : Nat) (s : State) : State :=
  let w := s.chain
  if via ≠ (if w.assigned then w.addr else 0x4C) then s
  else
    let s := modChain s (fun w => { w with addrIn := w.addrIn || !w.assigned })
    if chainReserved a then modChain s (fun w => { w with addrErr := true })
    else modChain s (fun w => { w with addr := a, assigned := true, addrOut := true })

def execChainAddrWrite (via : Nat) (val : BitVec 32) (s : State) : Host.Outcome State Fault Refusal :=
  if bits val.toNat 31 8 ≠ 0 then .fault (.reservedTestControl 0x098000)
  else runBase s (chainAddrWrite via (val.toNat % 128))

def execChainPartialWrite (s : State) : Host.Outcome State Fault Refusal :=
  runBase s (fun s => modChain s (fun w => { w with partials := min 0xFFFF (w.partials + 1) }))

def execChainBusTimeout (s : State) : Host.Outcome State Fault Refusal := runBase s (fun s => modChain s (fun w => { w with busTmo := true }))

/-! ### Peripheral I2C ports (17 R347, R348) -/

/-- What happens on the bus: pulses of the recovery (0 none needed, 10 never recovered), RESULT, the byte of a data NACK, the bytes
read. -/
structure I2cBus where
  pulses : Nat
  result : Nat
  nackAt : Nat
  data   : List Byte

/-- A bus whose course nobody states: free values. -/
def drawBus (rlen : Nat) (s : State) : I2cBus × State :=
  let (p, s) := drawBelow s 11
  let (r, s) := drawBelow s 4
  let (n, s) := drawBelow s 32
  let (bs, s) := (List.range rlen).foldl (fun (x : List Byte × State) _ => let (v, s) := drawBelow x.2 256; (x.1 ++ le1 v, s)) ([], s)
  (⟨p, r, n, bs⟩, s)

/-- i2c.xfer, with what the bus does where the step states it. -/
def planI2c (bus : Option I2cBus) (c : Ctx) (s : State) : Plan :=
  let k := c.u8 0
  let port := tgetD s.i2c k {}
  { fails := failIf (decide (3 < k)) (.field 0) ++ failIf (decide (2 < c.u8 1)) (.field 1) ++ failIf (decide (127 < c.u8 2)) (.field 2)
      ++ failIf (decide (32 < c.u8 3)) (.field 3) ++ failIf (decide (16 < c.u8 4)) (.field 4) ++ failIf port.busy (.busy [])
    act := fun s =>
      let (b, s) := match bus with | some b => (b, s) | none => drawBus (c.u8 4) s
      let stuck := decide (10 ≤ b.pulses)
      let res := if stuck then 4 else b.result % 4
      let s := { s with i2c := tset s.i2c k { port with
        result := res, speed := c.u8 1, sda := !stuck, scl := true, stuck := if stuck then inc48 port.stuck 1 else port.stuck } }
      let s := if stuck then evD s 0xC10 k 0 0 else emit s (.i2c k (c.u8 2) (slice c.p 16 (c.u8 3)) (c.u8 4))
      (s, .ok (le1 res ++ le1 (if res = 2 then b.nackAt else 0) ++ zb 6 ++ (if res = 0 then fit (c.u8 4) b.data else []))) }

def cmdI2c (bus : Option I2cBus) : Cmd := { opcode := 0x0C10, issuer := 'M', scope := 'D', least := 16, rsvd := [(5, 11)], plan := planI2c bus }

def execI2cXfer (r : Req) (sdaPulses result nackAt : Nat) (rdata : List Byte) (s : State) : Host.Outcome State Fault Refusal :=
  runCmd (cmdI2c (some ⟨sdaPulses, result, nackAt, rdata⟩)) r s

end Sys2Proof.Machine
end

