-- ==== Sys2Proof/Machine/Lakebed.lean ====
section
/-! DEFINITION. Chapter 18, Lakebed: regions, line writes, wear levelling, retirement and the spare pool (R355 to R357). Blocks are
numbered in the order of R355, the pool last. Transit blocks, which move data without a trace outside, are not followed (log entry 39). -/
namespace Sys2Proof.Machine

def modHealth (s : State) (f : Health → Health) : State := { s with health := f s.health }

/-- A bit of HLTH_MEM_ERR sets. -/
def memErr (s : State) (b : Nat) : State := modHealth s (fun h => { h with memErr := setBit h.memErr b true })

/-- First block and number of blocks of each region, in the order of R355; 7 is the spare and transit pool. -/
def regionSpan : Nat → Nat × Nat
  | 0 => (0, 4096)
  | 1 => (4096, 4096)
  | 2 => (8192, 1024)
  | 3 => (9216, 4096)
  | 4 => (13312, 64)
  | 5 => (13376, 1792)
  | 6 => (15168, 192)
  | _ => (15360, 1024)

/-- The region of a block. -/
def regionOf (b : Nat) : Nat := ((List.range 7).find? (fun r => decide (b < (regionSpan r).1 + (regionSpan r).2))).getD 7

/-- Whether writes to a region fail: a block was retired with the pool empty (18 R357). -/
def regionReadOnly (s : State) (r : Nat) : Bool := r != 2 && s.health.exhausted.contains r

/-- The map in force, that of the copy with the higher sequence number, and a change of it: one write of the other copy (18 R355, R356). -/
def lakeMap (h : Health) : Tbl Nat := if h.mapA.seq < h.mapB.seq then h.mapB.map else h.mapA.map
def setLakeMap (h : Health) (m : Tbl Nat) : Health :=
  if h.mapA.seq < h.mapB.seq then { h with mapA := ⟨h.mapB.seq + 1, m⟩ } else { h with mapB := ⟨h.mapA.seq + 1, m⟩ }

/-- The physical block of a logical one. -/
def physBlock (h : Health) (l : Nat) : Nat := tgetD (lakeMap h) l l

/-- The logical block of region `r` whose physical block has the lowest lifetime count. -/
def lowestBlock (h : Health) (r : Nat) : Nat :=
  let (a, n) := regionSpan r
  (List.range n).foldl (fun best i => if tgetD h.blocks (physBlock h (a + i)) 0 < tgetD h.blocks (physBlock h best) 0 then a + i else best) a

/-- A block that has taken 65,536 line writes since it was mapped changes places with the one of lowest count. -/
def levelBlock (l : Nat) (s : State) : State :=
  let h := s.health
  let p := physBlock h l
  if tgetD h.blocks p 0 - tgetD h.mapped l 0 < 65536 then s
  else
    let m := lowestBlock h (regionOf l)
    let q := physBlock h m
    modHealth s (fun h => { setLakeMap h (tset (tset (lakeMap h) l q) m p) with
      mapped := tset (tset h.mapped l (tgetD h.blocks q 0)) m (tgetD h.blocks p 0) })

/-- Logical block `l` loses its physical block: a pool block replaces it, or, with the pool empty, its region is exhausted. -/
def retireBlock (l : Nat) (s : State) : State :=
  let h := s.health
  let p := physBlock h l
  let s := memErr s 5
  if h.lkbSpares = 0 then
    evD (modHealth s (fun h => { h with exhausted := h.exhausted ++ [regionOf l] })) 0xE06 (regionOf l) 0 0
  else
    let left := h.lkbSpares - 1
    let q := 16384 - h.lkbSpares
    let s := modHealth s (fun h => { setLakeMap h (tset (lakeMap h) l q) with lkbSpares := left, mapped := tset h.mapped l (tgetD h.blocks q 0), repair := h.repair ++ [(6, p)] })
    let s := evD (memErr s 6) 0xE02 (6 * 2 ^ 28 + p) 0 0
    if left = 102 then evD (memErr s 7) 0xE05 0 0 102 else s

/-- `n` line writes to logical block `l`. -/
def writeBlock (l n : Nat) (s : State) : State :=
  let s := levelBlock l s
  let p := physBlock s.health l
  let c := tgetD s.health.blocks p 0 + n
  let s := modHealth s (fun h => { h with blocks := tset h.blocks p c })
  if 90000000 ≤ c then retireBlock l s else s

/-- `n` line writes from line 0 of block `b` on, 64 lines a block. -/
def writeLines (b n : Nat) (s : State) : State :=
  (List.range ((n + 63) / 64)).foldl (fun s i => writeBlock (b + i) (min 64 (n - 64 * i)) s) s

/-- The wear pass: a line that needed 2 or more corrections is rewritten in place, and counts as corrected; `weak` names such lines,
64 to a block. `failed` names the lines that have failed verification twice since the last pass: their blocks are retired (18 R356; DESIGN
CHOICE for the moment, log entry 39). -/
def wearPass (weak failed : List Nat) (s : State) : State :=
  let s := weak.foldl (fun s n => writeBlock (n / 64 % 16384) 1 (modHealth (memErr s 4) (fun h => { h with lkbCe := inc48 h.lkbCe 1 }))) s
  failed.foldl (fun s n => retireBlock (n / 64 % 16384) s) s

def execLakebedWearPass (weak failed : List Nat) (s : State) : Host.Outcome State Fault Refusal := runBase s (wearPass weak failed)

end Sys2Proof.Machine
end

