-- ==== Sys2Proof/Machine/Control.lean ====
section
/-! DEFINITION. Chapter 02: mailbox rights, mailbox engines, boot images and firmware replacement. -/
namespace Sys2Proof.Machine

/-! ### device.mailbox_set (02 R25) -/

/-- device.mailbox_set: MAILBOX, RIGHTS, TENANT, and for a network session UDP_PORT, KEY_SLOT and ADDRESS. -/
def planMailboxSet (c : Ctx) (s : State) : Plan :=
  let m := c.u8 0
  let r := c.u8 1
  let t := c.u16 2
  let fails := failIf (decide (4 < m)) (.field 0) ++ failIf (decide (2 < r)) (.field 1)
    ++ failIf (if r = 2 then !thas s.tenants t else t != 0) (.field 2)
  change fails [] (fun s =>
    let old := session s (if m = 0 then 513 else 514 + m)
    let new := { old with rights := r, tenant := t }
    if m = 0 then { s with ctl := { s.ctl with chain := new } }
    else
      let new := { new with udpPort := c.u16 4, keySlot := c.u16 6, address := slice c.p 8 16 }
      { s with ctl := { s.ctl with sessions := tset s.ctl.sessions (m - 1) new } })

/-- The row 0x0108. -/
def cmdMailboxSet : Cmd := { opcode := 0x0108, issuer := 'P', scope := 'D', least := 24, plan := planMailboxSet }

def execDeviceMailboxSet (r : Req) (s : State) : Host.Outcome State Fault Refusal := runCmd cmdMailboxSet r s

/-! ### Images and firmware replacement (02 R43 to R46) -/

/-- The first check of 02 R43 an image fails: 1 header, 2 root key, 3 signature, 4 rollback; 0 if it passes. -/
def imageCheck (s : State) (img : List Byte) : Nat :=
  if !Config.imgHeaderOk img then 1
  else if !Config.imgKeyOk img then 2
  else if !Config.imgSigOk img then 3
  else if (Config.imgSvn img).toNat < s.ctl.rollback then 4
  else 0

/-- The same for the image of a slot: 5 where it holds none; the factory image passes (23 R422). -/
def slotCheck (s : State) (k : Nat) : Nat :=
  let im := tgetD s.ctl.slots k {}
  if !im.verified then 5 else if im.factory then (if im.svn < s.ctl.rollback then 4 else 0) else imageCheck s im.image

/-- The slot a SLOT field names; 0xFF names the slot that is not running. -/
def slotOf (s : State) (f : Nat) : Nat := if f = 0xFF then 1 - s.ctl.slot else f

/-- Whether slot `k` holds the running image. -/
def slotRuns (s : State) (k : Nat) : Bool := s.ctl.stage == 4 && s.ctl.slot == k

/-- firmware.load (0x0F01). -/
def planFwLoad (c : Ctx) (s : State) : Plan :=
  let f := c.u8 0
  let k := slotOf s f
  let img := c.p.drop 8
  let chk := imageCheck s img
  { fails := failIf (decide (1 < f) && f != 0xFF) (.field 0)
      ++ failIf (slotRuns s k) (.conflict []) ++ failIf (chk == 4) .noPermission
      ++ failIf (chk != 0 && chk != 4) (.field 8)
    touch := [.image]
    pends := true
    act := fun s => (askWeir s 2 1 (.lakebed ((img.length + 63) / 64)), .pend (.fwLoad k img) [.image]) }

def cmdFwLoad : Cmd :=
  { opcode := 0x0F01, issuer := 'M', scope := 'D', ind := true, least := 8, rsvd := [(1, 7)], plan := planFwLoad }

def execFirmwareLoad (r : Req) (s : State) : Host.Outcome State Fault Refusal := runCmd cmdFwLoad r s

/-- firmware.activate (0x0F02): no command is taken from here on, and PAUSED sets once every taken one is answered. -/
def planFwActivate (c : Ctx) (s : State) : Plan :=
  let f := c.u8 0
  let k := slotOf s f
  { fails := failIf (decide (1 < f) && f != 0xFF) (.field 0) ++ failIf (slotRuns s k) (.conflict [])
      ++ failIf (!(tgetD s.ctl.slots k {}).verified) .notReady
    touch := [.image]
    pends := true
    act := fun s => ({ s with ctl := { s.ctl with handover := true } }, .pend (.fwActivate k) [.image]) }

def cmdFwActivate : Cmd :=
  { opcode := 0x0F02, issuer := 'M', scope := 'D', least := 1, rsvd := [(1, 47)], plan := planFwActivate }

def execFirmwareActivate (r : Req) (s : State) : Host.Outcome State Fault Refusal := runCmd cmdFwActivate r s

/-- firmware.commit (0x0F03): the running slot becomes preferred, TRIAL clears, the anti-rollback counter never falls
(02 R44). -/
def planFwCommit (_ : Ctx) (s : State) : Plan :=
  change (failIf s.ctl.paused .notReady) [] (fun s =>
    { s with ctl := { s.ctl with preferred := s.ctl.slot, trial := false, rollback := max s.ctl.rollback s.ctl.svn } })

def cmdFwCommit : Cmd := { opcode := 0x0F03, issuer := 'M', scope := 'D', plan := planFwCommit }

def execFirmwareCommit (r : Req) (s : State) : Host.Outcome State Fault Refusal := runCmd cmdFwCommit r s

/-- firmware.status (0x0F04). -/
def planFwStatus (_ : Ctx) (s : State) : Plan :=
  let a := tgetD s.ctl.slots 0 {}
  let b := tgetD s.ctl.slots 1 {}
  answer [] (le1 s.ctl.slot ++ le1 s.ctl.preferred ++ le1 (b2n s.ctl.trial) ++ le1 s.ctl.rollback ++ le1 a.svn ++ le1 b.svn
    ++ zb 2 ++ le4 a.version ++ le4 b.version)

def cmdFwStatus : Cmd := { opcode := 0x0F04, issuer := 'M', scope := 'D', query := true, plan := planFwStatus }

def execFirmwareStatus (r : Req) (s : State) : Host.Outcome State Fault Refusal := runCmd cmdFwStatus r s

/-- The Lakebed write of firmware.load ends: FW_LOADED with OK, or with HW_FAULT if the write failed or the region has become read-only
(18 R357). -/
def fwLoaded (ok : Bool) (s : State) : State :=
  (pendingFor s (fun w => match w with | .fwLoad _ _ => true | _ => false)).foldl (fun s p =>
    match p.what with
    | .fwLoad k img =>
      let ok := ok && !regionReadOnly s 0
      let s := if ok then writeLines (2048 * k) ((img.length + 63) / 64) s else s
      let s := if ok then
          { s with ctl := { s.ctl with slots := tset s.ctl.slots k { verified := true, svn := (Config.imgSvn img).toNat, version := (Config.imgVersion img).toNat, image := img } } }
        else s
      finish s p (if ok then 0 else 0x0601) 0
    | _ => s) s

def execFwLoaded (ok : Bool) (s : State) : Host.Outcome State Fault Refusal := runBase s (fwLoaded ok)

/-- The activation of slot `k` ends: the new image serves on trial, or the old pair resumes and FW_ACTIVATED reports
HW_FAULT (02 R46). -/
def endActivation (ok : Bool) (s : State) : State :=
  if !s.ctl.paused then s
  else
    (pendingFor s (fun w => match w with | .fwActivate _ => true | _ => false)).foldl (fun s p =>
      match p.what with
      | .fwActivate k =>
        let im := tgetD s.ctl.slots k {}
        let chk := slotCheck s k
        let good := ok && im.verified && chk == 0
        let ctl := { s.ctl with paused := s.ctl.failover && !good, handover := false }
        let ctl := if good then
            { ctl with slot := k, trial := true, svn := im.svn, version := im.version, pairs := 2, failover := false, paused := false
                       stage := if s.ctl.stage = 1 then 3 else s.ctl.stage }
          else if im.verified && chk != 0 then { ctl with failCode := chk } else ctl
        finish { s with ctl := ctl } p (if good then 0 else 0x0601) 0
      | _ => s) s

def execFwHandoverTaken (newPairOk : Bool) (s : State) : Host.Outcome State Fault Refusal := runBase s (endActivation newPairOk)

def execFwPauseTimeout (s : State) : Host.Outcome State Fault Refusal := runBase s (endActivation false)

/-! ### Mailbox engines (02 R32 to R34) -/

/-- A write of MBX_DB: [6:0] PI; [63:7] hold no writable field and are written back as read, 0 (20 R375). A doorbell of any
function is a wake event (19 R368). -/
def execMbxDoorbell (mb : Nat) (val : BitVec 64) (s : State) : Host.Outcome State Fault Refusal :=
  let v := val.toNat
  if bits v 15 7 ≠ 0 ∨ bits v 63 32 ≠ 0 then .fault (.reservedTestControl 0x1800)
  else runBase s (fun s => if mbExists mb then wake (ringDoorbell s mb (v % 128)) else s)

/-- A write of MBX_RSP_CI (02 R34). -/
def rspCiWrite (mb ci : Nat) (s : State) : State :=
  let m := mbox s mb
  if (ci + 128 - m.rspCi) % 128 ≤ (m.rspPi + 128 - m.rspCi) % 128 then modMbx s mb (fun m => { m with rspCi := ci })
  else modMbx s mb (fun m => { m with dbErr := true })

def execMbxRspCiWrite (mb : Nat) (val : BitVec 32) (s : State) : Host.Outcome State Fault Refusal :=
  if bits val.toNat 31 7 ≠ 0 then .fault (.reservedTestControl 0x1818)
  else runBase s (fun s => if mbExists mb then rspCiWrite mb (val.toNat % 128) s else s)

def execCmdTake (mb : Nat) (s : State) : Host.Outcome State Fault Refusal :=
  runBase s (fun s => if mbExists mb then ringTake s mb else s)

/-- A control datagram (02 R27): accepted only if it authenticates under the session's key and its sequence number is
greater than the last one accepted; its descriptor then enters the session's ring. Any other is counted and reported at
most once per second per session. -/
def controlDatagram (n seq : Nat) (body tag addr : List Byte) (port : Nat) (s : State) : State :=
  let ss := tgetD s.ctl.sessions n {}
  let fresh := match ss.rxSeq with | none => true | some l => decide (l < seq)
  let ok := decide (n < 4) && ss.rights != 0 && fresh && tag == gcmTag (ctlKey ss) (ctlNonce false seq) (Config.ctlAad false seq) body
  if ok then
    let clear := gcmCrypt (ctlKey ss) (ctlNonce false seq) body
    let mb := 515 + n
    let s := { s with ctl := { s.ctl with sessions := tset s.ctl.sessions n { ss with rxSeq := some seq } } }
    ringDoorbell (modMbx s mb (·.putEntry (descOf (fit 64 clear)) (some (clear.drop 64)) (addr, port))) mb (((mbox s mb).pi + 1) % 128)
  else
    let s := { s with ctl := { s.ctl with authDrop := inc48 s.ctl.authDrop 1 } }
    if ss.dropAt = some (secs s) then s
    else evD { s with ctl := { s.ctl with sessions := tset s.ctl.sessions n { ss with dropAt := some (secs s) } } } 0x0101 n 0 0

def execNetControlDatagram (n seq : Nat) (body tag addr : List Byte) (port : Nat) (s : State) : Host.Outcome State Fault Refusal :=
  runMere s (controlDatagram n seq body tag addr port)

/-! ### Both management pairs fail (02 R40) -/

/-- The engines' answer HW_FAULT: bytes 8-9 read 0xFFFF, byte 10 whether the command was applied. (DEDUCED, log entry 58.) -/
def hwFaultAnswer (d : Desc) (applied : Bool) : List Byte := response d d.opcode 0x0601 (le2 0xFFFF ++ le1 (b2n applied))

/-- Every taken command of mailbox `mb` without a response is answered, in ring order. -/
def answerTaken (mb : Nat) (cs : List Taken) (s : State) : State :=
  cs.foldl (fun s c => if c.quiet then s else respond s mb (hwFaultAnswer c.desc false) c.peer) s

/-- Whether a pending command's commit has taken place: a firmware command changes nothing before its end (DESIGN CHOICE, log entry 58). -/
def PendWhat.applied : PendWhat → Bool
  | .fwLoad _ _ | .fwActivate _ => false
  | _ => true

/-- Both pairs have failed: the engines answer in firmware's place. Bytes 8 to 10 of a record are those of OBJECT (03 R65). -/
def mgmtDown (s : State) : State :=
  let s := match s.ctl.inFlight with
    | some f => if f.cmd.quiet then s else respond { s with ctl := { s.ctl with inFlight := none } } f.mb (hwFaultAnswer f.cmd.desc f.committed) f.cmd.peer
    | none => s
  let s := s.mbx.foldl (fun s p => modMbx (answerTaken p.1 p.2.taken s) p.1 (fun m => { m with taken := [] })) s
  let s := s.ctl.pend.foldl (fun s p => complete s p (compType p).1 (0xFFFF + 0x10000 * b2n p.what.applied) 0x0601 0) s
  { s with ctl := { s.ctl with mgmtDown := true, pairs := 0, paused := false, handover := false, failover := false, inFlight := none } }

/-- The serving pair fails between commands: the standby pair takes over, or no pair is left (02 R39, R40). -/
def failoverStart (s : State) : State :=
  if s.ctl.mgmtDown then s
  else if s.ctl.pairs ≤ 1 then mgmtDown s
  else { s with ctl := { s.ctl with pairs := 1, failover := true, paused := true } }

def execMgmtDown (s : State) : Host.Outcome State Fault Refusal := run s (fun s => if s.ctl.mgmtDown then s else mgmtDown s)

end Sys2Proof.Machine
end

