-- ==== Sys2Proof/Machine/Mclk.lean ====
section
/-! DEFINITION. Chapter 05: media clocks and their updates, estimators, mode switches, and the Eddy queries. -/
namespace Sys2Proof.Machine

def modMclk (s : State) (t : Nat) (f : MClk → MClk) : State := modTenant s t (fun x => { x with mclk := f x.mclk })

/-! ### Phase detectors (05 R109) -/

/-- The SOURCE 1 target without its offset, in 2^-32 sample: the full time of RATE_TB times the rate (05 R109, R110). (DESIGN CHOICE for the
rounding, half to even, log entry 107.) -/
def tbTarget (b : TimeBase) (fs : Nat) : Int := divEvenI (b.full * (fs * 2 ^ 32 : Nat)) (1000000000 * 2 ^ 48)

/-- The input position of a stream at its presentation time now, in 2^-32 sample: from its anchor pair, L and r (04 R89). -/
def streamTarget (s : State) (st : Stream) (fsT : Nat) : Int := divEvenI (posAt fsT st.cfg st.rx (tb s (cTb st.cfg)).now) (2 ^ 12)

/-- What the clock's source asks for, without the offset in use; none where the source fails (05 R112). -/
def mclkTarget (s : State) (x : Tenant) : Option Int :=
  let b := x.mclk.bind
  match b.source with
  | 1 => if (tb s b.rateTb).valid then some (tbTarget (tb s b.rateTb) x.fs) else none
  | 2 =>
    match tget s.streams b.object with
    | some st => if st.rx.anchored && st.rx.active && !st.rx.silent && !st.closing then some (streamTarget s st x.fs) else none
    | none => none
  | 3 =>
    let l := lp s b.object
    if l.clk && !l.cfg.isEmpty then some (divEvenI ((l.frames * x.fs * 2 ^ 32 : Nat) : Int) (rateHz (lpRate b.object l.cfg))) else none
  | _ => none

/-- MC_EXT with FRAC, in 2^-32 sample. -/
def MClk.count32 (m : MClk) : Nat := m.acc / 2 ^ 24 % 2 ^ 80

/-- The phase error against a target: both count modulo 2^48 samples (05 R107). -/
def MClk.phaseErr (m : MClk) (z : Int) : Int := sext 80 (toBits 80 ((m.count32 : Int) - z))

/-! ### The update (05 R108, R111, R112) -/

/-- INC moves to what is called for by at most 1 ppm of nominal and stays within 500 ppm of it; also whether the latter held it. -/
def stepInc (nom inc : Nat) (want : Int) : Nat × Bool :=
  let d : Int := ((nom / 1000000 : Nat) : Int)
  let w : Int := ((nom * 500 / 1000000 : Nat) : Int)
  let v := clampI ((inc : Int) - d) ((inc : Int) + d) want
  let z := clampI ((nom : Int) - w) ((nom : Int) + w) v
  (z.toNat, z != v)

/-- The mean of the last updates. -/
def meanInc (m : MClk) : Int := if m.incs.isEmpty then (m.inc : Int) else ((divEven (m.incs.foldl (· + ·) 0) m.incs.length : Nat) : Int)

/-- An event of a media clock: its OBJECT is SOURCE (22 R405). -/
def mclkEv (s : State) (t typ aux : Nat) : State := evT s t typ (tenant s t).mclk.bind.source 0 aux

/-- INC takes a value called for; MCLK_CLAMP is raised once in each second in which the range holds it (05 R108). -/
def setInc (s : State) (t : Nat) (want : Int) (keep : Bool) : State :=
  let x := tenant s t
  let (inc, held) := stepInc x.nomInc x.mclk.inc want
  let due := held && x.mclk.clampAt != some (secs s)
  let s := modMclk s t (fun m => { m with
    inc := inc, incs := if keep then m.incs else (inc :: m.incs).take 1000, clampAt := if held then some (secs s) else m.clampAt })
  if due then mclkEv s t 0x505 0 else s

/-- Whether `|e|` exceeds SLEW_LIMIT at rate `fs`. -/
def beyondSlew (b : Bind) (fs : Nat) (e : Int) : Bool := decide (b.slewLimit * fs * 2 ^ 32 < e.natAbs * 1000000)

/-- The limits within which INC stays, 500 ppm of nominal (05 R108), for the integrator of the loop, 2^-32 INC. -/
def clampInteg (nom : Nat) (z : Int) : Int :=
  let w : Int := ((nom * 500 / 1000000 : Nat) : Int)
  clampI (((nom : Int) - w) * (2 ^ 32 : Nat)) (((nom : Int) + w) * (2 ^ 32 : Nat)) z

/-- The loop of type 2 and damping 1 (for a proportional gain K the integral gain is K^2 / 4) at an update, with phase error `e` in 2^-32
sample: its new integrator and the INC it calls for (05 R111). (DESIGN CHOICE for the rounding, log entry 107.) -/
def loopCalls (nom bw : Nat) (integ e : Int) : Int × Int :=
  let g : Int := (Config.loopGain (10 * bw)).toNat
  let i := clampInteg nom (integ - divEvenI (e * g * g) (2 ^ 10 * 1200000000000))
  (i, divEvenI (i - divEvenI (e * g * (2 ^ 24 : Nat)) 1200000000) (2 ^ 32))

/-- The loop of a clock whose source is there, with phase error `e` in 2^-32 sample: lock and unlock, the re-anchor, and the INC the
loop calls for; after a holdover it resumes from the INC held (05 R111, R112). -/
def mclkLoop (s : State) (t : Nat) (e : Int) : State :=
  let x := tenant s t
  let m := x.mclk
  let lost := m.state == 2 && decide (2 ^ 32 < e.natAbs)
  let near := decide (e.natAbs * 100 ≤ 2 ^ 32)
  let ms := if near then min (m.lockMs + 1) 1001 else 0
  let jump := beyondSlew m.bind x.fs e
  let s := modMclk s t (fun m => { m with
    state := if m.state = 2 ∧ !lost then 2 else 1, lockMs := ms, err := e, integ := if m.state = 3 then (m.inc * 2 ^ 32 : Nat) else m.integ })
  let s := if lost then mclkEv s t 0x502 0 else s
  let s := if jump then
      mclkEv (modMclk s t (fun m => { m with offUse := m.offUse + e, err := 0 })) t 0x504 (toBits 16 (divAway e (2 ^ 32)))
    else s
  let s := if !jump && decide (1000 < ms) && (tenant s t).mclk.state == 1 then mclkEv (modMclk s t (fun m => { m with state := 2 })) t 0x501 0 else s
  let m := (tenant s t).mclk
  let (i, want) := loopCalls x.nomInc m.bind.bw m.integ m.err
  setInc (modMclk s t (fun m => { m with integ := i })) t want false

/-- One media clock's update; afterwards what mclk.query reports is taken (05). -/
def mclkOne (s : State) (t : Nat) : State :=
  let x := tenant s t
  let m := x.mclk
  let s :=
    if m.bind.source = 0 then setInc (modMclk s t (fun m => { m with state := 0, err := 0, lockMs := 0 })) t x.nomInc false
    else
      match mclkTarget s x with
      | none =>
        let s := if m.state = 3 then s else mclkEv (modMclk s t (fun m => { m with state := 3, lockMs := 0 })) t 0x503 0
        setInc s t (meanInc m) true
      | some z => mclkLoop s t (m.phaseErr (z + m.offUse))
  modMclk s t (fun m => { m with snap := some (m.acc, m.inc, m.state, m.err) })

/-- The media-clock update, once every 1 ms of Mere time, with the synthesisers that follow a media clock (05 R108, R129). -/
def mclkUpdate (s : State) : State :=
  let s := gridStep 0 1200000 s
  synUpdates (s.tenants.foldl (fun s e => mclkOne s e.1) s) (fun h => h == 1 || h == 3)

def execMclkUpdate (s : State) : Host.Outcome State Fault Refusal := runMere s mclkUpdate

/-! ### mclk.bind and mclk.query -/

/-- Whether a tenant has what ALIGN forbids: an open stream, a local port or a host audio ring (05 R113). -/
def hasAudio (s : State) (t : Nat) : Bool :=
  s.streams.any (fun e => e.2.tenant == t) || s.lps.any (fun e => e.2.tenant == t)
    || s.queues.any (fun e => e.2.tenant == t && (e.2.typ == 5 || e.2.typ == 6) && (e.2.context.map (·.link)) != some 0xFFFF)

/-- The binding of a payload, with its defaults. -/
def bindOf (c : Ctx) : Bind :=
  { source := c.u8 0, rateTb := c.u8 1, object := c.u16 2, bw := if c.u16 4 = 0 then 100 else c.u16 4, slewLimit := if c.u16 6 = 0 then 100 else c.u16 6
    mcOffset := sext 64 (c.u64 8), align := bit (c.u8 16) 0 }

/-- The failing conditions of OBJECT (05 mclk.bind). -/
def bindObject (c : Ctx) (s : State) : List Fail :=
  let t := c.tenant
  let o := c.u16 2
  match c.u8 0 with
  | 2 =>
    match tget s.streams o with
    | none => [missing s (.stream o) 2]
    | some st => failIf (decide (65536 ≤ o) || st.tenant != t || cFs st.cfg != (tenant s t).fs) (.field 2) ++ failIf (st.tenant == t && st.closing) (.conflict [])
  | 3 => failIf (!(decide (o < 0x28) && (lp s o).tenant == t)) (.field 2)
  | _ => failIf (o != 0) (.field 2)

/-- mclk.bind: the binding waits for the tenant's next frame boundary (05 R113). -/
def planBindClock (c : Ctx) (s : State) : Plan :=
  let t := c.tenant
  let b := bindOf c
  let x := tenant s t
  let low := decide (tbTarget (tb s b.rateTb) x.fs + b.mcOffset * (2 ^ 32 : Nat) < ((x.mclk.ext * 2 ^ 32 : Nat) : Int))
  change (failIf (decide (3 < b.source)) (.field 0) ++ failIf (decide (15 < b.rateTb)) (.field 1) ++ bindObject c s
      ++ failIf (c.u16 4 != 0 && (decide (c.u16 4 < 10) || decide (1000 < c.u16 4))) (.field 4) ++ failIf (decide (1000 < c.u16 6)) (.field 6)
      ++ failIf (b.source != 1 && c.u64 8 != 0) (.field 8) ++ failIf (decide (2 ≤ c.u8 16) || (b.align && b.source != 1)) (.field 16)
      ++ failIf (b.align && b.source == 1 && (hasAudio s t || low)) (.conflict []))
    (if b.source = 2 then [.stream b.object] else if b.source = 3 then [.port (0x100 + b.object)] else []) (fun s => modMclk s t (fun m => { m with staged := some b }))

def cmdMclkBind : Cmd := { opcode := 0x0501, issuer := 'T', scope := 'T', least := 17, rsvd := [(17, 31)], plan := planBindClock }

def execMclkBind (r : Req) (s : State) : Host.Outcome State Fault Refusal := runCmd cmdMclkBind r s

/-- The rate at which the SOURCE 1 target advances, as the integrator of the loop holds it (2^-32 INC): the rate of RATE_TB itself. (DEDUCED
from the worked increment of 05, log entry 107.) -/
def tbInteg (b : TimeBase) (fs : Nat) : Int := divEvenI (fs * b.inc * 2 ^ 40 : Nat) 1000000000

/-- The binding takes effect (05 R113): with ALIGN the accumulator goes to the target, unless that has fallen below MC_EXT; then, and
always without ALIGN, the clock goes on and a difference is taken as at a source's return. INC continues from its present value. A new
binding phases the synthesisers that follow the clock anew (R129). Also whether MC_EXT has been stepped. -/
def bindClock (s : State) (t : Nat) : State × Bool :=
  let x := tenant s t
  match x.mclk.staged with
  | none => (s, false)
  | some b =>
    let off := b.mcOffset * (2 ^ 32 : Nat)
    let z := tbTarget (tb s b.rateTb) x.fs + off
    let s := modMclk s t (fun m => { m with
      bind := b, staged := none, offUse := off, state := if b.source = 0 then 0 else 1, lockMs := 0
      integ := clampInteg x.nomInc (if b.source = 1 then tbInteg (tb s b.rateTb) x.fs else (m.inc * 2 ^ 32 : Nat)) })
    let s := synRephase s t
    if !b.align then (s, false)
    else if ((x.mclk.ext * 2 ^ 32 : Nat) : Int) ≤ z then
      (modMclk s t (fun m => { m with acc := (z % (2 ^ 80 : Nat)).toNat * 2 ^ 24, err := 0 }), true)
    else
      let e : Int := x.mclk.phaseErr z
      (mclkEv (modMclk s t (fun m => { m with offUse := off + e, err := 0 })) t 0x504 (toBits 16 (divAway e (2 ^ 32))), false)

/-- mclk.query: the fields of one update. (DEDUCED, log entry 67.) -/
def planMclkQuery (c : Ctx) (s : State) : Plan :=
  let m := (tenant s c.tenant).mclk
  let (acc, inc, st, e) := m.snap.getD (m.acc, m.inc, m.state, m.err)
  answer [] (le8 (acc / 2 ^ 24 % 2 ^ 64) ++ le6 inc ++ le1 st ++ le1 m.bind.source ++ le4 (toBits 32 (divEvenI e 65536)) ++ le2 (acc / 2 ^ 88 % 2 ^ 16))

def cmdMclkQuery : Cmd := { opcode := 0x0502, issuer := 'T', scope := 'T', query := true, plan := planMclkQuery }

def execMclkQuery (r : Req) (s : State) : Host.Outcome State Fault Refusal := runCmd cmdMclkQuery r s

/-! ### Receive-stream commands -/

/-- The failing conditions of a STREAM at offset 0 that must be a receive stream of the tenant. -/
def rxStreamFails (c : Ctx) (s : State) : List Fail :=
  match tget s.streams (c.u16 0) with
  | none => [missing s (.stream (c.u16 0)) 0]
  | some st => failIf (st.tenant != c.tenant) (.field 0) ++ failIf (st.tenant == c.tenant && st.closing) (.conflict [])

/-- mclk.estimator_set: from the next frame boundary. -/
def planEstimator (c : Ctx) (s : State) : Plan :=
  let k := c.u16 0
  let cfg := ((tget s.streams k).map (·.cfg)).getD []
  let w := c.u16 4
  change (rxStreamFails c s ++ failIf (decide (200 < c.u16 2)) (.field 2)
      ++ failIf (w != 0 && (decide (w < 10) || decide (500 < w) || decide (w * cFs cfg < 4000 * cSpp cfg))) (.field 4)
      ++ failIf (decide (60 < c.u8 6)) (.field 6) ++ failIf (c.u16 8 != 0 && (decide (c.u16 8 < 50) || decide (5000 < c.u16 8))) (.field 8))
    [.stream k] (fun s => modStream s k (fun st => { st with estNext := some (fit 10 c.p) }))

def cmdEstimator : Cmd := { opcode := 0x0503, issuer := 'T', scope := 'T', least := 10, rsvd := [(10, 38)], plan := planEstimator }

def execMclkEstimatorSet (r : Req) (s : State) : Host.Outcome State Fault Refusal := runCmd cmdEstimator r s

/-- The staged settings take effect; the integrator is kept. -/
def estApply (e : Est) (p : List Byte) : Est :=
  let d := fun (v n : Nat) => if v = 0 then n else v
  { e with bw := d (fld p 2 2) 10, window := d (fld p 4 2) 50, acqTime := d (fld p 6 1) 10, slipAlarm := d (fld p 7 1) 10, phaseTc := d (fld p 8 2) 500 }

/-- The end of a stream's window (05 R115). -/
def estWindow (n : Nat) (s : State) : State :=
  match tget s.streams n with
  | none => s
  | some st =>
    if 65536 ≤ n ∨ !cArrival st.cfg ∨ !st.rx.anchored then s
    else
      let (e, clamped) := estLoop (st.rx.est.rebase (cFs st.cfg) (tb s (cTb st.cfg)).now) st.rx.est.window
      let s := modStream s n (fun st => { st with rx := { st.rx with est := e } })
      if clamped then streamEv s n 0x40A 0 else s

def execEstimatorWindow (stream : Nat) (s : State) : Host.Outcome State Fault Refusal := runMere s (estWindow stream)

/-- Group delay D_E of a mode in tenant samples (05 R117). -/
def groupDelay (mode fsT : Nat) : Nat := (if mode = 0 then 24 else if mode = 1 then 80 else 0) * (fsT / 48000)

/-- A mode switch begins (05 R126). (DESIGN CHOICE, log entry 54.) -/
def startSwitch (old new xfade fsT : Nat) : Switch :=
  let (a, b) := (groupDelay old fsT, groupDelay new fsT)
  if a < b then ⟨new, xfade, 1, b - a, 0, false⟩ else ⟨new, xfade, 2, a - b, 0, false⟩

/-- mclk.mode_set. -/
def planModeSet (c : Ctx) (s : State) : Plan :=
  let k := c.u16 0
  let m := c.u8 2
  let x := tenant s c.tenant
  let st := (tget s.streams k).getD default
  let cv := st.rx.conv
  let same := cv.mode == m && cv.switch.isNone
  let units := eddyUnits m (cChannels st.cfg) (cFs st.cfg) x.fs
  let xf := if c.u16 4 = 0 then 256 else c.u16 4
  { fails := rxStreamFails c s ++ failIf (decide (2 < m) || (m == 2 && cFs st.cfg != x.fs)) (.field 2)
      ++ failIf (c.u16 4 != 0 && (decide (c.u16 4 < 64) || decide (1024 < c.u16 4))) (.field 4)
      ++ (if same then [] else failIf (decide (eddyFree s < units)) .noResource)
    touch := [.stream k]
    pends := !same
    act := fun s =>
      if same then (s, .ok [])
      else (modStream s k (fun st => { st with rx := { st.rx with conv := { st.rx.conv with pendUnits := units, switch := some (startSwitch cv.mode m xf x.fs) } } }),
        .pend (.modeSwitch k) [.stream k]) }

def cmdModeSet : Cmd := { opcode := 0x0504, issuer := 'T', scope := 'T', least := 6, rsvd := [(3, 1), (6, 42)], plan := planModeSet }

def execMclkModeSet (r : Req) (s : State) : Host.Outcome State Fault Refusal := runCmd cmdModeSet r s

/-- mclk.stream_query: 64 bytes. -/
def planMclkStream (c : Ctx) (s : State) : Plan :=
  let st := (tget s.streams (c.u16 0)).getD default
  let cv := st.rx.conv
  let e := st.rx.est
  let ts := !cArrival st.cfg
  resultAt c 8
    (indirectFails c ++ (match tget s.streams (c.u16 0) with | none => [missing s (.stream (c.u16 0)) 0] | some st => failIf (st.tenant != c.tenant) (.field 0)))
    (le6 cv.rho ++ zb 2 ++ le6 (if ts then 2 ^ 44 else e.r) ++ zb 2 ++ le4 (toBits 32 cv.phaseErr) ++ le1 cv.mode ++ le1 (if ts then 0 else e.state)
      ++ le1 ((cv.switch.map (·.phase)).getD 0) ++ zb 1 ++ le8 cv.slipDrop ++ le8 cv.slipRep ++ le8 cv.swSlips ++ le8 cv.realigns ++ zb 8)

def cmdMclkStream : Cmd := { opcode := 0x0505, issuer := 'T', scope := 'T', query := true, least := 16, plan := planMclkStream }

def execMclkStreamQuery (r : Req) (s : State) : Host.Outcome State Fault Refusal := runCmd cmdMclkStream r s

/-! ### eddy.query (05 R119) -/

/-- The conversions of streams and local ports. -/
def convs (s : State) : List Conv := s.streams.map (·.2.rx.conv) ++ s.lps.map (·.2.conv)

/-- eddy.query. -/
def planEddyQuery (_ : Ctx) (s : State) : Plan :=
  let std := (convs s).foldl (fun n c => if c.mode = 0 then n + c.units else n) 0
  let mas := (convs s).foldl (fun n c => if c.mode = 1 then n + c.units / 4 else n) 0
  let pend := (convs s).foldl (fun n c => if c.switch.isSome then n + c.pendUnits else n) 0
  answer [] (le4 (eddyFree s) ++ le4 std ++ le4 mas ++ le4 pend ++ le2 s.eddyBanks)

def cmdEddyQuery : Cmd := { opcode := 0x0507, issuer := 'M', scope := 'D', query := true, plan := planEddyQuery }

def execEddyQuery (r : Req) (s : State) : Host.Outcome State Fault Refusal := runCmd cmdEddyQuery r s

end Sys2Proof.Machine
end

