-- ==== Sys2Proof/Machine/Twin.lean ====
section
/-! DEFINITION. Chapter 16: twin roles, heartbeats and the lease, claims, rejoining, and the comparisons of the pair. -/
namespace Sys2Proof.Machine

def modTwin (s : State) (f : Twin → Twin) : State := { s with twin := f s.twin }

/-- Microseconds and seconds of Mere time. -/
def usCycles (n : Nat) : Nat := n * 1200
def secCycles (n : Nat) : Nat := n * 1200000000

/-! ### Changes of role (16 R317, R322, R326) -/

/-- The device takes a role: TWIN_ROLE; a STANDBY counts its clean time and its divergent frames anew. -/
def setRole (s : State) (r : Nat) : State :=
  let old := role s
  if old = r then s
  else
    let s := tripSet s .role r
    let s := if r = 2 then s else tripSet s .own 0
    let s := modTwin s (fun w => { w with
      standbyAt := if r = 3 then some s.mere else none, diverged := if r = 3 then 0 else w.diverged, leaseAt := if old = 2 then none else w.leaseAt
      resync := false, planned := false, claimNext := false, misses := [] })
    evD s 0xB01 r old s.twin.epoch

/-- At a claim a listening field port becomes coordinator and beacons at once (16 R326). -/
def fldClaim (s : State) : State :=
  (s.fld.filter (fun e => e.2.configured && e.2.role == 1)).foldl (fun s e =>
    let s := modFld s e.1 (fun f => { f with plca := true, lost := false })
    if fldMaySend s e.1 then emit s (.fldSignal e.1 0) else s) s

/-- A claim: EPOCH rises, TWIN_OE_N is driven, the shared outputs change hands (16 R319, R322, R326). The peer's TWIN_OE_N is ignored
until it has been seen high. -/
def claim (s : State) : State :=
  let s := modTwin s (fun w => { w with epoch := (w.epoch + 1) % 256, alarm := setBit w.alarm 5 true, seenHigh := !w.peerOe })
  let s := setRole (tripSet s .own 1) 2
  let s := modTwin s (fun w => { w with leaseAt := some s.mere, displaced := none, stopped := false })
  fldClaim (if s.twin.txMode = 1 then sendFenced s else s)

/-- A device is displaced: it is fenced, and makes no line-watch claim until HOLDOFF has passed (16 R316, R328). -/
def displace (s : State) (r : Nat) : State := setRole (modTwin s (fun w => { w with displaced := some s.mere })) r

/-! ### Heartbeats (16 R320, R321) -/

/-- The last frame of T0 the device has completed: the one before the frame in progress. -/
def lastT0 (s : State) : Nat := (tenant s 0).frame - 1

/-- A heartbeat leaves on both paths. -/
def emitBeat (s : State) (yld : Bool) : State :=
  let hb : Heartbeat := ⟨role s, s.twin.epoch, role s == 4, yld, lastT0 s⟩
  emit (emit s (.heartbeat 1 hb)) (.heartbeat 2 hb)

/-- Whether the device sends heartbeats: from readiness on (19 R371, R372). -/
def beats (s : State) : Bool := role s != 0 && s.ctl.stage == 4 && !s.dev.safe && tripGet s .fence == 0 && !s.twin.stopped

/-- The heartbeat of each t_HB; it renews an active device's lease. -/
def heartbeatSend (s : State) : State :=
  if beats s then
    let s := emitBeat s false
    if role s = 2 then modTwin s (fun w => { w with leaseAt := some s.mere }) else s
  else s

def execHeartbeatSend (s : State) : Host.Outcome State Fault Refusal := run s heartbeatSend

/-- Heartbeats stop for a reason other than the safe state: an active device sends one last heartbeat with YIELD. -/
def yieldNow (s : State) : State := if beats s && role s == 2 then emitBeat s true else s

/-- A data-plane block suffers an uncorrectable fault that no spare can replace. -/
def twinBlockFault (s : State) : State := if role s = 0 then s else modTwin (yieldNow s) (fun w => { w with stopped := true })

/-- A write of TWIN_FENCE.FENCE: 1 fences the shared outputs and stops heartbeats; the role changes only as the lease says. -/
def fenceWrite (b : Nat) (s : State) : State := tripSet (if b = 1 then yieldNow s else s) .fence b

/-- The lease of an active device expires: it fences, releases TWIN_OE_N and becomes FENCED. -/
def leaseExpiry (s : State) : State :=
  match s.twin.leaseAt with
  | some a => if role s = 2 then displace (advanceTo (a + usCycles 400) s) 5 else s
  | none => s

def execLeaseExpiry (s : State) : Host.Outcome State Fault Refusal := run s leaseExpiry

/-- A path is heard again. -/
def pathUp (s : State) (p : Nat) : State :=
  let down := if p = 1 then s.twin.down1 else s.twin.down2
  let s := modTwin s (fun w => if p = 1 then { w with down1 := false } else { w with down2 := false })
  if down then evD (modTwin s (fun w => { w with standbyAt := w.standbyAt.map (fun _ => s.mere) })) 0xB03 p 0 0 else s

/-- One path has missed 3 heartbeats: counted by heartbeats missed (log entry 35). -/
def pathDown (s : State) (p : Nat) : State :=
  let down := if p = 1 then s.twin.down1 else s.twin.down2
  if role s = 0 ∨ down then s
  else
    let s := modTwin s (fun w => { w with
      down1 := w.down1 || p == 1, down2 := w.down2 || p == 2, alarm := setBit w.alarm (p - 1) true
      hbMiss0 := if p = 1 then inc48 w.hbMiss0 3 else w.hbMiss0, hbMiss1 := if p = 2 then inc48 w.hbMiss1 3 else w.hbMiss1 })
    evD s 0xB02 p 0 0

def execHbPathMiss (path : Nat) (s : State) : Host.Outcome State Fault Refusal :=
  run s (fun s => if path = 1 ∨ path = 2 then pathDown s path else s)

/-- Both ACTIVE: the older EPOCH is fenced; equal, or 128 apart, the secondary (16 R319). -/
def bothActive (s : State) (e : Nat) : State :=
  let d := (e + 256 - s.twin.epoch) % 256
  if d = 0 ∨ d = 128 then (if twinId s = 2 then displace s 5 else s) else if d < 128 then displace s 5 else s

/-- A heartbeat of the peer (16 R318, R319, R322, R329). A STANDBY keeps the EPOCH of the ACTIVE device, from which its own claim counts
on, and claims when a handover is planned and the peer has become STANDBY (log entry 36). -/
def heartbeatRx (p : Nat) (hb : Heartbeat) (s : State) : State :=
  if role s = 0 ∨ !(p == 1 || p == 2) then s
  else
    let was := s.twin.peerState
    let s := pathUp s p
    let s := modTwin s (fun w => { w with peerState := hb.state, peerEpoch := hb.epoch % 256, heard := true, leaseAt := if role s = 2 then w.leaseAt else some s.mere })
    let follow := fun (s : State) => if hb.state = 2 then modTwin s (fun w => { w with epoch := hb.epoch % 256 }) else s
    match role s with
    | 1 => if !beats s then s else if twinId s = 1 then claim s else setRole (follow s) 3
    | 2 => if hb.state = 2 then bothActive s (hb.epoch % 256) else s
    | 3 => if hb.state = 2 && hb.yld then claim (follow s) else if hb.state = 3 && was == 2 then claim s else follow s
    | 4 => if hb.state = 2 && hb.yld then claim (follow s) else follow s
    | 5 => if hb.state = 2 && beats s then modTwin s (fun w => { w with resync := true }) else s
    | _ => s

def execHeartbeatRx (path : Nat) (hb : Heartbeat) (s : State) : Host.Outcome State Fault Refusal := run s (heartbeatRx path hb)

/-! ### Claims (16 R318, R322, R327, R330) -/

/-- Both paths have missed 3 heartbeats and the lease with its tolerance has expired since the last one received. -/
def standbyClaim (s : State) : State :=
  match s.twin.leaseAt with
  | some a => if role s = 3 ∨ role s = 4 then claim (pathDown (pathDown (advanceTo (a + usCycles 450) s) 1) 2) else s
  | none => s

def execStandbyClaim (s : State) : Host.Outcome State Fault Refusal := run s standbyClaim

/-- A primary without any heartbeat since reset becomes ACTIVE alone. -/
def soloWait (s : State) : State :=
  if role s = 1 ∧ twinId s = 1 ∧ s.ctl.stage = 4 ∧ !s.twin.heard then claim (advanceTo (s.twin.leaseAt.getD 0 + usCycles (1000 * s.twin.soloWait)) s) else s

def execSoloWaitExpiry (s : State) : Host.Outcome State Fault Refusal := run s soloWait

/-- The peer drives TWIN_OE_N low: a holder's drivers are disabled at once, and it releases its own (16 R316). -/
def peerOeLow (s : State) : State :=
  let s := modTwin s (fun w => { w with peerOe := true })
  if role s = 2 ∧ s.twin.seenHigh then displace s 5 else s

def execTwinPeerOeLow (s : State) : Host.Outcome State Fault Refusal := run s peerOeLow

/-- The peer's TWIN_OE_N is seen high: a claimant becomes a holder. -/
def execTwinPeerOeHigh (s : State) : Host.Outcome State Fault Refusal :=
  run s (fun s => modTwin s (fun w => { w with peerOe := false, seenHigh := w.seenHigh || role s == 2 }))

/-- WATCH_N mismatching owned slots in a row on shared line `k`: a STANDBY claims, unless it was displaced within HOLDOFF. -/
def lineWatch (k : Nat) (s : State) : State :=
  let held := match s.twin.displaced with | some a => decide (s.mere < a + secCycles s.twin.holdoff) | none => false
  if role s = 3 ∧ !held ∧ s.twin.watchN ≤ tgetD s.twin.misses k 0 then claim s else s

/-- HOLDOFF of clean STANDBY has passed on the primary: the role comes back at the next T0 boundary. -/
def takeback (s : State) : State :=
  let clear := s.twin.holdoff != 0 && !s.twin.down1 && !s.twin.down2
  if clear && twinId s == 1 && role s == 3 then
    match s.twin.standbyAt with
    | some a => modTwin (advanceTo (a + secCycles s.twin.holdoff) s) (fun w => { w with claimNext := true, takeback := true })
    | none => s
  else if clear && twinId s == 2 && role s == 2 && s.twin.peerState == 3 then modTwin s (fun w => { w with planned := true, takeback := true })
  else s

/-- What waits for a T0 boundary: settings, a planned claim or handover (16 R330). -/
def twinBoundary (s : State) : State :=
  let s := match s.twin.staged with
    | none => s
    | some c => modTwin s (fun w => { w with
        txMode := fld c 0 1, hbLane := fld c 1 1, watchN := if fld c 2 1 = 0 then 1 else fld c 2 1, holdoff := if fld c 4 2 = 0xFFFF then 60 else fld c 4 2
        soloWait := if fld c 6 2 = 0 then 2000 else fld c 6 2, staged := none })
  let back := s.twin.takeback
  if s.twin.claimNext ∧ role s = 3 then
    let s := modTwin (claim s) (fun w => { w with takeback := false })
    if back then evD s 0xB06 0 0 s.twin.epoch else s
  else if s.twin.planned ∧ role s = 2 then
    let s := modTwin (displace s 3) (fun w => { w with takeback := false })
    if back then evD s 0xB06 0 0 s.twin.epoch else s
  else s

/-- A T0 boundary that has no tenant 0 to wait for comes at once (DEDUCED, log entry 36). -/
def twinSettle (s : State) : State := if thas s.tenants 0 then s else twinBoundary s

def execHoldoffTakeback (s : State) : Host.Outcome State Fault Refusal := run s (fun s => twinSettle (takeback s))

/-- The rejoining device has copied the peer's tables and state. Its own tables and running state stand for the copy: both devices
compute alike, and the step carries none of it (log entry 37). -/
def resyncDone (s : State) : State :=
  if role s = 5 ∧ s.twin.resync then
    let s := modTwin s (fun w => { w with epoch := w.peerEpoch })
    evD (setRole s 3) 0xB05 0 0 s.twin.epoch
  else s

def execTwinResyncDone (s : State) : Host.Outcome State Fault Refusal := run s resyncDone

/-! ### Values and comparisons (16 R324, R325) -/

/-- A standby becomes UNFIT. -/
def unfit (s : State) : State := if role s = 3 then setRole s 4 else s

/-- A frame's values did not reach the standby in time. -/
def valuesMissed (s : State) : State :=
  unfit (modTwin s (fun w => { w with valMiss := inc48 w.valMiss 1, alarm := setBit w.alarm 4 true }))

/-- The standby wipes the history of a local port's conversion as the active device did: it realigns in the frame that has begun (18 R352). -/
def wipePort (e : Nat × Bool) (s : State) : State :=
  let wiped := fun (c : Conv) => { c with past := [], realign := false, fade := 32, corr := 0, realigns := inc48 c.realigns 1 }
  modLp s e.1 (fun l => if e.2 then { l with outc := wiped l.outc } else { l with conv := wiped l.conv })

/-- A frame's values from the active device: kept for the tenant's boundary; late ones count as missed. -/
def valuesRx (v : TwinVals) (s : State) : State :=
  if !follows s ∨ !thas s.tenants v.tenant then s
  else if !v.onTime then valuesMissed s
  else if v.ahead then modTenant (v.ports.foldl (fun s e => if (lp s e.1).owner = v.tenant then wipePort e s else s) s) v.tenant (fun x => { x with ratios := some v })
  else modTenant s v.tenant (fun x => { x with vals := some v })

def execTwinValuesRx (v : TwinVals) (s : State) : Host.Outcome State Fault Refusal := runMere s (valuesRx v)

/-- The first output, in ascending order, whose values differ or that one device only has. -/
def firstDiff (a b : List (Nat × Nat)) : Option Nat :=
  let ks := (a.filter (fun e => !b.contains e) ++ b.filter (fun e => !a.contains e)).map (·.1)
  ks.foldl (fun m k => match m with | none => some k | some x => some (min x k)) none

/-- A divergent frame; the third since a standby joined, or since twin.clear, makes it UNFIT. -/
def diverge (s : State) (o : Nat) : State :=
  let s := evD (modTwin s (fun w => { w with alarm := setBit w.alarm 2 true, divFrames := inc48 w.divFrames 1, standbyAt := w.standbyAt.map (fun _ => s.mere) })) 0xB04 o 0 0
  if role s = 3 then
    let s := modTwin s (fun w => { w with diverged := w.diverged + 1 })
    if 3 ≤ s.twin.diverged then unfit s else s
  else s

/-- The peer's output CRCs of a frame; a value that is late, or whose frame is no longer at hand, is not compared. -/
def shadowRx (t m : Nat) (crcs : List (Nat × Nat)) (late : Bool) (s : State) : State :=
  if role s = 0 then s
  else
    let own := s.twin.crcs.find? (fun e => e.1 == t && e.2.1 == m)
    let s := modTwin s (fun w => { w with crcs := w.crcs.filter (fun e => !(e.1 == t && e.2.1 == m)) })
    match own with
    | some (_, _, mine) =>
      if late then modTwin s (fun w => { w with scMiss := inc48 w.scMiss 1 })
      else match firstDiff mine crcs with
        | some o => diverge s o
        | none => s
    | none => modTwin s (fun w => { w with scMiss := inc48 w.scMiss 1 })

def execShadowCompareRx (tenant frame : Nat) (crcs : List (Nat × Nat)) (late : Bool) (s : State) : Host.Outcome State Fault Refusal :=
  runMere s (shadowRx tenant frame crcs late)

/-! ### Commands -/

/-- twin.config. -/
def planTwinConfig (c : Ctx) (s : State) : Plan :=
  change (failIf (decide (1 < c.u8 0)) (.field 0) ++ failIf (decide (3 < c.u8 1)) (.field 1) ++ failIf (decide (4 < c.u8 2)) (.field 2)
      ++ failIf (decide (3600 < c.u16 4) && c.u16 4 != 0xFFFF) (.field 4) ++ failIf (c.u16 6 != 0 && (decide (c.u16 6 < 100) || decide (60000 < c.u16 6))) (.field 6)
      ++ failIf (role s == 0) (.conflict []))
    [] (fun s => twinSettle (modTwin s (fun w => { w with staged := some (fit 8 c.p) })))

def cmdTwinConfig : Cmd := { opcode := 0x0B01, issuer := 'M', scope := 'D', least := 8, rsvd := [(3, 1), (8, 40)], plan := planTwinConfig }

def execTwinConfig (r : Req) (s : State) : Host.Outcome State Fault Refusal := runCmd cmdTwinConfig r s

/-- twin.switch: a planned handover, or with FORCE a FORMING or FENCED device becomes ACTIVE alone. -/
def planTwinSwitch (c : Ctx) (s : State) : Plan :=
  let force := c.u8 0 == 1
  let ok := if force then role s == 1 || role s == 5 else role s == 2 && s.twin.peerState == 3
  change (failIf (decide (1 < c.u8 0)) (.field 0) ++ failIf (!ok) (.conflict [])) []
    (fun s => if force then claim s else twinSettle (modTwin s (fun w => { w with planned := true, takeback := twinId s == 2 })))

def cmdTwinSwitch : Cmd := { opcode := 0x0B02, issuer := 'M', scope := 'D', least := 1, plan := planTwinSwitch }

def execTwinSwitch (r : Req) (s : State) : Host.Outcome State Fault Refusal := runCmd cmdTwinSwitch r s

/-- twin.query. -/
def planTwinQuery (c : Ctx) (s : State) : Plan :=
  let w := s.twin
  resultAt c 8 (indirectFails c) (le8 w.divFrames ++ le8 w.scMiss ++ le8 w.valMiss ++ le8 w.proofErr ++ le8 w.hbMiss0 ++ le8 w.hbMiss1)

def cmdTwinQuery : Cmd := { opcode := 0x0B03, issuer := 'M', scope := 'D', query := true, least := 16, plan := planTwinQuery }

def execTwinQuery (r : Req) (s : State) : Host.Outcome State Fault Refusal := runCmd cmdTwinQuery r s

/-- twin.clear ends UNFIT; on a device that is not UNFIT it disagrees with its state (DEDUCED, log entry 36). -/
def planTwinClear (_ : Ctx) (s : State) : Plan :=
  change (failIf (role s != 4) (.conflict [])) [] (fun s => setRole s 3)

def cmdTwinClear : Cmd := { opcode := 0x0B04, issuer := 'M', scope := 'D', plan := planTwinClear }

def execTwinClear (r : Req) (s : State) : Host.Outcome State Fault Refusal := runCmd cmdTwinClear r s

/-- twin.proof_set: SLOT 0xFF for none. -/
def planProofSet (c : Ctx) (_ : State) : Plan :=
  let k := c.u8 0
  change (failIf (decide (31 < k)) (.field 0) ++ failIf (decide (31 < c.u8 1) && c.u8 1 != 0xFF) (.field 1)) []
    (fun s => modTwin s (fun w => { w with proof := if c.u8 1 = 0xFF then tdel w.proof k else tset w.proof k (c.u8 1) }))

def cmdProofSet : Cmd := { opcode := 0x0B05, issuer := 'M', scope := 'D', least := 2, plan := planProofSet }

def execTwinProofSet (r : Req) (s : State) : Host.Outcome State Fault Refusal := runCmd cmdProofSet r s

end Sys2Proof.Machine
end

