-- ==== Sys2Proof/Machine/Health.lean ====
section
/-! DEFINITION. Chapter 18: memory errors and scrub, telemetry, spare policy, tenant stores and the fault log. -/
namespace Sys2Proof.Machine

/-- `n` free bytes (log entry 1). -/
def drawBytes (n : Nat) (s : State) : List Byte × State :=
  (List.range ((n + 7) / 8)).foldl (fun (x : List Byte × State) _ => let (w, s) := draw x.2; (x.1 ++ le8 w.toNat, s)) ([], s)

/-! ### The fault log (18 R358) -/

/-- Records the ring holds: 64 to a block; it shrinks by a block for each retired with the pool empty (18 R357). -/
def logCapacity (s : State) : Nat := 65536 - 64 * (s.health.exhausted.filter (· == 2)).length

/-- One record written to the ring. -/
def logWrite (s : State) (what : LogWhat) : State :=
  let (b, s) := drawBytes 64 s
  let n := s.health.logNext
  let s := writeBlock (8192 + n % 65536 / 64) 1 s
  let s := modHealth s (fun h => { h with log := h.log ++ [⟨n, what, s.cal.sub + calBits s.cal.now, b⟩], logNext := n + 1 })
  modHealth s (fun h => { h with log := h.log.drop (h.log.length - logCapacity s) })

/-- The summary of a past second that lost records. -/
def logSummary (s : State) : State :=
  let (sec, _, lost) := s.health.logSec
  if sec = secs s then s
  else
    let s := modHealth s (fun h => { h with logSec := (secs s, 0, 0) })
    if lost = 0 then s else logWrite s (.summary lost)

/-- A fault is recorded: 100 records a second, further ones are counted. -/
def faultLog (s : State) (what : LogWhat) : State :=
  let s := logSummary s
  let (sec, n, lost) := s.health.logSec
  if n < 100 then logWrite (modHealth s (fun h => { h with logSec := (sec, n + 1, lost) })) what
  else modHealth s (fun h => { h with logSec := (sec, n, lost + 1) })

/-! ### Bank spares (18 R360) -/

/-- The gating setting of a domain: 0 off, 1 on, 2 automatic; 2 at reset, but for the spares (14 R299). -/
def domSetting (s : State) (d : Nat) : Nat := tgetD s.clk.settings d (if (d < 272 ∧ d % 17 = 16) ∨ d = 301 ∨ d = 310 then 0 else 2)
def setDomain (s : State) (d v : Nat) : State := { s with clk := { s.clk with settings := tset s.clk.settings d v } }

/-- SPARE_INSERTED with its entry in the repair list; `cause` 0 wear, 1 fault. (DEDUCED, log entry 84.) -/
def spareInserted (s : State) (kind unit cause : Nat) : State :=
  evD (memErr (modHealth s (fun h => { h with repair := h.repair ++ [(kind, unit)] })) 6) 0xE02 (kind * 2 ^ 28 + unit % 2 ^ 28) 0 cause

/-- The Eddy banks, domains 289 to 301, and the Pool banks, 302 to 310: whether bank `b` is in service. -/
def eddyServes (s : State) (b : Nat) : Bool := decide (b ≤ 12) && (s.health.eddyRep != some b) && !s.health.eddyDead.contains b && (b != 12 || s.health.eddyRep.isSome)
def poolServes (s : State) (b : Nat) : Bool := decide (b ≤ 8) && (s.health.poolRep != some b) && !s.health.poolDead.contains b && (b != 8 || s.health.poolRep.isSome)

/-- The move from a worn bank ends when no tenant is left on it: the bank goes to setting 0. -/
def eddyMoved (s : State) (b : Nat) : State := if s.health.eddyMove.isEmpty then spareInserted (setDomain s (289 + b) 0) 2 b 0 else s
def poolMoved (s : State) (b : Nat) : State := if s.health.poolMove.isEmpty then spareInserted (setDomain s (302 + b) 0) 3 b 0 else s

/-- Weir has admitted the spare for a worn bank: every tenant's state moves at its next boundary. -/
def eddyWear (s : State) (b : Nat) : State :=
  if s.health.eddyRep.isSome then s
  else eddyMoved (setDomain (modHealth s (fun h => { h with eddyRep := some b, eddyMove := s.tenants.map (·.1) })) 301 2) b
def poolWear (s : State) (b : Nat) : State :=
  if s.health.poolRep.isSome then s
  else poolMoved (setDomain (modHealth s (fun h => { h with poolRep := some b, poolMove := s.tenants.map (·.1) })) 310 2) b

/-- At a boundary of tenant `t` its state moves. -/
def bankBoundary (t : Nat) (s : State) : State :=
  let s := match s.health.eddyRep with
    | some b => if s.health.eddyMove.contains t then eddyMoved (modHealth s (fun h => { h with eddyMove := h.eddyMove.filter (· != t) })) b else s
    | none => s
  match s.health.poolRep with
  | some b => if s.health.poolMove.contains t then poolMoved (modHealth s (fun h => { h with poolMove := h.poolMove.filter (· != t) })) b else s
  | none => s

/-- The spare takes over every instant of a failed bank; nothing is lost. -/
def eddyTakes (s : State) (b : Nat) : State :=
  spareInserted (setDomain (modHealth s (fun h => { h with eddyRep := some b, eddyMove := [] })) 301 2) 2 b 1
def poolTakes (s : State) (b : Nat) : State :=
  spareInserted (setDomain (modHealth s (fun h => { h with poolRep := some b, poolMove := [] })) 310 2) 3 b 1

/-- Tenants in descending order of MIX_PRIORITY, the higher number first on a tie (06 R149, 18 R360). -/
def shedOrder (s : State) : List Nat :=
  let before := fun (a b : Nat × Tenant) => decide (b.2.mix.priority < a.2.mix.priority) || (a.2.mix.priority == b.2.mix.priority && decide (b.1 < a.1))
  let ins := fun (l : List (Nat × Tenant)) (x : Nat × Tenant) => l.takeWhile (fun y => before y x) ++ x :: l.dropWhile (fun y => before y x)
  (s.tenants.foldl ins []).map (·.1)

/-- The first tenants of the order that must go so that what is left of `total` fits `cap`. -/
def toShed (use : Nat → Nat) (cap : Nat) : List Nat → Nat → List Nat
  | [], _ => []
  | t :: ts, total => if total ≤ cap then [] else t :: toShed use cap ts (total - use t)

/-- Eddy units of tenant `t`. -/
def unitsOf (s : State) (t : Nat) : Nat :=
  s.streams.foldl (fun n e => if e.2.tenant = t then n + e.2.rx.conv.units + e.2.rx.conv.pendUnits else n) 0
    + s.lps.foldl (fun n e => if e.2.owner = t then n + e.2.conv.units + e.2.conv.pendUnits else n) 0

/-- A conversion falls back to lock-follow under 05 R126; one whose rate differs cannot follow: it fades out over 16 samples and carries
zeros (phase 4). -/
def Conv.fallBack (c : Conv) (fs fsT : Nat) : Conv :=
  if c.mode = 2 ∧ c.switch.isNone then c
  else { c with pendUnits := 0, switch := some (if fs = fsT then startSwitch c.mode 2 256 fsT else ⟨2, 16, 4, 0, 16, false⟩) }

/-- Every conversion of tenant `t` falls back; a mode switch a command waits for ends with HW_FAULT. -/
def followAll (s : State) (t : Nat) : State :=
  let fsT := (tenant s t).fs
  let mine := s.streams.filter (fun e => e.2.tenant == t && decide (e.1 < 65536))
  let s := (pendingFor s (fun w => match w with | .modeSwitch k => mine.any (·.1 == k) | _ => false)).foldl (fun s p => finish s p 0x0601 0) s
  let s := mine.foldl (fun s e => modStream s e.1 (fun st => { st with rx := { st.rx with conv := st.rx.conv.fallBack (cFs st.cfg) fsT } })) s
  (s.lps.filter (fun e => e.2.owner == t && !e.2.cfg.isEmpty)).foldl (fun s e => modLp s e.1 (fun l => { l with conv := l.conv.fallBack (rateHz (lpRate e.1 l.cfg)) fsT })) s

/-- An Eddy bank fails with the spare in use. -/
def eddyDegrade (s : State) (b : Nat) : State :=
  let s := modHealth { s with eddyBanks := s.eddyBanks - 1 } (fun h => { h with eddyDead := h.eddyDead ++ [b] })
  let s := evD s 0xE03 s.eddyBanks 0 0
  let s := (toShed (unitsOf s) (262144 * s.eddyBanks / 12) (shedOrder s) (eddyUsed s)).foldl followAll s
  unfit (twinBlockFault s)

/-- A Pool bank fails with the spare in use: whole tenants are shed, from their next frame boundary (06 R149). -/
def poolDegrade (s : State) (b : Nat) : State :=
  let s := modHealth { s with poolBanks := s.poolBanks - 1 } (fun h => { h with poolDead := h.poolDead ++ [b] })
  let s := evD s 0x603 s.poolBanks 0 0
  let use := fun t => if (tenant s t).mix.shed || (tenant s t).mix.fading then 0 else (tenant s t).use.xp
  let total := s.tenants.foldl (fun n e => n + use e.1) 0
  let order := (shedOrder s).filter (fun t => !((tenant s t).mix.shed || (tenant s t).mix.fading))
  let s := (toShed use (131072 * s.poolBanks) order total).foldl (fun s t => evT (modMix s t (fun m => { m with fading := true })) t 0x602 t 0 0) s
  unfit (twinBlockFault s)

/-- Class 0 credits are drawn from RESERVE at once while it lasts, else they come first in the next window (19 R364). -/
def fromReserve (s : State) (n : Nat) (w : WeirWhat) (f : State → State) : State :=
  if s.pwr.resUsed + n ≤ tripGet s .reserve then f { s with pwr := { s.pwr with resUsed := s.pwr.resUsed + n, credits := s.pwr.credits + n } }
  else askWeir s 0 n w

/-- Whether an insertion of a bank waits for Weir, and whether one runs: asked for, or with tenants still to move. -/
def bankAsked (s : State) (eddy : Bool) : Bool :=
  s.pwr.weirQ.any (fun r => match r.what with | .eddyBank _ | .eddyFault _ => eddy | .poolBank _ | .poolFault _ => !eddy | _ => false)
def bankBusy (s : State) (eddy : Bool) : Bool := bankAsked s eddy || !(if eddy then s.health.eddyMove else s.health.poolMove).isEmpty

/-- A residue check has failed twice on one instant of an Eddy (kind 2) or Pool (kind 3) bank. While an insertion of that kind runs the
trigger waits (18 R359). (DEDUCED, log entry 81.) -/
def residueFail (kind b : Nat) (s : State) : State :=
  if !(kind == 2 && eddyServes s b || kind == 3 && poolServes s b) then s
  else if bankBusy s (kind == 2) then modHealth s (fun h => { h with trigs := h.trigs ++ [(kind, b)] })
  else if kind = 2 then (if s.health.eddyRep.isSome then eddyDegrade s b else fromReserve s 3 (.eddyFault b) (fun s => eddyTakes s b))
  else if s.health.poolRep.isSome then poolDegrade s b
  else fromReserve s 2 (.poolFault b) (fun s => poolTakes s b)

/-- Triggers that have waited are taken up. -/
def trigsRun (s : State) : State := s.health.trigs.foldl (fun s e => residueFail e.1 e.2 s) (modHealth s (fun h => { h with trigs := [] }))

def execResidueCheckFail (kind bank : Nat) (s : State) : Host.Outcome State Fault Refusal := runMere s (residueFail kind bank)

/-! ### Telemetry (18 R354, R359) -/

/-- Whether the spare core of cluster `c` is left. -/
def tarnSpareLeft (s : State) (c : Nat) : Bool := !thas s.tarn.spares c && !s.tarn.failed.contains (17 * c + 16)

/-- The wear trigger of a domain that holds a spared resource. -/
def wearTrigger (s : State) (d : Nat) : State :=
  if d < 272 then
    let c := d / 17
    if d % 17 < 16 ∧ tarnSpareLeft s c ∧ !s.tarn.failed.contains d ∧ !s.health.wear.any (fun x => x / 17 == c) then modHealth s (fun h => { h with wear := h.wear ++ [d] }) else s
  else if 289 ≤ d ∧ d ≤ 300 then (if eddyServes s (d - 289) && s.health.eddyRep.isNone && !bankAsked s true then askWeir s 2 3 (.eddyBank (d - 289)) else s)
  else if 302 ≤ d ∧ d ≤ 309 then (if poolServes s (d - 302) && s.health.poolRep.isNone && !bankAsked s false then askWeir s 2 2 (.poolBank (d - 302)) else s)
  else s

/-- One margin of a telemetry tick: below MARGIN_MIN it is reported; the tenth time running it is a wear trigger. (DEDUCED, log entry 79.) -/
def readMargin (s : State) (d ps : Nat) : State :=
  if s.health.marginMin ≤ ps then modHealth s (fun h => { h with margins := tset h.margins d ps, low := tdel h.low d })
  else
    let n := tgetD s.health.low d 0 + 1
    let s := evD (modHealth s (fun h => { h with margins := tset h.margins d ps, low := tset h.low d n })) 0xE04 d 0 ps
    if 10 ≤ n then wearTrigger s d else s

/-- The telemetry tick of each second. -/
def telemetry (margins : List (Nat × Nat)) (temps : List Int) (s : State) : State :=
  let s := logSummary (gridStep 4 1200000000 s)
  margins.foldl (fun s m => readMargin s m.1 m.2) (modHealth s (fun h => { h with temps := temps }))

def execTelemetryTick (margins : List (Nat × Nat)) (temps : List Int) (s : State) : Host.Outcome State Fault Refusal := runBase s (telemetry margins temps)

/-! ### Memory errors (18 R351, R353, R361) -/

/-- Whether a word lies in HBM3. -/
def ownerHbm : MemOwner → Bool
  | .jitter _ _ => true
  | .hbmWindow _ _ => true
  | _ => false

/-- A row's replacement begins, if its macro or bank has a spare row left: 4 and 1 (18 R349, R350). -/
def startRow (s : State) (hbm : Bool) (loc : Nat) (fault : Bool) : State :=
  let row := Config.rowOf hbm loc
  let key := if hbm then 2 * Config.bankOf row + 1 else 2 * (loc / 32768)
  let used := tgetD s.health.rowsUsed key 0
  if s.health.rowWait.any (fun w => w.1 == hbm && w.2.1 == row) ∨ (if hbm then 1 else 4) ≤ used then s
  else modHealth s (fun h => { h with rowWait := h.rowWait ++ [(hbm, row, fault)], rowsUsed := tset h.rowsUsed key (used + 1) })

/-- A corrected error is charged to its row: the third within 24 h replaces it. (DEDUCED, log entry 80.) -/
def rowError (s : State) (hbm : Bool) (loc : Nat) : State :=
  let id := 2 * Config.rowOf hbm loc + b2n hbm
  let now := secs s
  let old := s.health.rowErrs.filter (fun e => decide (now < e.2 + 86400))
  let s := modHealth s (fun h => { h with rowErrs := old ++ [(id, now)] })
  if 3 ≤ ((old.filter (fun e => e.1 == id)).length + 1) then startRow s hbm loc false else s

/-- `k` free 16-bit words. -/
def drawWords : Nat → State → List W16 × State
  | 0, s => ([], s)
  | k + 1, s =>
    let (w, s) := draw s
    let (ws, s) := drawWords k s
    (w.extractLsb' 0 16 :: ws, s)

/-- What the loss of a word does at once: a queue context and Wellhead memory act on it (18 R351); the content of a word of Tarn memory or
of an HBM3 window is a free value from then on, which a read meets once a write has cleared the mark (log entries 1, 80). -/
def lostWord (s : State) : MemOwner → State
  | .tarnLocal n a =>
    let (ws, s) := drawWords 4 s
    let c := tgetD s.tarn.cores n {}
    if 272 ≤ n ∨ 0x10000 ≤ a then s
    else { s with tarn := { s.tarn with cores := tset s.tarn.cores n { c with lmem := (List.range 4).foldl (fun m i => mset 0 m (a / 4 * 4 + i) (ws.getD i 0)) c.lmem } } }
  | .tarnCluster c a =>
    let (ws, s) := drawWords 4 s
    if 16 ≤ c ∨ 0x100000 ≤ a then s
    else { s with tarn := { s.tarn with cmem := tset s.tarn.cmem c ((List.range 4).foldl (fun m i => mset 0 m (a / 4 * 4 + i) (ws.getD i 0)) (tgetD s.tarn.cmem c [])) } }
  | .hbmWindow t w =>
    (List.range 8).foldl (fun s i =>
      let (v, s) := draw s
      { s with tasks := tmod s.tasks t (fun x => { x with hbmData := mset 0 x.hbmData (w / 8 * 8 + i) v }) }) s
  | .queueCtx q => { s with queues := tmod s.queues q (fun x => { x with ctx := x.ctx.map (fun (c : QCtx) => { c with state := 4 }), next := x.next.map (fun (c : QCtx) => { c with state := 4 }) }) }
  | .wellhead => failoverStart s
  | _ => s

/-- A word read by the scrub engine, or first by its owner: corrected and charged, or poisoned for its owner's next read. A write-back
that another write has overtaken is dropped, which no register shows. -/
def scrub (o : MemOwner) (loc : Nat) (bad : Bool) (s : State) : State :=
  let hbm := ownerHbm o
  if !bad then
    let s := modHealth (memErr s (if hbm then 2 else 0)) (fun h => if hbm then { h with hbmCe := inc48 h.hbmCe 1 } else { h with sramCe := inc48 h.sramCe 1 })
    rowError s hbm loc
  else if s.health.poison.contains (o, loc) then s
  else
    let s := modHealth (memErr s (if hbm then 3 else 1)) (fun h => if hbm then { h with hbmUe := inc48 h.hbmUe 1 } else { h with sramUe := inc48 h.sramUe 1 })
    let s := evD (modHealth s (fun h => { h with poison := h.poison ++ [(o, loc)] })) 0xE01 ((if hbm then 2 else 1) * 2 ^ 28 + loc % 2 ^ 28) 0 0
    lostWord (startRow s hbm loc true) o

def execScrubRead (owner : MemOwner) (loc : Nat) (uncorrectable raced : Bool) (s : State) : Host.Outcome State Fault Refusal :=
  runBase s (fun s => let _ := raced; scrub owner loc uncorrectable s)

/-- A conversion whose history or phase state is lost: the history is zeroed and the conversion realigns. -/
def Conv.lose (c : Conv) : Conv := if c.converts then { c with past := [], realign := true, wiped := true } else c

/-- What tenant `t`'s conversions and buses have lost takes effect at its boundary: a conversion realigns from a zeroed history, a bus
carries zeros for one frame. -/
def lossBoundary (t : Nat) (s : State) : State :=
  let s : State := { s with
    streams := tmap s.streams (fun _ st => if st.tenant = t then { st with rx := { st.rx with conv := { st.rx.conv with wiped := false } } } else st)
    lps := tmap s.lps (fun _ l => if l.owner = t then { l with conv := { l.conv with wiped := false }, outc := { l.outc with wiped := false } } else l) }
  s.health.poison.foldl (fun s e =>
    match e.1 with
    | .eddyState k => if ownsStream s t k then modStream (unpoison s e.1) k (fun st => { st with rx := { st.rx with conv := st.rx.conv.lose } }) else s
    | .eddyPort k o => if (lp s k).owner = t then modLp (unpoison s e.1) k (fun l => if !l.conv.converts then l else if o then { l with outc := l.outc.lose } else { l with conv := l.conv.lose }) else s
    | .poolState b => if b / 0x40000 = t then modBus (unpoison s e.1) t (b % 0x40000) (fun b => { b with ue := true }) else s
    | _ => s) s

/-- A row's copy is complete: the spare row is in use. Rows of one kind are replaced one after the other (18 R359). -/
def rowDone (hbm : Bool) (row : Nat) (s : State) : State :=
  match s.health.rowWait.find? (fun w => w.1 == hbm) with
  | none => s
  | some (_, first, fault) =>
    if first ≠ row then s
    else
    let s := modHealth s (fun h => { h with
      rowWait := h.rowWait.filter (fun w => !(w.1 == hbm && w.2.1 == row)), rowErrs := h.rowErrs.filter (fun e => e.1 != 2 * row + b2n hbm) })
    spareInserted s (if hbm then 5 else 4) row (b2n fault)

def execRowReplaceDone (hbm : Bool) (row : Nat) (s : State) : Host.Outcome State Fault Refusal := runBase s (rowDone hbm row)

/-! ### Commands (18 R362) -/

/-- health.query: 4 KiB, whose layout is not given, are free values (log entries 1, 40). -/
def planHealthQuery (c : Ctx) (_ : State) : Plan :=
  { fails := indirectFails c ++ failIf (c.u64 8 % 64 != 0) (.field 8)
    act := fun s => let (b, s) := drawBytes 4096 s; ({ s with host := mwrite s.host (c.u64 8) b }, .ok []) }

def cmdHealthQuery : Cmd := { opcode := 0x0E01, issuer := 'M', scope := 'D', query := true, least := 16, plan := planHealthQuery }

def execHealthQuery (r : Req) (s : State) : Host.Outcome State Fault Refusal := runCmd cmdHealthQuery r s

/-- health.policy_set. -/
def planHealthPolicy (c : Ctx) (_ : State) : Plan :=
  change (failIf (decide (c.u16 0 < 20) || decide (200 < c.u16 0)) (.field 0) ++ failIf (c.u8 2 == 0 || decide (24 < c.u8 2)) (.field 2)) []
    (fun s => modHealth s (fun h => { h with marginMin := c.u16 0, scrub := c.u8 2 }))

def cmdHealthPolicy : Cmd := { opcode := 0x0E02, issuer := 'M', scope := 'D', least := 3, plan := planHealthPolicy }

def execHealthPolicySet (r : Req) (s : State) : Host.Outcome State Fault Refusal := runCmd cmdHealthPolicy r s

/-- LINE and COUNT: the lines lie within 0 to 511. -/
def lineFails (c : Ctx) : List Fail := failIf (decide (511 < c.u16 0)) (.field 0) ++ failIf (decide (512 < c.u16 0 + c.u16 2)) (.field 2)

/-- lakebed.store_read. -/
def planStoreRead (c : Ctx) (s : State) : Plan :=
  resultAt c 8 (indirectFails c ++ lineFails c) (mread (tgetD s.health.store c.tenant []) (64 * c.u16 0) (64 * c.u16 2))

def cmdStoreRead : Cmd := { opcode := 0x0E03, issuer := 'T', scope := 'T', query := true, least := 16, plan := planStoreRead }

def execLakebedStoreRead (r : Req) (s : State) : Host.Outcome State Fault Refusal := runCmd cmdStoreRead r s

/-- The line tokens a tenant has now: 512 at most, one more each second (18 R358). -/
def lineTokens (s : State) (t : Nat) : Nat :=
  match tget s.health.tokens t with
  | none => 512
  | some (n, at_) => min 512 (n + (secs s - at_))

/-- lakebed.store_write: whole or not at all. -/
def planStoreWrite (c : Ctx) (s : State) : Plan :=
  let t := c.tenant
  let n := c.u16 2
  let have' := lineTokens s t
  { fails := failIf (decide (c.len < 16 + 64 * n)) .badLength ++ lineFails c
      ++ failIf (decide (have' < n)) (.busy (le4 (n - have'))) ++ failIf (regionReadOnly s 3) (.hwFault 320)
    act := fun s =>
      let s := modHealth s (fun h => { h with
        tokens := tset h.tokens t (have' - n, secs s), store := tset h.store t (mwrite (tgetD h.store t []) (64 * c.u16 0) (slice c.p 16 (64 * n))) })
      let s := (range (c.u16 0 / 64) ((c.u16 0 + n + 63) / 64)).foldl (fun s b =>
        writeBlock (9216 + 8 * t + b) (min (c.u16 0 + n) (64 * b + 64) - max (c.u16 0) (64 * b)) s) s
      (askWeir s 2 1 (.lakebed n), .ok []) }

def cmdStoreWrite : Cmd := { opcode := 0x0E04, issuer := 'T', scope := 'T', ind := true, least := 16, plan := planStoreWrite }

def execLakebedStoreWrite (r : Req) (s : State) : Host.Outcome State Fault Refusal := runCmd cmdStoreWrite r s

/-- health.log_read: the records held, from the first sequence number on. -/
def planLogRead (c : Ctx) (s : State) : Plan :=
  let n := c.u16 8
  let recs := s.health.log.filter (fun r => decide (c.u64 0 ≤ r.seq ∧ r.seq < c.u64 0 + n))
  resultAt c 16 (indirectFails c ++ failIf (n == 0 || decide (1024 < n)) (.field 8)) (recs.flatMap (·.data))

def cmdLogRead : Cmd := { opcode := 0x0E05, issuer := 'M', scope := 'D', query := true, least := 24, plan := planLogRead }

def execHealthLogRead (r : Req) (s : State) : Host.Outcome State Fault Refusal := runCmd cmdLogRead r s

/-- health.spare_force: the wear trigger by command. UNIT of a Tarn core is coded as in TARN_MIGRATED (log entry 40). -/
def planSpareForce (c : Ctx) (s : State) : Plan :=
  let k := c.u8 0
  let u := c.u16 2
  let d := if k = 1 then 17 * (u / 32) + u % 32 else if k = 2 then 289 + u else 302 + u
  let fits := if k = 1 then decide (u / 32 < 16 ∧ u % 32 < 16) else if k = 2 then decide (u < 12) else decide (u < 8)
  let left := if k = 1 then tarnSpareLeft s (u / 32) else if k = 2 then s.health.eddyRep.isNone else s.health.poolRep.isNone
  change (failIf (k == 0 || decide (3 < k)) (.field 0) ++ failIf (!fits) (.field 2) ++ failIf (!left) (.conflict [])) [] (fun s => wearTrigger s d)

def cmdSpareForce : Cmd := { opcode := 0x0E06, issuer := 'M', scope := 'D', least := 4, plan := planSpareForce }

def execHealthSpareForce (r : Req) (s : State) : Host.Outcome State Fault Refusal := runCmd cmdSpareForce r s

end Sys2Proof.Machine
end

