-- ==== Sys2Proof/Machine/Clk.lean ====
section
/-! DEFINITION. Chapter 14: qualification of the clock sources, the safe state, retries and recovery, switches, and gating. -/
namespace Sys2Proof.Machine

def modClk (s : State) (f : Clk → Clk) : State := { s with clk := f s.clk }

/-- Fast oscillator in service: 0 FOSC_A, 1 FOSC_B. Sources: 0 SOSC, 1 FOSC_A, 2 FOSC_B, 3 XA, 4 root PLL, 5 to 7 LC PLLs. -/
def foscSel (s : State) : Nat := tripGet s .foscSel

/-- Whether a source runs qualified, and the state with that changed (CLK_SRC_STATUS). -/
def srcOk (c : Clk) : Nat → Bool
  | 0 => c.sosc
  | 1 => c.foscA
  | 2 => c.foscB
  | 3 => c.xa
  | _ => c.root
def setSrc (s : State) (k : Nat) (b : Bool) : State := modClk s (fun c =>
  match k with
  | 0 => { c with sosc := b }
  | 1 => { c with foscA := b }
  | 2 => { c with foscB := b }
  | 3 => { c with xa := b }
  | _ => { c with root := b })

/-- Fast oscillator `o` is enabled or stopped; its windows count afresh. -/
def foscEnable (s : State) (o : Nat) (b : Bool) : State := modClk s (fun c =>
  { c with enA := if o = 0 then b else c.enA, enB := if o = 0 then c.enB else b, tries := tdel c.tries (1 + o) })
def foscEnabled (c : Clk) (o : Nat) : Bool := if o = 0 then c.enA else c.enB

/-- A failure enters CLK_FAULT. Sundique reports it, once it runs (14 R293). -/
def clkFault (s : State) (k : Nat) : State :=
  let s := modClk s (fun c => { c with fault := setBit c.fault k true })
  if s.ctl.stage = 4 ∧ s.clk.started then evD s 0xD11 k 0 0 else modClk s (fun c => { c with report := c.report ++ [k] })

/-! ### The safe state (14 R292) -/

/-- Every Causeway lane goes to electrical idle. -/
def cwAllDown (s : State) : State :=
  let up := s.cway.link != 0
  let s := modCway s (fun w => { w with link := 0, twinLink := 0 })
  if s.cway.manager then s.cway.devs.foldl (fun s d => loseDevice s d.1) s
  else if up && s.cway.numbered && !s.cway.lostMgr then evD (modCway s (fun w => { w with lostMgr := true })) 0xC03 0 0 0
  else s

/-- The safe state is forced: lanes idle, local ports lose their clocks or lines, and a device of a pair is fenced (16 R319). -/
def enterSafe (s : State) : State :=
  if s.dev.safe then s
  else
    let s := cwAllDown ((List.range 8).foldl linkDown { s with dev := { s.dev with safe := true } })
    let s := s.lps.foldl (fun s e => lpFault s e.1 0) s
    if role s = 0 ∨ role s = 5 then s else displace s 5

/-- A device-wide failure: the safe state, and a record in the fault log, which Wellhead writes while it runs. -/
def deviceWide (s : State) (k : Nat) : State :=
  let s := modClk s (fun c => { c with failed := c.failed ++ [k], tried := if c.failed.isEmpty then 0 else c.tried })
  let s := enterSafe s
  if s.clk.started then faultLog s (.clock k) else s

/-- Every synchronous domain but the fallback set stops, and that set moves to the fast oscillator (14 R293). -/
def stopMere (s : State) : State := tripSet (modClk s (fun c => { c with running := false })) .coreSrc 0

/-- No logic runs: the sequence of 14 R296 starts again from the fast oscillators. -/
def stopAll (s : State) : State := modClk (stopMere s) (fun c => { c with started := false })

/-- A source fails that has not failed already. Before step 3 the start-up goes on as 14 R297 says, with the other oscillator or with a
retry; a source in service fails device-wide; a spare is only reported. A failure of SOSC or a fast oscillator leaves what runs on the
locked root running; without the root nothing runs on what has failed (R296). (DEDUCED, log entry 83.) -/
def newFail (k : Nat) (s : State) : State :=
  let s := clkFault (setSrc s k false) k
  match k with
  | 0 =>
    if s.clk.root then deviceWide s 0
    else deviceWide (modClk (stopAll s) (fun c => { c with enA := false, enB := false, enX := false, foscA := false, foscB := false, xa := false })) 0
  | 3 => deviceWide (stopMere (setSrc s 4 false)) 3
  | 4 => deviceWide (stopMere s) 4
  | _ =>
    let o := k - 1
    if !s.clk.started then (if o = 0 then foscEnable (foscEnable s 0 false) 1 true else deviceWide (foscEnable s 1 false) 2)
    else if foscSel s ≠ o then foscEnable s o false
    else if s.clk.root then deviceWide s k else deviceWide (stopAll s) k

/-- A source fails. One whose failure lasts stays failed; before step 3 the retry goes on with the other oscillator (14 R294, R297). -/
def srcFail (k : Nat) (s : State) : State :=
  if !s.clk.failed.contains k then newFail k s
  else
    let s := setSrc s k false
    if k = 1 ∧ !s.clk.started then foscEnable (foscEnable s 0 false) 1 true else if k = 2 ∧ !s.clk.started then foscEnable s 1 false else s

/-- Whether a source whose failure lasts is back: qualified, and what uses it restarted (14 R292). -/
def srcBack (s : State) (k : Nat) : Bool :=
  match k with
  | 0 => s.clk.sosc
  | 3 => s.clk.xa && s.clk.root
  | 4 => s.clk.root
  | _ => s.clk.started && srcOk s.clk (1 + foscSel s)

/-- The failures that are over are reported, and with the last of them the safe state ends (14 R292, R294). -/
def clkSettle (s : State) : State :=
  let over_ := s.clk.failed.filter (srcBack s)
  let s := modClk s (fun c => { c with failed := c.failed.filter (fun k => !srcBack s k) })
  let s := over_.foldl (fun s k => if s.ctl.stage = 4 ∧ s.clk.started then evD s 0xD12 k 0 (min 0xFFFF s.clk.tried) else s) s
  if s.clk.failed.isEmpty ∧ s.clk.started then
    modClk { (if s.dev.safe then cwAdapt s else s) with dev := { s.dev with safe := false } } (fun c => { c with tried := 0 })
  else s

/-- Mere has stood still: time bases lose VALID and Stillwater acquires afresh; media clocks and streams re-anchor of themselves (14 R294). -/
def mereBack (s : State) : State :=
  reselect (setSel (modRefs { s with tbs := s.tbs.map (fun e => (e.1, { e.2 with valid := false })) } (fun r => { r with origin := 0x7F, state := 0 })) 0x7F) false

/-! ### Start-up and qualification (14 R290, R291, R296, R297) -/

/-- SOSC edges appear: step 2 of the start-up, or its return after a failure. -/
def soscRunning (s : State) : State :=
  if s.dev.held ∨ s.clk.sosc then s
  else
    let s := setSrc s 0 true
    clkSettle (if s.clk.root then s else foscEnable (modClk s (fun c => { c with enX := true })) 0 true)

def execSoscRunning (s : State) : Host.Outcome State Fault Refusal := run s soscRunning

/-- Step 3: the fallback set starts on oscillator `o`, the lanes may leave electrical idle, FAULT_N is released where no failure lasts, and
what could not be reported is. -/
def stepThree (o : Nat) (s : State) : State :=
  let s := clkSettle (tripSet (modClk s (fun c => { c with started := true, sds := 7 })) .foscSel o)
  if s.ctl.stage = 4 then modClk (s.clk.report.foldl (fun s k => evD s 0xD11 k 0 0) s) (fun c => { c with report := [] }) else s

/-- Whether the oscillator in service is worn: beyond ±2.5 % of XA (14 R291). -/
def foscWorn (s : State) : Bool :=
  s.clk.root && decide (2500 < (sext 16 (if foscSel s = 0 then s.clk.devA else s.clk.devB)).natAbs) && srcOk s.clk (1 + foscSel s)

/-- A worn oscillator gives way to the other, once that is qualified. -/
def foscExchange (s : State) : State :=
  let o := foscSel s
  if !foscWorn s then s
  else if srcOk s.clk (2 - o) then
    let s := foscEnable (foscEnable (setSrc s (1 + o) false) o false) (1 - o) true
    spareInserted (tripSet s .foscSel (1 - o)) 7 o 0
  else if bit s.clk.fault (2 - o) then s
  else foscEnable s (1 - o) true

/-- A window of fast oscillator `o` ends with deviation `dev`, in 0.001 %: against SOSC until XA is qualified, then against XA. Four windows
without acceptance fail a source that is starting up. -/
def foscWindow (o : Nat) (dev : Int) (s : State) : State :=
  if 2 ≤ o ∨ !foscEnabled s.clk o ∨ !(s.clk.sosc || s.clk.xa) then s
  else
    let viaXa := s.clk.xa
    let code := toBits 16 (clampI (-32768) 32767 dev)
    let s := modClk s (fun c => { c with devA := if o = 0 ∧ viaXa then code else c.devA, devB := if o = 1 then code else c.devB })
    let good := decide (dev.natAbs ≤ if viaXa then 2500 else 8000)
    let bad := decide ((if viaXa then 3000 else 12000) < dev.natAbs)
    let tries := tgetD s.clk.tries (1 + o) 0 + 1
    if bad || (!good && !srcOk s.clk (1 + o) && decide (4 ≤ tries) && !s.clk.started && s.clk.failed.isEmpty) then srcFail (1 + o) s
    else if !good then foscExchange (if srcOk s.clk (1 + o) then s else modClk s (fun c => { c with tries := tset c.tries (1 + o) tries }))
    else
      let s := setSrc s (1 + o) true
      if !s.clk.started then stepThree o s else foscExchange (clkSettle s)

def execFoscQualWindow (osc : Nat) (dev : Int) (s : State) : Host.Outcome State Fault Refusal := run s (foscWindow osc dev)

/-- A window of XA ends, against the fast oscillator in service. -/
def xaWindow (dev : Int) (s : State) : State :=
  if !s.clk.started ∨ !s.clk.enX ∨ !srcOk s.clk (1 + foscSel s) then s
  else
    let tries := tgetD s.clk.tries 3 0 + 1
    let starting := !s.clk.running && s.clk.failed.isEmpty
    if 8000 < dev.natAbs ∨ (5000 < dev.natAbs ∧ !s.clk.xa ∧ 4 ≤ tries ∧ starting) then srcFail 3 s
    else if 5000 < dev.natAbs then (if s.clk.xa then s else modClk s (fun c => { c with tries := tset c.tries 3 tries }))
    else modClk (setSrc s 3 true) (fun c => { c with tries := tdel c.tries 3 })

def execXaQualWindow (dev : Int) (s : State) : Host.Outcome State Fault Refusal := run s (xaWindow dev)

/-- The root PLL locks: the fallback set moves to it and every synchronous domain starts on one common edge; a failure of XA or of the
root itself is over. -/
def rootLock (s : State) : State :=
  if s.clk.xa ∧ s.clk.started ∧ !s.clk.root then
    let stood := s.clk.failed.contains 3 || s.clk.failed.contains 4
    let s := tripSet (modClk s (fun c => { c with root := true, running := true })) .coreSrc 1
    clkSettle (if stood then mereBack s else s)
  else s

def execRootPllLock (s : State) : Host.Outcome State Fault Refusal := run s rootLock

/-- A monitor trips: SOSC, a running fast oscillator, XA, or the root's loss of lock. -/
def missingEdge (k : Nat) (s : State) : State :=
  let live := match k with
    | 0 => s.clk.sosc
    | 1 => s.clk.enA
    | 2 => s.clk.enB
    | 3 => s.clk.enX
    | 4 => s.clk.root
    | _ => false
  if live then srcFail k s else s

def execMissingEdgeTrip (src : Nat) (s : State) : Host.Outcome State Fault Refusal := run s (missingEdge src)

/-- A retry of a device-wide failure, timed on SOSC: the failed sources are restarted; before step 3 both fast oscillators, in order
(14 R294, R297). -/
def clkRetry (s : State) : State :=
  if s.clk.failed.isEmpty ∨ !s.clk.sosc then s
  else
    let s := modClk s (fun c => { c with retries := inc48 c.retries 1, tried := c.tried + 1, enX := true, tries := c.tries.filter (fun e => !c.failed.contains e.1) })
    if s.clk.started then [1, 2].foldl (fun s k => if s.clk.failed.contains k then foscEnable s (k - 1) true else s) s
    else foscEnable (foscEnable s 1 false) 0 true

def execClkRetry (s : State) : Host.Outcome State Fault Refusal := run s clkRetry

/-- The new clock of a switch does not arrive: the selector returns (14 R298). Only the fallback set has two clocks; where it returns to
the fast oscillator the other synchronous domains do not run (R293). -/
def swTimeout (d : Nat) (s : State) : State :=
  let s := modClk s (fun c => { c with fault := setBit c.fault 8 true })
  if !((319 ≤ d ∧ d ≤ 326) ∨ d = 337) then s
  else if tripGet s .coreSrc = 1 then stopMere s
  else if s.clk.root then tripSet (modClk s (fun c => { c with running := true })) .coreSrc 1 else s

def execSwTimeout (domain : Nat) (s : State) : Host.Outcome State Fault Refusal := run s (swTimeout domain)

/-- The daily check of FOSC_B: one window against XA, after which it stops again. -/
def spareCheck (dev : Int) (s : State) : State :=
  if !s.clk.xa then s
  else if foscSel s = 1 then foscWindow 1 dev s
  else
    let s := modClk s (fun c => { c with devB := toBits 16 (clampI (-32768) 32767 dev) })
    let s := if dev.natAbs ≤ 2500 then setSrc s 2 true else if 3000 < dev.natAbs then clkFault (setSrc s 2 false) 2 else s
    foscExchange s

def execFoscSpareCheck (dev : Int) (s : State) : Host.Outcome State Fault Refusal := run s (spareCheck dev)

/-- The LC PLLs of a monitored clock: `k` below 3 the PLL itself, 3 SERDES_REFCLK, which feeds all of them. -/
def lcPlls (k : Nat) : List Nat := if k = 3 then [0, 1, 2] else if k < 3 then [k] else []

/-- LC PLL `k` is lost: its lanes alone go idle (14 R295). The 400GBASE-R port uses PLLs 0 and 1. -/
def lcPllLost (s : State) (k : Nat) : State :=
  if !bit s.clk.sds k then s
  else
    let s := clkFault (modClk s (fun c => { c with sds := setBit c.sds k false })) (5 + k)
    if k = 2 then cwAllDown s
    else
      let s := (range (4 * k) (4 * k + 4)).foldl linkDown s
      if groupMode s 0 = 1 then linkDown s 0 else s

/-- LC PLL `k`, or SERDES_REFCLK, loses lock, or a window of 1 ms against XA finds it `dev` ppm off: beyond 500 ppm it fails (14 R290). -/
def lcPllFail (k : Nat) (dev : Option Int) (s : State) : State :=
  if (dev.map (fun d => decide (d.natAbs ≤ 500))).getD false then s else (lcPlls k).foldl lcPllLost s

def execLcPllFail (k : Nat) (dev : Option Int) (s : State) : Host.Outcome State Fault Refusal := run s (lcPllFail k dev)

/-- A window finds LC PLL `k`, or SERDES_REFCLK, `dev` ppm off XA: within 200 ppm it is accepted again, beyond 500 ppm it fails (14 R290). -/
def lcPllRequalify (k : Nat) (dev : Int) (s : State) : State :=
  if !s.clk.xa then s
  else if 500 < dev.natAbs then lcPllFail k (some dev) s
  else if 200 < dev.natAbs then s
  else (lcPlls k).foldl (fun s k =>
    if bit s.clk.sds k then s
    else
      let s := modClk (if k = 2 then cwAdapt s else s) (fun c => { c with sds := setBit c.sds k true })
      if s.ctl.stage = 4 ∧ s.clk.started then evD s 0xD12 (5 + k) 0 0 else s) s

def execLcPllRequalify (k : Nat) (dev : Int) (s : State) : Host.Outcome State Fault Refusal := run s (lcPllRequalify k dev)

/-! ### Gating (14 R299 to R301) -/

/-- The children of a domain in the gating tree. -/
def domChildren (d : Nat) : List Nat :=
  if 272 ≤ d ∧ d ≤ 287 then range (17 * (d - 272)) (17 * (d - 272) + 17)
  else if d = 288 then range 272 288
  else if d = 326 then range 322 326
  else []

/-- Whether a domain of itself holds what is in use. -/
def domHolds (s : State) (d : Nat) : Bool :=
  if d < 272 then (if d % 17 = 16 then thas s.tarn.spares (d / 17) else s.tasks.any (fun e => 17 * e.2.cluster + e.2.core == d))
  else if d ≤ 288 then false
  else if d ≤ 301 then eddyServes s (d - 289)
  else if d ≤ 310 then poolServes s (d - 302)
  else if 327 ≤ d ∧ d ≤ 334 then portExists s (d - 327)
  else if d = 335 then s.queues.any (·.2.typ == 0)
  else if d = 336 then s.queues.any (·.2.typ == 1)
  else decide (d ≤ 337)

/-- A domain with all below it. -/
def domTree (d : Nat) : List Nat := d :: (domChildren d).flatMap (fun e => e :: domChildren e)

/-- The first domain in use among `d` and those below it. -/
def firstInUse (s : State) (d : Nat) : Option Nat := ((domTree d).filter (domHolds s)).foldl (fun m e => match m with | none => some e | some x => some (min x e)) none

/-- Whether waking `d` is a heavy operation, and its credits (14 R301, 19 R363). -/
def gateCredits (d : Nat) : Nat := if 272 ≤ d ∧ d ≤ 287 then 4 else if 289 ≤ d ∧ d ≤ 301 then 3 else if 302 ≤ d ∧ d ≤ 310 then 2 else 0

/-- The domains above `d` in the gating tree. -/
def domAbove (d : Nat) : List Nat :=
  if d < 272 then [272 + d / 17, 288] else if d ≤ 287 then [288] else if 322 ≤ d ∧ d ≤ 325 then [326] else []

/-- Whether `d` or a domain above it is set off: a parent that is off takes all below it with it. (DEDUCED, log entry 83.) -/
def domCut (s : State) (d : Nat) : Bool := (d :: domAbove d).any (fun e => domSetting s e == 0)

/-- Whether domain `d` is off: set off, or automatic, without work, and without a child that is on (14 R299). -/
def domOff (s : State) (d : Nat) : Bool :=
  domCut s d || (domSetting s d == 2 && s.clk.auto && (firstInUse s d).isNone
    && !((domTree d).drop 1).any (fun e => domSetting s e == 1 && !domCut s e))

/-- power.gate_set. -/
def planGateSet (c : Ctx) (s : State) : Plan :=
  let d := c.u16 0
  let v := c.u8 2
  let named := decide (d < 338)
  let heavy := named && v == 1 && gateCredits d != 0 && domOff s d
  { fails := failIf (!named && d != 0xFFFF) (.field 0) ++ failIf (decide (2 < v)) (.field 2) ++ failIf (decide (2 < c.u8 3)) (.field 3)
      ++ (if named && v == 0 then (match firstInUse s d with | some e => [.conflict (le2 e)] | none => []) else [])
    touch := if named then [.domain d] else []
    pends := heavy
    act := fun s =>
      let s := if c.u8 3 = 0 then s else modClk s (fun k => { k with auto := c.u8 3 == 2 })
      if heavy then (askWeir s 2 (gateCredits d) (.gate d v), .pend (.gate d v) [.domain d])
      else (if named then setDomain s d v else s, .ok []) }

def cmdGateSet : Cmd := { opcode := 0x0D10, issuer := 'M', scope := 'D', least := 4, rsvd := [(4, 44)], plan := planGateSet }

def execPowerGateSet (r : Req) (s : State) : Host.Outcome State Fault Refusal := runCmd cmdGateSet r s

/-- Weir has admitted the wake of a domain: its setting takes effect and CLK_GATE_DONE is written. -/
def gateAdmit (s : State) (d v : Nat) : State :=
  (pendingFor s (fun w => w == .gate d v)).foldl (fun s p => finish s p 0 0) (setDomain s d v)

/-- Whether an asynchronous domain has its clock (14 R287). -/
def asyncRuns (s : State) (d : Nat) : Bool :=
  if d < 346 then (tgetD s.netPorts (lanePort s (d - 338)) {}).link
  else if d < 354 then bit s.clk.sds ((d - 346) / 4) && !s.dev.safe
  else if d < 358 then bit s.cway.link (d - 354)
  else if d < 362 then bit s.clk.sds 2 && !s.dev.safe
  else if d = 362 then true
  else if d < 379 then (fldPort s (d - 363)).configured
  else if d < 411 then (lp s (d - 379)).clk
  else if d < 419 then (lp s (0x20 + (d - 411))).clk
  else if d < 427 then (lp s (0x28 + (d - 419))).settled
  else if d = 427 then !s.cal.xbStop
  else if d = 428 then s.clk.sosc
  else if d < 431 then candEnabled s (d - 405)
  else (syn s (d - 431)).locked

/-- What the power state in force applies to synchronous domain `d` (19 R365): clocks stopped in Trim, power off from Doze on, for what is not in
use; in Sleep for all but the peripheral domain and the MACs that watch for a WAKE filter. -/
def powerCuts (s : State) (d : Nat) : Bool :=
  (s.pwr.state != 0 && (firstInUse s d).isNone)
    || (s.pwr.state == 4 && d != 337 && !(decide (327 ≤ d ∧ d ≤ 334) && s.filters.any (fun f => fld f.2 1 1 % 4 == 3 && bit (fld f.2 2 1) (d - 327))))

/-- STATE of a domain in CLK_DOM_STATE: 0 off, 1 gated idle, 2 running, 3 stopped by a fault. -/
def domState (s : State) (d : Nat) : Nat :=
  if 439 ≤ d ∨ !s.clk.started then 0
  else if d < 338 then
    let fallback := (decide (319 ≤ d) && decide (d ≤ 326)) || d == 337
    if !s.clk.running ∧ !fallback then (if s.clk.failed.isEmpty then 0 else 3)
    else if domCut s d then 0
    else if powerCuts s d then (if s.pwr.state = 1 then 1 else 0)
    else if domOff s d then 1 else 2
  else if asyncRuns s d then 2 else 0

end Sys2Proof.Machine
end

