-- ==== Sys2Proof/Machine/Power.lean ====
section
/-! DEFINITION. Chapter 19: latency tolerances, the power states and waking. -/
namespace Sys2Proof.Machine

def modPwr (s : State) (f : Pwr → Pwr) : State := { s with pwr := f s.pwr }

/-- Wake latencies, µs (19 R365). -/
def latency : Nat → Nat
  | 0 => 0
  | 1 => 20
  | 2 => 300
  | 3 => 5000
  | _ => 400000

/-- The smallest tolerance of PF0 and of the tenants that exist, and who states it: 0xFFFF PF0 (19 R367). -/
def tolInForce (s : State) : Nat × Nat :=
  s.tenants.foldl (fun m e => let v := tgetD s.pwr.tenantTol e.1 0xFFFFFFFF; if v < m.1 then (v, e.1) else m) (s.pwr.tol, 0xFFFF)

/-- Whether the device has an open stream, local port, host audio ring or task. -/
def audioOpen (s : State) : Bool :=
  !s.streams.isEmpty || !s.tasks.isEmpty || s.lps.any (fun e => !e.2.conf.isEmpty) || s.queues.any (fun e => (e.2.typ == 5 || e.2.typ == 6) && (e.2.context.map (·.link)).getD 0xFFFF != 0xFFFF)

/-- The deepest state whose further condition holds (19 R365, R366). Whether every function is in D3hot, and whether the saved state fits
the resume image, no step shows: for Sleep that is a free value (log entry 1). (DEDUCED, log entry 85.) -/
def deepest (s : State) : Nat × State :=
  if audioOpen s || twinId s != 0 || s.cway.link != 0 then (2, s)
  else if s.tenants.any (fun e => e.2.use.hbm != 0) || !s.ctl.pend.isEmpty || s.mbx.any (fun m => m.2.cmdCi != m.2.pi || !m.2.taken.isEmpty) then (3, s)
  else
    let (b, s) := drawBelow s 2
    (3 + b, s)

/-- The deepest state within a tolerance, up to `d`. -/
def within (tol : Nat) : Nat → Nat
  | 0 => 0
  | d + 1 => if latency (d + 1) ≤ tol then d + 1 else within tol d

/-- Weir's choice (19 R367). -/
def choice (s : State) : Nat × State :=
  let (d, s) := deepest s
  (within (tolInForce s).1 d, s)

/-- A deeper state has stayed the choice for its dwell: its entry begins. -/
def stateEntry (s : State) : State :=
  if s.ctl.stage ≠ 4 ∨ s.pwr.waking ∨ s.pwr.entering.isSome then s
  else
    let (n, s) := choice s
    if s.pwr.state < n then modPwr s (fun p => { p with entering := some n }) else s

def execPowerStateEntry (s : State) : Host.Outcome State Fault Refusal := runBase s stateEntry

/-- The entry completes; at Sleep the resume image has been written (19 R366). -/
def stateEntryDone (s : State) : State :=
  match s.pwr.entering with
  | none => s
  | some n =>
    let old := s.pwr.state
    let s := modPwr s (fun p => { p with state := n, entering := none })
    evD (if n = 4 then modHealth s (fun h => { h with resume := true }) else s) 0xD01 0 old n

def execPowerStateEntryDone (s : State) : Host.Outcome State Fault Refusal := runBase s stateEntryDone

/-- A wake event of 19 R368. -/
def execWakeEvent (kind : Nat) (s : State) : Host.Outcome State Fault Refusal := run s (fun s => let _ := kind; wake s)

/-- On exit from a power state the LC PLL of a group is calibrated in full, unless a port of the group carries a stream leg (10 R213). -/
def wakePlls (s : State) : State :=
  { s with netGroups := tmap s.netGroups (fun g x => if x.mode != 0 && !(range (4 * g) (4 * g + 4)).any (portLegs s) then { x with pllCal := true } else x) }

/-- The device is back in Run, once Weir has admitted what the wake asked for: held doorbells are served, the keys' present states
delivered (11 R245). From Sleep it comes back as from a device-wide clock failure, and the holdover history is gone (21 R390). -/
def wakeDone (s : State) : State :=
  if !s.pwr.waking ∨ s.pwr.weirQ.any (fun r => r.cls == 1) then s
  else
    let old := s.pwr.state
    let s := modPwr s (fun p => { p with state := 0, waking := false })
    if old = 0 then s
    else
      let s := if old = 4 then
          modHealth (mereBack (modRefs s (fun r => { r with hist := [], histSum := 0, histN := 0 }))) (fun h => { h with resume := false })
        else s
      deliverAll (evD (wakePlls s) 0xD01 0 old 0)

def execWakeDone (s : State) : Host.Outcome State Fault Refusal := runBase s wakeDone

/-- power.tolerance_set. A command is served in Run, which meets every tolerance (19 R368, R369). -/
def planTolerance (c : Ctx) (_ : State) : Plan :=
  let t := c.tenant
  change (failIf (t == 0xFFFF && !c.mgr) .noPermission) []
    (fun s => modPwr s (fun p => if t = 0xFFFF then { p with tol := c.u32 0 } else
      { p with tenantTol := if c.u32 0 = 0xFFFFFFFF then tdel p.tenantTol t else tset p.tenantTol t (c.u32 0) }))

def cmdTolerance : Cmd := { opcode := 0x0D02, issuer := 'T', scope := 'E', least := 4, rsvd := [(4, 44)], plan := planTolerance }

def execPowerToleranceSet (r : Req) (s : State) : Host.Outcome State Fault Refusal := runCmd cmdTolerance r s

/-- power.query. -/
def planPowerQuery (_ : Ctx) (_ : State) : Plan :=
  { act := fun s =>
      let (d, s) := deepest s
      let (v, t) := tolInForce s
      (s, .ok (le1 s.pwr.state ++ le1 d ++ zb 2 ++ le4 v ++ le2 t ++ zb 2 ++ le4 s.pwr.credits)) }

def cmdPowerQuery : Cmd := { opcode := 0x0D03, issuer := 'T', scope := 'E', query := true, plan := planPowerQuery }

def execPowerQuery (r : Req) (s : State) : Host.Outcome State Fault Refusal := runCmd cmdPowerQuery r s

/-- A write of PWR_WEIR_CFG: BUDGET and RESERVE are staged, COMMIT takes them at the next window, and 1 clears COMMIT_ERR (20 R378).
Writing a reserved bit is not defined (20 R375). -/
def execWeirCommitWrite (val : BitVec 64) (s : State) : Host.Outcome State Fault Refusal :=
  let v := val.toNat
  if bits v 7 6 ≠ 0 ∨ bits v 15 14 ≠ 0 ∨ bits v 63 18 ≠ 0 then .fault (.reservedTestControl 0x070008)
  else runBase s (fun s =>
    let s := tripSet (tripSet s .budgetSt (bits v 5 0)) .reserveSt (bits v 13 8)
    modPwr s (fun p => { p with commit := p.commit || bit v 16, commitErr := p.commitErr && !bit v 17 }))

end Sys2Proof.Machine
end

