-- ==== Sys2Proof/Machine/Queues.lean ====
section
/-! DEFINITION. Chapter 03, second half: queues, doorbells, interrupts and function-level resets. -/
namespace Sys2Proof.Machine

/-- A queue's context takes effect at the next frame boundary of its tenant; PF0 has no frame, so its own queues' contexts
take effect at once (03 R56). -/
def putNext (s : State) (k : Nat) (c : QCtx) : State :=
  { s with queues := tmod s.queues k (fun q => if q.tenant = 0xFFFF then { q with ctx := some c, next := none } else { q with next := some c }) }

/-- The queue an ID field names: Q from a manager, LQ from a tenant-rights mailbox; it must be of the header's scope. -/
def queueOf (c : Ctx) (s : State) (id : Nat) : Option Nat :=
  if c.mgr then (match tget s.queues id with | some q => if q.tenant = c.tenant then some id else none | none => none)
  else findQ s c.tenant id

/-- The failing condition of an ID that names no queue. -/
def queueFails (c : Ctx) (s : State) (id : Nat) : List Fail :=
  match queueOf c s id with
  | some _ => []
  | none => [missing s (if c.mgr then .queue id else .lq c.tenant id) 0]

/-! ### queue.create and queue.destroy -/

/-- queue.create: host rings and event queues. (DEDUCED, log entry 61.) -/
def planQueueCreate (c : Ctx) (s : State) : Plan :=
  let typ := c.u8 0
  let ent := c.u8 2
  let lq := c.u32 4
  let t := c.tenant
  let vec := c.u16 16
  let lqs := if lq = 0 ∧ typ = 7 then failIf ((findQ s t 0).isSome || (t == 0xFFFF && thas s.queues 0)) (.conflict []) else lqFails s t lq 4
  let fails := failIf (!(typ == 5 || typ == 6 || typ == 7)) (.field 0)
    ++ failIf (decide (typ ≠ 7 ∧ 2 < c.u8 1)) (.field 1)
    ++ failIf (if typ = 7 then ent != 4 else !(decide (6 ≤ ent) && decide (ent ≤ 16))) (.field 2)
    ++ failIf (!(decide (4 ≤ c.u8 3) && decide (c.u8 3 ≤ 16))) (.field 3)
    ++ lqs ++ failIf (c.u64 8 % 64 != 0) (.field 8) ++ failIf (!vectorOk s t vec) (.field 16)
    ++ failIf (decide (4095 < c.u16 18)) (.field 18) ++ failIf (typ == 7 && c.u16 22 != 0) (.field 22)
    ++ failIf (!perFunction s t && vectorTaken s t vec 0x100000) (.conflict [])
    ++ (if t = 0xFFFF then failIf (!pf0QueueFits s) .noResource else quotaFails s t { queues := 1 })
  { fails := fails
    act := fun s =>
      let ctx : QCtx := ⟨typ, 2, if typ = 7 then 0 else c.u8 1, 2, t, ent, c.u8 3, 0, c.u64 8, vec, c.u16 18, c.u16 20, c.u16 22⟩
      let (s, k, lq) := newQueue s t lq { lq := 0, typ := typ, tenant := t, armed := vec != 0xFFFF }
      let s := putNext s k ctx
      let s := if k = 0 then drain 0 ((tgetD s.fns 0 {}).held.length + 1) s else s
      (wake s, .ok (le4 k ++ le4 lq)) }

def cmdQueueCreate : Cmd :=
  { opcode := 0x0301, issuer := 'T', scope := 'E', least := 24, rsvd := [(24, 24)], plan := planQueueCreate }

def execQueueCreate (r : Req) (s : State) : Host.Outcome State Fault Refusal := runCmd cmdQueueCreate r s

/-- A destroyed ring stops: entries not taken are discarded and QUEUE_DESTROYED carries the final indices. -/
def endQueue (s : State) (k : Nat) : State :=
  match tget s.queues k with
  | none => s
  | some q => evT (dropQueue s k) q.tenant 0x0302 q.lq (q.pi % 65536) (q.ci % 65536)

/-- queue.destroy: types 0 to 4 close with the object that created them. The ring stops at the next frame boundary. -/
def planQueueDestroy (c : Ctx) (s : State) : Plan :=
  let id := c.u32 0
  let q := (queueOf c s id).bind (tget s.queues)
  let k := (queueOf c s id).getD 0
  { fails := queueFails c s id ++ failIf ((q.map (fun x => decide (x.typ ≤ 4) || x.destroy)).getD false) (.conflict [])
    touch := [.queue k]
    act := fun s =>
      let s := { s with queues := tmod s.queues k (fun x => { x with destroy := true }) }
      let lq := ((tget s.queues k).map (·.lq)).getD 0
      (if c.tenant = 0xFFFF then endQueue s k else closeInput s c.tenant (fun r => r.kind == 2 && r.obj == lq), .ok []) }

def cmdQueueDestroy : Cmd := { opcode := 0x0302, issuer := 'T', scope := 'E', least := 4, plan := planQueueDestroy }

def execQueueDestroy (r : Req) (s : State) : Host.Outcome State Fault Refusal := runCmd cmdQueueDestroy r s

/-! ### Queries -/

/-- The 32 bytes of a context, with the live indices (03). (DESIGN CHOICE, log entry 60.) -/
def contextBytes (q : Queue) (c : QCtx) : List Byte :=
  le1 (c.typ + 16 * c.mem + 64 * c.sfmt) ++ le1 c.state ++ le2 c.tenant ++ le1 c.entLog ++ le1 c.ringLog ++ le2 c.depth ++ le8 c.base
    ++ le4 q.pi ++ le4 q.ci ++ le2 c.vector ++ le2 c.coalCount ++ le2 c.coalTime ++ le2 c.link

/-- The context a read returns: the one in force, or, before the first boundary, the new one with STATE 1 (ready). -/
def shownContext (q : Queue) : QCtx := q.ctx.getD { (q.next.getD default) with state := 1 }

/-- queue.query (22 R401). -/
def planQueueQuery (c : Ctx) (s : State) : Plan :=
  let q := ((queueOf c s (c.u32 0)).bind (tget s.queues)).getD default
  resultAt c 8 (queueFails c s (c.u32 0)) (contextBytes q (shownContext q))

def cmdQueueQuery : Cmd := { opcode := 0x0303, issuer := 'T', scope := 'E', query := true, least := 16, plan := planQueueQuery }

def execQueueQuery (r : Req) (s : State) : Host.Outcome State Fault Refusal := runCmd cmdQueueQuery r s

/-- queue.stats: eight 48-bit counters. -/
def planQueueStats (c : Ctx) (s : State) : Plan :=
  let q := ((queueOf c s (c.u32 0)).bind (tget s.queues)).getD default
  let hwm := ((s.streams.find? (fun e => decide (e.1 < 65536) && some e.2.q == queueOf c s (c.u32 0))).map (fun e => tgetD e.2.ctr 21 0)).getD 0
  resultAt c 8 (queueFails c s (c.u32 0))
    (le8 q.produced ++ le8 q.consumed ++ le8 q.dbRef ++ le8 q.full ++ le8 q.under ++ le8 q.badEnt ++ le8 hwm ++ le8 q.irqs)

def cmdQueueStats : Cmd := { opcode := 0x0304, issuer := 'T', scope := 'E', query := true, least := 16, plan := planQueueStats }

def execQueueStats (r : Req) (s : State) : Host.Outcome State Fault Refusal := runCmd cmdQueueStats r s

/-! ### Interrupt settings -/

/-- queue.int_set: VECTOR, COAL_COUNT and COAL_TIME together, from the next frame boundary. -/
def planIntSet (c : Ctx) (s : State) : Plan :=
  let id := c.u32 0
  let k := (queueOf c s id).getD 0
  let t := c.tenant
  change
    (queueFails c s id ++ failIf (!vectorOk s t (c.u16 4)) (.field 4) ++ failIf (decide (4095 < c.u16 6)) (.field 6)
      ++ failIf (!perFunction s t && vectorTaken s t (c.u16 4) k) (.conflict []))
    [.queue k]
    (fun s =>
      match (tget s.queues k).bind (·.context) with
      | none => s
      | some x => checkIrq (putNext s k { x with vector := c.u16 4, coalCount := c.u16 6, coalTime := c.u16 8 }) k)

def cmdIntSet : Cmd := { opcode := 0x0305, issuer := 'T', scope := 'E', least := 10, plan := planIntSet }

def execQueueIntSet (r : Req) (s : State) : Host.Outcome State Fault Refusal := runCmd cmdIntSet r s

/-- queue.int_mode: refused while any queue but event queue 0 holds a vector (03 R63). -/
def planIntMode (c : Ctx) (s : State) : Plan :=
  let t := c.tenant
  change
    (failIf (decide (1 < c.u8 0)) (.field 0)
      ++ failIf (s.queues.any (fun p => p.2.tenant == t && p.2.lq != 0 && ((p.2.context.map (·.vector)).getD 0xFFFF) != 0xFFFF)) (.conflict []))
    [] (fun s => modTenant s t (fun x => { x with nextPerFn := some (c.u8 0 == 1) }))

def cmdIntMode : Cmd := { opcode := 0x0306, issuer := 'T', scope := 'T', least := 1, plan := planIntMode }

def execQueueIntMode (r : Req) (s : State) : Host.Outcome State Fault Refusal := runCmd cmdIntMode r s

/-! ### Queue doorbells (03 R61) -/

/-- A discarded doorbell. -/
def stray (s : State) (fn : Nat) : State :=
  setInt (modFn s fn (fun f => { f with strayCnt := inc48 f.strayCnt 1 })) fn .dbStray

/-- A refused doorbell: counted; DB_REFUSED at most once per ms per queue. -/
def refuseDoorbell (s : State) (k : Nat) (q : Queue) : State :=
  let s' := { s with queues := tset s.queues k { q with dbRef := inc48 q.dbRef 1, refAt := some (msecs s) } }
  if q.refAt = some (msecs s) then s' else evT s' q.tenant 0x0304 q.lq 0 0

/-- ARM of an accepted doorbell (03 R64). -/
def armQueue (s : State) (k : Nat) (arm : Bool) : State :=
  if arm then checkIrq { s with queues := tmod s.queues k (fun q => { q with armed := true }) } k else s

/-- A doorbell of queue `k`, a ring or an event queue, with INDEX `i`. -/
def ringBell (s : State) (k : Nat) (q : Queue) (c : QCtx) (i : Nat) (arm : Bool) : State :=
  let m := 2 ^ (c.ringLog + 1)
  let last := if q.typ = 5 then q.pi else q.ci
  let d := (i + m - last) % m
  if m ≤ i then refuseDoorbell s k q
  else if d = 0 then armQueue s k arm
  else if q.typ = 5 then
    if occ q c + d ≤ 2 ^ c.ringLog then
      armQueue { s with queues := tset s.queues k { q with pi := i, produced := inc48 q.produced d } } k arm
    else refuseDoorbell s k q
  else if d ≤ occ q c then
    let s := armQueue { s with queues := tset s.queues k { q with ci := i, consumed := inc48 q.consumed d } } k arm
    if q.typ = 7 ∧ q.lq = 0 then drain (fnOf q.tenant) ((tgetD s.fns (fnOf q.tenant) {}).held.length + 1) s else s
  else refuseDoorbell s k q

/-- The ring or event queue whose doorbell slot lies at BAR2 offset `off` of function `fn`: Q for PF0, LQ for a VF. -/
def bellSlot (s : State) (fn off : Nat) : Option (Nat × Queue × QCtx) :=
  match (if fn = 0 then some (off / 8) else findQ s (fn - 1) (off / 8)) with
  | none => none
  | some k =>
    match tget s.queues k with
    | none => none
    | some q => if q.typ ≤ 4 ∨ q.destroy then none else q.context.map (fun c => (k, q, c))

/-- The last accepted INDEX of a doorbell slot, which a read returns; 0 where there is none. -/
def bellIndex (s : State) (fn off : Nat) : Nat :=
  match bellSlot s fn off with
  | some (_, q, _) => if q.typ = 5 then q.pi else q.ci
  | none => 0

/-- A write to a doorbell slot of function `fn` at BAR2 offset `off`. -/
def doorbell (fn off size v : Nat) (s : State) : State :=
  if size ≠ 8 ∨ off % 8 ≠ 0 then stray s fn
  else
    match bellSlot s fn off with
    | none => stray s fn
    | some (k, q, c) => if bits v 31 21 ≠ 0 then refuseDoorbell s k q else ringBell s k q c (bits v 20 0) (bit v 32)

/-- Whether a write that reaches a doorbell slot sets its reserved bits [63:33], which read 0 (20 R375). -/
def bellRv (s : State) (fn off size v : Nat) : Bool := size == 8 && off % 8 == 0 && (bellSlot s fn off).isSome && bits v 63 33 != 0

/-- A queue doorbell; it is a wake event (19 R368). -/
def execQueueDoorbell (fn off size : Nat) (val : BitVec 64) (s : State) : Host.Outcome State Fault Refusal :=
  if bellRv s fn off size val.toNat then .fault (.reservedTestControl off)
  else runBase s (fun s => wake (doorbell fn off size val.toNat s))

/-- The oldest unsignalled entry of queue `q` has waited COAL_TIME (03 R64). -/
def coalExpired (k : Nat) (s : State) : State :=
  match tget s.queues k with
  | none => s
  | some q =>
    match running q with
    | none => s
    | some c =>
      if c.coalTime ≠ 0 ∧ q.unsig ≠ 0 then checkIrq { s with queues := tset s.queues k { q with timeUp := true } } k else s

def execCoalTimeExpiry (q : Nat) (s : State) : Host.Outcome State Fault Refusal := runBase s (coalExpired q)

/-! ### Function-level and host-port resets (02 R38, 03 R67, 19 R370) -/

/-- The mailbox of a function after its reset: rings empty, registers at reset. Commands already taken still complete, and
their answers are discarded (02 R38), that of a command in execution too. -/
def resetMailbox (s : State) (mb : Nat) : State :=
  let s := { s with mbx := tset s.mbx mb { taken := (mbox s mb).taken.map (fun (c : Taken) => { c with quiet := true }) } }
  { s with ctl := { s.ctl with
    pend := s.ctl.pend.map (fun (p : PendCmd) => if p.mb = mb then { p with mute := true } else p)
    inFlight := s.ctl.inFlight.map (fun (f : InFlight) => if f.mb = mb then { f with cmd := { f.cmd with quiet := true } } else f) } }

/-- The host rings and event queues of tenant `t` are destroyed and their quota is returned (03 R67); crosspoints fed by a ring
go as with queue.destroy (06 R151). -/
def dropRings (s : State) (t : Nat) : State :=
  let s := if thas s.tenants t then closeInput s t (fun r => r.kind == 2) else s
  (s.queues.filter (fun p => p.2.tenant == t && decide (5 ≤ p.2.typ))).foldl (fun s p => dropQueue s p.1) s

/-- A function-level reset of VF `n`. (DEDUCED, log entry 19.) -/
def vfFlr (n : Nat) (s : State) : State :=
  if n = 0 ∨ 512 < n then s
  else
    let s := dropRings (resetMailbox s n) (n - 1)
    modFn s n (fun f => { f with vecs := [], held := [], latch := [] })

def execVfFlr (n : Nat) (s : State) : Host.Outcome State Fault Refusal := runBase s (vfFlr n)

/-- A host-port reset: every function, ring and MSI-X table; tenants, bindings and audio stay (19 R370). -/
def hostPortReset (s : State) : State :=
  let s := (s.mbx.filter (fun p => decide (p.1 ≤ 512))).foldl (fun s p => resetMailbox s p.1) s
  let s := { s with ctl := { s.ctl with pend := s.ctl.pend.map (fun (p : PendCmd) => if p.mb ≤ 512 then { p with mute := true } else p), hostUp := false } }
  let s := s.tenants.foldl (fun s p => dropRings s p.1) s
  let s := (s.queues.filter (fun p => decide (5 ≤ p.2.typ))).foldl (fun s p => dropQueue s p.1) s
  { s with fns := [] }

end Sys2Proof.Machine
end

