-- ==== Sys2Proof/Machine/Boot.lean ====
section
/-! DEFINITION. Chapters 19, 23 and 02: reset sources, reset release, secure boot and readiness. -/
namespace Sys2Proof.Machine

/-! ### Resets (19 R370) -/

/-- What of the repair list the boot ROM applies to the gating settings: a replaced part off, its spare in service (18 R359). -/
def repairSettings (s : State) : Tbl Nat :=
  let two := fun (t : Tbl Nat) (rep : Option Nat) (base spare : Nat) => match rep with | some b => tset (tset t (base + b) 0) spare 2 | none => t
  s.tarn.spares.foldl (fun t e => tset (tset t (17 * e.1 + e.2) 0) (17 * e.1 + 16) 2) (two (two [] s.health.eddyRep 289 301) s.health.poolRep 302 310)

/-- Lakebed content and what the repair list tells. -/
def keptHealth (h : Health) : Health :=
  { ({} : Health) with
    eddyRep := h.eddyRep, poolRep := h.poolRep, eddyDead := h.eddyDead, poolDead := h.poolDead, rowsUsed := h.rowsUsed, repair := h.repair
    lkbSpares := h.lkbSpares, blocks := h.blocks, mapA := h.mapA, mapB := h.mapB, mapped := h.mapped, exhausted := h.exhausted, store := h.store, tokens := h.tokens
    log := h.log, logNext := h.logNext, logSec := h.logSec, config := h.config, resume := h.resume }

/-- The straps take effect: the gating mode, and the role of a device of a pair; TWIN_ID 11 halts the boot (16 R315). (DEDUCED, log entry 86.) -/
def applyStraps (v : Nat) (s : State) : State :=
  let s := modClk { s with dev := { s.dev with straps := v } } (fun c => { c with auto := bit v 2 })
  if twinId s = 0 then s else if twinId s = 3 then { s with dev := { s.dev with bootHalt := true }, ctl := { s.ctl with stage := 15 } } else tripSet s .role 1

/-- Everything is reset but the backup domain, Lakebed content, fuses, what lies outside the device, and the levels on its pins; `cause`
is the bit of DEV_RST_CAUSE. -/
def resetDevice (cause : Nat) (s : State) : State :=
  let r := State.reset
  { r with
    pending := s.pending, free := s.free, mere := s.mere, grid := s.grid, out := s.out, evs := [], host := s.host, cal := s.cal
    ctl := { r.ctl with slots := s.ctl.slots, preferred := s.ctl.preferred, rollback := s.ctl.rollback }
    clk := { r.clk with settings := repairSettings s }
    health := keptHealth s.health
    tarn := { r.tarn with spares := s.tarn.spares, failed := s.tarn.failed }
    twin := { r.twin with peerOe := s.twin.peerOe }
    gpio := { r.gpio with inp := s.gpio.inp }
    i2c := tmap s.i2c (fun _ p => { ({} : I2cPort) with sda := p.sda, scl := p.scl })
    eddyBanks := s.eddyBanks, poolBanks := s.poolBanks
    dev := { r.dev with rstCause := 2 ^ cause, held := s.dev.held, thermal := s.dev.thermal, tripped := s.dev.tripped } }

/-- A reset that a pin or a supply holds until RESET_RELEASE. -/
def holdReset (cause : Nat) (s : State) : State :=
  let s := resetDevice cause s
  { s with dev := { s.dev with held := true } }

/-- A reset that starts over by itself, under the straps sampled before. -/
def restart (cause : Nat) (s : State) : State := applyStraps s.dev.straps (resetDevice cause s)

def execPowerOnReset (s : State) : Host.Outcome State Fault Refusal := run s (holdReset 0)
def execResetNLow (s : State) : Host.Outcome State Fault Refusal := run s (holdReset 1)

/-- A monitored supply, numbered in the order of 23 R413, is below its threshold; the loss of another rail resets nothing. -/
def execSupplyDrop (rail : Nat) (s : State) : Host.Outcome State Fault Refusal := run s (fun s => if rail < 6 then holdReset 0 s else s)

/-- A sensor reaches T_TRIP: a power-on reset, held until every sensor reads below 100 °C (23 R419). -/
def thermalTrip (s : State) : State :=
  let s := holdReset 0 s
  { s with dev := { s.dev with thermal := true, tripped := true } }

def execThermalTrip (sensor : Nat) (s : State) : Host.Outcome State Fault Refusal := run s (fun s => let _ := sensor; thermalTrip s)
def execThermalClear (s : State) : Host.Outcome State Fault Refusal := run s (fun s => { s with dev := { s.dev with thermal := false } })

/-- Backup power is lost: the calendar is at 2000-01-01 with VALID clear (13 R282), and DEV_RST_CAUSE.POR sets. -/
def execBackupPowerLoss (s : State) : Host.Outcome State Fault Refusal :=
  run s (fun s => { s with cal := {}, dev := { s.dev with rstCause := setBit s.dev.rstCause 0 true } })

/-- Reset release: the straps are sampled (23 R410, R411). -/
def resetRelease (v : Nat) (s : State) : State :=
  if !s.dev.held ∨ s.dev.thermal then s else applyStraps v { s with dev := { s.dev with held := false } }

def execResetRelease (straps : BitVec 9) (s : State) : Host.Outcome State Fault Refusal := run s (resetRelease straps.toNat)

/-- The bit of DEV_RST_CAUSE of a host-port reset. -/
def hostReset (cause : Nat) (s : State) : State :=
  let s := hostPortReset s
  { s with dev := { s.dev with rstCause := setBit s.dev.rstCause cause true } }

/-- PERST_N, a hot reset or link-down, as PERST_SEL says. -/
def execPerst (s : State) : Host.Outcome State Fault Refusal :=
  run s (fun s => if bit s.dev.straps 7 then restart 3 s else hostReset 3 s)
def execPfFlr (s : State) : Host.Outcome State Fault Refusal := runBase s (hostReset 4)

/-- device.reset: the device resets 1 ms after the response. -/
def cmdDeviceReset : Cmd :=
  { opcode := 0x0102, issuer := 'P', scope := 'D', plan := fun _ _ => change [] [] (fun s => { s with dev := { s.dev with resetDue := true } }) }

def execDeviceReset (r : Req) (s : State) : Host.Outcome State Fault Refusal := runCmd cmdDeviceReset r s

def execResetAfterResponse (s : State) : Host.Outcome State Fault Refusal := runBase s (fun s => if s.dev.resetDue then restart 2 s else s)

/-! ### Boot (02 R41 to R43) -/

/-- The image of slot `k` starts. -/
def startSlot (k : Nat) (s : State) : State :=
  let im := tgetD s.ctl.slots k {}
  { s with ctl := { s.ctl with stage := 3, source := 0, slot := k, trial := false, svn := im.svn, version := im.version } }

/-- The last failed check is kept. -/
def bootFail (s : State) (code : Nat) : State := { s with ctl := { s.ctl with failCode := code } }

/-- The ROM waits for an image from source `src`. -/
def romWait (s : State) (src : Nat) : State := { s with ctl := { s.ctl with stage := 1, source := src } }

/-- Lakebed boot: the preferred slot, then the other. -/
def lakebedBoot (s : State) : State :=
  let a := s.ctl.preferred
  if slotCheck s a = 0 then startSlot a s
  else
    let s := bootFail s (slotCheck s a)
    if slotCheck s (1 - a) = 0 then startSlot (1 - a) s
    else
      let s := bootFail s (slotCheck s (1 - a))
      if bootSel s = 3 then romWait s 1 else { s with ctl := { s.ctl with stage := 15 }, dev := { s.dev with bootHalt := true } }

/-- The boot ROM takes an image from the boot source: a Lakebed slot, or `img` as the manager sends it over Causeway (17 R336). A host
loads its image by firmware.load and firmware.activate. (DESIGN CHOICE, log entry 57.) -/
def secureBoot (img : List Byte) (s : State) : State :=
  if !s.clk.started ∨ s.dev.held ∨ s.dev.bootHalt then s
  else if s.ctl.stage = 0 ∧ bootSel s % 3 = 0 then lakebedBoot s
  else if s.ctl.stage = 0 ∧ bootSel s = 1 then romWait s 1
  else if bootSel s = 2 ∧ (s.ctl.stage = 0 ∨ s.ctl.stage = 1) then
    if img.isEmpty then romWait s 2
    else if imageCheck s img ≠ 0 then bootFail (romWait s 2) (imageCheck s img)
    else { s with ctl := { s.ctl with
      stage := 3, source := 2, trial := false, svn := (Config.imgSvn img).toNat, version := (Config.imgVersion img).toNat } }
  else s

def execSecureBoot (image : List Byte) (s : State) : Host.Outcome State Fault Refusal := run s (secureBoot image)

/-- Readiness (19 R372): the device opens to every partner at once, and what could not be reported before is reported (14 R293, 23
R419). After a host-port reset it makes the functions ready again (R370). -/
def readiness (s : State) : State :=
  if s.ctl.stage = 4 then { s with ctl := { s.ctl with hostUp := true } }
  else if s.ctl.stage ≠ 3 ∨ s.dev.safe then s
  else
    let s := emit (modTwin { s with ctl := { s.ctl with stage := 4, hostUp := true } } (fun w => { w with leaseAt := some s.mere })) .pcieReady
    let s := s.clk.report.foldl (fun s k => evD s 0xD11 k 0 0) s
    let s := modClk s (fun c => { c with report := [] })
    if s.dev.tripped then faultLog { s with dev := { s.dev with tripped := false } } .thermal else s

end Sys2Proof.Machine
end

