-- ==== Sys2Proof/Machine/LpFrame.lean ====
section
/-! DEFINITION. Chapter 12: the pin frame of a local port, its captured and driven samples, and the port's part of a tenant frame. -/
namespace Sys2Proof.Machine

/-! ### Free samples -/

/-- `n` instants of `w` free samples (log entry 1). -/
def drawFrame (w : Nat) : Nat → State → List (List F32) × State
  | 0, s => ([], s)
  | n + 1, s =>
    let (x, s) := (List.range w).foldl (fun (y : List F32 × State) _ => let (v, s) := drawF y.2; (y.1 ++ [v], s)) ([], s)
    let (xs, s) := drawFrame w n s
    (x :: xs, s)

/-! ### The conversion of a port (12 R258 to R260) -/

/-- 60 ns, t_LF_EARLY, in units of 2^-56 sample of a tenant. -/
def lfEarly (x : Tenant) : Nat := 72 * x.mclk.inc

/-- RATE_TB of a tenant. -/
def rateBase (s : State) (x : Tenant) : TimeBase := tb s x.mclk.bind.rateTb

/-- The position that R121 demands of the input of port `l` for the instant at RATE_TB time `t`: a pin frame is presented at the stamp of the
edge that ends it (12 R258). -/
def lpGoal (l : LpPort) (fs mode t : Nat) : Int :=
  match l.edge with
  | none => 0
  | some (p, at_) => ((p * 2 ^ 44 : Nat) : Int) + divEvenI ((tdiff t at_ - eddyDelay mode) * (fs * l.est.r : Nat)) (65536 * 1000000000)

/-- The ratio of an output, m / r times the tenant rate over the port's, 44 fraction bits (05 R116, R118). -/
def outRatio (b : TimeBase) (m : MClk) (fs r : Nat) : Nat := if fs * r * b.inc = 0 then 0 else divEven (m.inc * 1000000000 * 2 ^ 88) (fs * r * 256 * b.inc)

/-- The tenant signal that an output sends in the pin frame that begins at accumulator `acc`: what is released one pin frame and D_E before
(12 R258, R260). -/
def outGoal (b : TimeBase) (x : Tenant) (ratio mode acc : Nat) : Int :=
  let lag := if b.inc = 0 then 0 else divEvenI (eddyDelay mode * 2 ^ 32 * x.mclk.inc : Nat) b.inc
  divEvenI ((acc : Int) - lag) (2 ^ 12) - ratio - ((3 * x.n / 2 + 1) * 2 ^ 44 : Nat)

/-- The conversion of the output of a port: it has the mode, and makes the mode switch, of the port. -/
def LpPort.outPath (l : LpPort) : Conv := { l.outc with mode := l.conv.mode, switch := l.conv.switch }

/-- The paths of a conversion at a boundary, or when it starts, with the positions `goal` demands. -/
def Conv.aimPaths (cv : Conv) (goal : Nat → Int) (ratio f fsIn fsOut tc : Nat) : Conv :=
  let cv := if cv.mode = 2 then cv else cv.aim (goal cv.mode) ratio f fsIn fsOut tc
  match cv.switch with
  | some w => if cv.both && w.mode != 2 then cv.aim2 (goal w.mode) ratio f fsOut tc else cv
  | none => cv

/-- Local port `k` at the boundary that begins a frame: the ratios and corrections of its input and its output (05 R116, R122). The position
of an output is compared at its last edge. -/
def lpAim (k : Nat) (s : State) : State :=
  let l := lp s k
  let x := tenant s l.owner
  let b := rateBase s x
  let fs := rateHz (lpRate k l.cfg)
  let t0 := instantTime b x.mclk (x.frame * x.n + x.skip)
  let ratio := outRatio b x.mclk fs l.est.r
  let conv := if l.state = 3 ∧ l.edge.isSome ∧ 0 < lpIns k l.cfg then
      l.conv.aimPaths (fun m => lpGoal l fs m t0) (ratioOf b x.mclk fs l.est.r) (fixedRatio fs x.fs) fs x.fs l.est.phaseTc
    else l.conv
  let outc := match l.outAcc with
    | some a => l.outPath.aimPaths (fun m => outGoal b x ratio m a + ratio) ratio (fixedRatio x.fs fs) x.fs fs l.est.phaseTc
    | none => l.outc
  modLp s k (fun l => { l with conv := conv, outc := outc })

/-! ### The tenant frame of an input (12 R253, R254, R258, R259) -/

/-- A lock-follow slip is counted; more than 10 in a minute raise LP_CLOCK with AUX 4, once (12 R259). -/
def lpSlip (s : State) (k : Nat) (drop : Bool) : State :=
  let s := lpInt (lpCount s k (if drop then 4 else 5) 1) k 4
  let now := secs s / 60
  let l := lp s k
  let n := if l.minute = now then l.minSlips + 1 else 1
  let s := modLp s k (fun l => { l with minute := now, minSlips := n })
  if n = 11 then lpEv s k 0x823 4 else s

/-- The pin frames a lock-follow path that starts at instant `c` begins with: from the latest one due by then. -/
def followFrom (early c : Nat) (xs : List (Nat × Nat × Inst)) : List (Nat × Nat × Inst) :=
  xs.drop ((xs.filter (fun e => decide (e.2.1 ≤ c * 2 ^ 56 + early))).length - 1)

/-- The `n` instants from `c` on of the lock-follow path of an input, with at most one slip of its own, and how many precede its first
(12 R259). A path that a mode switch brings in starts with the frame (05 R126). -/
def lpFollow (k c n w : Nat) (s : State) : List Inst × Nat × State :=
  let l := lp s k
  let x := tenant s l.owner
  let starts := l.conv.mode != 2 && l.inNext.isNone
  let fifo := if starts then followFrom (lfEarly x) c l.fifo else l.fifo
  match (if starts then some c else l.inNext) with
  | none => (zeroInsts n w, n, s)
  | some p =>
    let lead := min n (p - c)
    let need := n - lead
    let hold : Int := match fifo.head? with | some f => ((c * 2 ^ 56 : Nat) : Int) - (f.2.1 : Int) | none => 0
    let xs := fifo.map (·.2.2)
    let own := lead == 0 && !starts && !l.conv.slipping
    let drop := own && decide ((2 ^ 56 : Int) < hold)
    let rept := own && decide (hold < -(lfEarly x : Int))
    let at_ := slipPlace (fun i => (xs.getD i default).lost) (xs.map (·.data)) n
    let used := if drop then need + 1 else if rept then need - 1 else need
    let ys := if drop then dropAt at_ (xs.take used) else if rept then repeatAt at_ (xs.take used) else xs.take need
    let s := modLp s k (fun l => { l with fifo := fifo.drop used, inNext := some (c + lead + need) })
    let s := if drop || rept then lpSlip s k drop else s
    (zeroInsts lead w ++ ys ++ zeroInsts (need - ys.length) w, lead, s)

/-- The `n` instants from `c` on of an Eddy path of an input, with the position and the realignment after them, and how many precede the
first pin frame of data. -/
def lpConvert (l : LpPort) (x : Tenant) (b : TimeBase) (e : EddyPath) (pos : Option Nat) (rho fade c n : Nat) : List Inst × Option Nat × Nat × Nat :=
  match pos with
  | none => (zeroInsts n e.width, none, fade, n)
  | some p =>
    let (ys, q, f) := eddyRun e l.conv.past (fun i => lpGoal l e.fsIn e.mode (instantTime b x.mclk (c + i))) rho n 0 p fade
    let first := (l.conv.past.getLast?.map (·.pos)).getD 0 * 2 ^ 44
    (ys, some q.toNat, f, ((List.range n).filter (fun i => decide (p + i * rho < first))).length)

/-- The instants after a port has stopped: the last values, faded out over 16. -/
def lpFaded (l : LpPort) (n w : Nat) : List (List F32) :=
  (List.range n).map (fun i => (List.range w).map (fun j => if l.fadeOut + i + 1 < 16 then fScale (l.last.getD j 0) (15 - l.fadeOut - i) 16 else 0))

/-- What local input `k` gives Pool for the frame of `n` instants from instant `c` on. -/
def lpInputFrame (k c n : Nat) (s : State) : State :=
  let l := lp s k
  let w := lpIns k l.cfg
  if w = 0 then s
  else if l.state = 3 then
    let x := tenant s l.owner
    let b := rateBase s x
    let cv := l.conv
    let v := cv.switch.getD default
    let path := fun (m : Nat) => (⟨m, rateHz (lpRate k l.cfg), x.fs, x.fs, w⟩ : EddyPath)
    let starts := cv.both && v.left == 0
    let due := followFrom (lfEarly x) c l.fifo
    let (f, flead, s) := if cv.follows then lpFollow k c n w s else ([], 0, s)
    let (a, pos, fade, lead) := if cv.mode = 2 then (f, cv.pos, cv.fade, flead) else lpConvert l x b (path cv.mode) cv.pos cv.rho cv.fade c n
    let (y, pos2, _, _) := if !cv.both then ([], cv.pos2, 0, 0) else if v.mode = 2 then (f, none, 0, 0) else lpConvert l x b (path v.mode) cv.pos2 cv.rho2 0 c n
    let pre := if !starts then []
      else if v.mode = 2 then (let h := (due.head?.map (·.1)).getD 0; (range (h - v.slips) h).map (pastInst cv.past w))
      else eddyBefore (path v.mode) cv.past (cv.pos2.getD 0) cv.rho2 v.slips
    let (out, cv) := { cv with pos := pos, fade := fade, pos2 := pos2 }.sound n a y pre
    let xs := out.mapIdx (fun i (z : Inst) => if l.fadeIn + i < 16 + lead then z.data.map (fun v => fScale v (l.fadeIn + i + 1 - lead) 16) else z.data)
    modLp s k (fun l => { l with out := xs, fadeIn := min 16 (l.fadeIn + n - lead), last := xs.getLast?.getD [], conv := cv })
  else modLp s k (fun l => { l with out := lpFaded l n w, fadeOut := min 16 (l.fadeOut + n) })

/-! ### The tenant frame of an output (12 R259, R260) -/

/-- The sample instant that lock-follow output `k` sends at a media-clock accumulator `acc`, if its sequence starts there. -/
def lpOutStart (x : Tenant) (acc : Nat) : Nat := (acc + lfEarly x - (3 * x.n / 2 + 1) * 2 ^ 56) / 2 ^ 56

/-- The tenant instant that an output reads next, before the delay a mode switch adds. -/
def LpPort.outAt (l : LpPort) : Nat := if l.conv.mode = 2 then l.outPos.getD 0 else l.outc.pos.getD 0 / 2 ^ 44

/-- At the boundary that ends frame `m` an output keeps its source's frame. -/
def lpOutputFrame (k m : Nat) (s : State) : State :=
  let l := lp s k
  let x := tenant s l.owner
  if lpOuts k l.cfg = 0 then s
  else
    let new := (sourceFrame s l.owner (lpSource k l.cfg)).mapIdx (fun i y => (⟨m * x.n + x.skip + i, false, y⟩ : Past))
    modLp s k (fun l => { l with outc := { l.outc with past := keepPast new l.outc.past } })

/-- A slip of an output: of lock-follow its position moves on or back by an instant; a mode switch makes its delay shorter or longer. -/
def LpPort.slips (l : LpPort) (drop : Bool) : LpPort :=
  if l.conv.slipping then { l with outSlip := none, delay := if drop then l.delay - 1 else l.delay + 1 }
  else { l with outSlip := none, outPos := l.outPos.map (fun p => if drop then p + 1 else p - 1) }

/-- At a boundary an output decides on at most one slip within the frame: that of a mode switch, else its own in lock-follow. One that no pin
frame has reached is made. -/
def lpOutSlip (k : Nat) (s : State) : State :=
  let l := lp s k
  let x := tenant s l.owner
  let w := lpOuts k l.cfg
  if l.outAcc.isNone ∨ w = 0 then s
  else
    let l := match l.outSlip with | some (_, drop) => l.slips drop | none => l
    let h := l.outAt - l.delay
    let at_ := slipPlace (fun _ => false) ((List.range x.n).map (fun i => (pastInst l.outc.past w (h + i)).data)) x.n
    if l.conv.slipping then modLp s k (fun _ => { l with outSlip := some (h + at_, (l.conv.switch.map (·.phase)) == some 3) })
    else
      let drop := decide ((2 ^ 56 : Int) < l.outWait)
      if l.conv.mode = 2 ∧ l.conv.switch.isNone ∧ (drop || decide (l.outWait < -(lfEarly x : Int))) then
        lpSlip (modLp s k (fun _ => { l with outSlip := some (h + at_, drop) })) k drop
      else modLp s k (fun _ => l)

/-- The samples of the pin frame that begins now, and the output after it (12 R258 to R261). A legacy output has no SOURCE: its samples are
free (log entry 1). -/
def lpOutNow (k : Nat) (s : State) : List F32 × State :=
  let l := lp s k
  let x := tenant s l.owner
  let w := lpOuts k l.cfg
  if w = 0 then ([], s)
  else if l.legacy then let (xs, s) := drawFrame w 1 s; (xs.headD [], s)
  else
    let b := rateBase s x
    let fs := rateHz (lpRate k l.cfg)
    let acc := x.accNear
    let ratio := outRatio b x.mclk fs l.est.r
    let goal := fun (m : Nat) => outGoal b x ratio m acc
    let cv := if l.outAcc.isNone then l.outPath.aimPaths goal ratio (fixedRatio x.fs fs) x.fs fs l.est.phaseTc else l.outPath
    let v := cv.switch.getD default
    let follows := cv.follows
    let l := { l with outc := cv, outPos := if follows then l.outPos.or (some (lpOutStart x acc)) else none }
    let l := match l.outSlip with | some (q, drop) => if q ≤ l.outAt - l.delay then l.slips drop else l | none => l
    let p := l.outPos.getD 0
    let path : Nat → Option Nat → Nat → Nat → Nat → List Inst × Option Nat × Nat := fun m pos rho fade delay =>
      if m = 2 then ([pastInst cv.past w (p - delay)], pos, fade)
      else
        let d : Int := (delay * 2 ^ 44 : Nat)
        let q : Int := (pos.map Int.ofNat).getD (goal m)
        let (ys, q', f) := eddyRun ⟨m, x.fs, fs, x.fs, w⟩ cv.past (fun i => goal m + (i * rho : Nat) - d) rho 1 0 (q - d) fade
        (ys, some (q' + d).toNat, f)
    let (ys, pos, fade) := path cv.mode cv.pos cv.rho cv.fade l.delay
    let (zs, pos2, _) := if cv.both then path v.mode cv.pos2 cv.rho2 0 v.slips else ([], cv.pos2, 0)
    let out : List Inst := match cv.switch with
      | some v =>
        if v.live && v.phase == 2 && v.left != 0 then crossfade v.xfade (v.left - min v.left (elapsed x)) ys zs
        else if v.live && v.phase == 4 then ys.map (fun (y : Inst) => { y with data := y.data.map (fun u => fScale u (v.left - (elapsed x + 1)) 16) })
        else ys
      | none => ys
    let wait : Int := (acc : Int) - ((p + 3 * x.n / 2 + 1) * 2 ^ 56 : Nat)
    (((out.head?.map (·.data)).getD []), modLp s k (fun _ => { l with
      outAcc := some acc, outWait := if follows then wait else 0, outPos := if follows then some (p + 1) else none
      outc := { cv with pos := pos, fade := fade, pos2 := pos2, switch := none } }))

/-! ### The pin frame -/

/-- The data word of a sample: its value in the low `n` bits. -/
def pinWord (x : F32) (n : Nat) : BitVec 32 := BitVec.ofNat 32 (toBits n (toScaled x n).1)

/-- The slots of a mask in order. -/
def slotsOf (m : Nat) : List Nat := (List.range 32).filter (bit m)

/-- The pattern of a proof slot (16 R331): frames are counted as the tenant's. -/
def proofWord (s : State) (k : Nat) : BitVec 32 :=
  let w := fld (lp s k).cfg 3 1
  BitVec.ofNat 32 ((if (tenant s (lp s k).tenant).frame % 2 = 0 then 0x55555555 else 0xAAAAAAAA) / 2 ^ (32 - min 32 w))

/-- The place of a slot in a frame: whether it is counted from the opposite FS edge, and its first BCLK period from there (12 R249). -/
def saiPlace (c : List Byte) (j : Nat) : Bool × Nat :=
  if fld c 1 1 = 2 then (false, fld c 5 1 + j * fld c 3 1) else (decide (j = 1), (if fld c 1 1 = 0 then 1 else 0) + fld c 5 1)

/-- The low `n` bits of a word, most significant first; and the word of such bits. -/
def msbFirst (n w : Nat) : List Bool := (List.range n).map (fun i => bit w (n - 1 - i))
def ofMsb (bs : List Bool) : Nat := bs.foldl (fun a b => 2 * a + b2n b) 0

/-- A slot sent: DATA_WIDTH bits of a word, most significant first, then zeros (12 R249). -/
def saiOut (c : List Byte) (j : Nat) (w : BitVec 32) : PinSlot :=
  { opposite := (saiPlace c j).1, start := (saiPlace c j).2, bits := msbFirst (fld c 4 1) w.toNat ++ List.replicate (fld c 3 1 - fld c 4 1) false }

/-- The data word of a slot captured: the bits beyond DATA_WIDTH are ignored (12 R249). -/
def saiIn (c : List Byte) (f : PinFrame) (j : Nat) : Nat :=
  let (opp, p) := saiPlace c j
  let bs := if opp then f.din2 else f.din
  ofMsb ((List.range (fld c 4 1)).map (fun i => bs.getD (p + i) false))

/-- What a port drives in the pin frame that begins now (12 R251, R252, R262, R266; 16 R331). An output that carries no data starts its
sequence anew. -/
def lpEmit (k : Nat) (s : State) : State :=
  let l := lp s k
  let c := l.cfg
  if isAesIn k || c.isEmpty then s
  else
    let data := l.state == 3 || (l.state == 2 && decide (lpUnmute k c ≤ l.cnt))
    let (xs, s) := if data then lpOutNow k s
      else (zeroInstant (lpOuts k c), modLp s k (fun l => { l with
        outPos := none, outSlip := none, outAcc := none, delay := 0, outc := { l.outc with pos := none, pos2 := none, fade := 0, realign := false } }))
    let n := lpWidth k c
    let owned := if isSai k then slotsOf (fld c 16 4) else [0, 1]
    let words := owned.mapIdx (fun i _ => pinWord (xs.getD i 0) n)
    let cs := fun (b : List Byte) => bit (fld b (l.zPos / 8) 1) (l.zPos % 8)
    let s := modLp s k (fun l => { l with sent := words, before := l.sent, proof := proofWord s k })
    let proof := tgetD s.twin.proof k 0xFF
    if lpLine s k = 2 then
      if isAesOut k then emit s (.aesFrame k (l.zPos == 0) (!l.settled) words [false, false] [cs l.outCsA, cs l.outCsB])
      else emit s (.saiFrame k (!lpShared k c) (List.zipWith (saiOut c) owned words))
    else if role s = 3 ∧ lpShared k c ∧ proof < fld c 2 1 ∧ l.state = 3 ∧ !s.dev.safe ∧ tripGet s (.lpTxEn k) ≠ 0 then
      emit s (.saiFrame k false [{ opposite := false, start := (saiPlace c proof).2, bits := msbFirst (fld c 3 1) (proofWord s k).toNat }])
    else s

/-- What a subframe of an AES3 input leaves behind: its sample, the value presented, the channel's last sample and last value presented, and
its gap. -/
structure Subframe where
  out   : F32
  prev  : F32
  shown : F32
  gap   : Nat

/-- One subframe of an AES3 input: a parity failure repeats the previous sample `prev`; with VAL_MUTE an invalid one is concealed as in mode
0 of 04 R96, from the value `shown` last, and the 16 samples after it fade in (12 R264). `g` counts: concealed samples, or 1,000 and the
samples faded in. -/
def aesSubframe (flags : Nat) (parityBad invalid : Bool) (v prev shown : F32) (g : Nat) : Subframe :=
  let x := if parityBad then prev else v
  if invalid && bit flags 0 then
    let i := if g < 1000 then g + 1 else 1
    ⟨if i < 16 then fScale shown (16 - i) 16 else 0, x, shown, min i 999⟩
  else if g = 0 then ⟨x, x, x, 0⟩
  else
    let j := if g < 1000 then 1 else g - 1000 + 1
    let y := if j < 16 then fScale x j 16 else x
    ⟨y, x, y, if 16 ≤ j then 0 else 1000 + j⟩

/-- Whether an input's subframe is concealed. -/
def aesMuted (k : Nat) (c : List Byte) (f : PinFrame) : Bool := isAesIn k && bit (fld c 3 1) 0 && (f.validity.take 2).any id

/-- The channels of a captured pin frame. Every subframe of a locked AES3 input is checked (12 R264). -/
def lpCapture (k : Nat) (f : PinFrame) (s : State) : Inst × State :=
  let l := lp s k
  let n := lpWidth k l.cfg
  let raw := fun (w : Nat) => ofScaled (sext n w) (n - 1)
  if isSai k then (⟨false, (slotsOf (fld l.cfg 12 4)).map (fun j => raw (saiIn l.cfg f j))⟩, s)
  else if !(isAesIn k && l.clk) then (⟨false, []⟩, s)
  else
    let flags := fld l.cfg 3 1
    let r := (List.range 2).map (fun j =>
      let w := (f.words.getD j 0).toNat
      aesSubframe flags (f.parity.getD j false) (f.validity.getD j false) (raw (if bit flags 1 then w - w % 16 else w)) (l.words.getD j 0) (l.shown.getD j 0) (l.vGap.getD j 0))
    let s := lpCount (lpCount s k 7 ((f.parity.take 2).filter id).length) k 9 ((f.validity.take 2).filter id).length
    (⟨aesMuted k l.cfg f, r.map (·.out)⟩, modLp s k (fun l => { l with words := r.map (·.prev), shown := r.map (·.shown), vGap := r.map (·.gap) }))

/-- A data frame with the captured instant `y` ends: it is counted, its edge feeds the estimator, and an input's instant is presented and
waits for lock-follow with the accumulator at this edge (12 R258, R259). -/
def lpData (k : Nat) (y : Inst) (s : State) : State :=
  let s := lpCount s k 0 1
  let l := lp s k
  let x := tenant s l.owner
  let now := (rateBase s x).now
  let acc := x.accNear
  let s := modLp s k (fun l => { l with edge := some (l.frames, now), est := l.est.feed (rateHz (lpRate k l.cfg)) l.frames now })
  if lpIns k l.cfg = 0 then s
  else modLp s k (fun l =>
    let fifo := l.fifo ++ [(l.frames, acc, y)]
    { l with
      conv := { l.conv with past := keepPast [⟨l.frames, y.lost, y.data⟩] l.conv.past }
      fifo := if l.conv.follows then fifo else fifo.drop (fifo.length - 600)
      inNext := if l.conv.mode = 2 then l.inNext.or (some ((acc - lfEarly x + 2 ^ 56 - 1) / 2 ^ 56)) else l.inNext })

/-- Block synchronisation of an AES3 input, and the block position of an output (12 R263, R266). -/
def lpBlock (k : Nat) (f : PinFrame) (s : State) : State :=
  let l := lp s k
  if isAesIn k then
    if !l.clk then s
    else if f.zLead then
      if l.sync ∧ l.zPos % 192 ≠ 0 then lpCount (modLp s k (fun l => { l with sync := false, zPos := 0 })) k 10 1
      else modLp s k (fun l => { l with sync := true, zPos := 1 })
    else modLp s k (fun l => { l with zPos := l.zPos + 1 })
  else if isAesOut k then
    let z := (l.zPos + 1) % 192
    let pro := bit (fld l.cfg 3 1) 2
    let withCrcc := fun (cs : List Byte) => if pro then cs.take 23 ++ [crcc cs] else cs
    modLp s k (fun l => if z = 0 then { l with
      zPos := 0, outCsA := withCrcc (l.nextCsA.getD l.outCsA), outCsB := withCrcc (l.nextCsB.getD l.outCsB), nextCsA := none, nextCsB := none } else { l with zPos := z })
  else s

/-- The run of mismatching owned slots after one more; WATCH_N in a row stand for the rest of the frame (16 R327). -/
def missRun (n : Nat) (r : Nat × Bool) (same : Bool) : Nat × Bool :=
  if r.2 then r else if same then (0, false) else (r.1 + 1, decide (n ≤ r.1 + 1))

/-- Line watch of a standby, and the proof slot as the active device of a pair reads it (16 R327, R331). -/
def lpWatch (k : Nat) (f : PinFrame) (s : State) : State :=
  let l := lp s k
  if !lpShared k l.cfg ∨ l.state ≠ 3 then s
  else if role s = 3 then
    let r := (List.zip l.sent f.watched).foldl (fun r p => missRun s.twin.watchN r (p.1 == p.2)) (tgetD s.twin.misses k 0, false)
    modTwin s (fun w => { w with misses := tset w.misses k r.1 })
  else if role s = 2 ∧ s.twin.peerState = 3 ∧ thas s.twin.proof k ∧ f.proof ≠ l.proof then
    evD (modTwin s (fun w => { w with alarm := setBit w.alarm 3 true, proofErr := inc48 w.proofErr 1 })) 0xB07 k 0 (tgetD s.twin.proof k 0)
  else s

/-- What a claimant drives in the rest of the frame in progress on line `k`: from bit 1 of the takeover slot the channel's previous sample, in
the owned slots after it its own (16 R327). -/
def takeoverSlots (l : LpPort) (slot : Nat) : List PinSlot :=
  (List.zip (slotsOf (fld l.cfg 16 4)) (List.zip l.sent l.before)).filterMap (fun e =>
    let p := saiOut l.cfg e.1 (if e.1 = slot then e.2.2 else e.2.1)
    if e.1 < slot then none else if e.1 = slot then some { p with start := p.start + 1, bits := p.bits.drop 1 } else some p)

/-- A claim by line watch, with the takeover slot of the line that mismatched. -/
def lineWatchAt (k slot : Nat) (s : State) : State :=
  let t := lineWatch k s
  if role s = 3 ∧ role t = 2 ∧ lpShared k (lp t k).cfg ∧ lpLine t k = 2 then emit t (.saiFrame k false (takeoverSlots (lp t k) slot)) else t

def execLineWatchClaim (port slot : Nat) (s : State) : Host.Outcome State Fault Refusal := run s (lineWatchAt port slot)

/-- Whether a pin frame counts under 12 R253. An AES3 input starts to count at the first Z after lock; once it counts, the place of Z
is no clock fault (12 R263). -/
def lpGood (k : Nat) (l : LpPort) (f : PinFrame) : Bool :=
  if isSai k then f.classOk && decide (minFrame l.cfg ≤ f.bclks) else if isAesIn k then l.clk && f.classOk && (l.sync || l.state == 3 || decide (0 < l.cnt)) else l.settled

/-- The edge that ends pin frame `f` and begins the next (12 R252 to R255). (DESIGN CHOICE, log entry 87.) -/
def lpPinFrame (k : Nat) (f : PinFrame) (s : State) : State :=
  if 0x30 ≤ k then s
  else
    let s := modLp s k (fun l => { l with frames := l.frames + 1, bpf := if isSai k then f.bclks % 2048 else 0, clk := if isSai k then true else l.clk })
    let (y, s) := lpCapture k f (lpWatch k f (lpBlock k f s))
    let l := lp s k
    if l.cfg.isEmpty then s
    else
      let good := lpGood k l f
      let cause := if isSai k && f.classOk then 3 else 2
      let s :=
        if l.stopReq ∧ l.state ≠ 4 then modLp s k (fun l => { l with state := 4, cnt := 0, fadeOut := if l.state = 3 then 0 else 16 })
        else if l.state = 4 then (if lpUnmute k l.cfg ≤ l.cnt + 1 then lpStopped k false s else modLp s k (fun l => { l with cnt := l.cnt + 1 }))
        else if l.mid ∧ (l.state = 2 ∨ l.state = 6) then modLp s k (fun l => { l with mid := false })
        else if l.state = 2 then
          if !good then lpFault s k cause
          else if lpUnmute k l.cfg ≤ l.cnt then lpData k y (lpRun s k)
          else modLp s k (fun l => { l with cnt := l.cnt + 1 })
        else if l.state = 3 then (if good then lpData k y s else lpFault s k cause)
        else if l.state = 6 ∧ good then lpEv (modLp s k (fun l => { l with state := 2, cnt := 1 })) k 0x823 1
        else s
      lpEmit k s

def execLpPinFrame (code : Nat) (f : PinFrame) (s : State) : Host.Outcome State Fault Refusal := runMere s (lpPinFrame code f)

end Sys2Proof.Machine
end

