-- ==== Sys2Proof/Machine/Playout.lean ====
section
/-! DEFINITION. The playout of a receive stream for one tenant frame: its ratio at the boundary that begins the frame (05 R116, R122, R128),
conversion (R121), lock-follow with its slips (R123 to R125), and the steps of a mode switch (R126). -/
namespace Sys2Proof.Machine

/-! ### The boundary that begins a frame (05 R116, R122, R128) -/

/-- The rate r that a ratio taken over from a former active device stands for (05 R128). -/
def ratioRate (b : TimeBase) (m : MClk) (fs : Nat) (cv : Conv) : Int :=
  if fs * b.inc = 0 then 2 ^ 44 else divEvenI (((cv.rho : Int) - cv.corr) * (m.inc * 1000000000 : Nat)) (fs * 256 * b.inc)

/-- Stream `k` at the boundary that begins a frame: the ratio, correction and realignment that hold through it. A device that has taken over
keeps the last values for its first frame, and its estimator goes on from them. -/
def eddyAim (s : State) (k : Nat) : State :=
  match tget s.streams k with
  | none => s
  | some st =>
    let c := st.cfg
    let x := st.rx
    let t := tenant s st.tenant
    let b := tb s (cTb c)
    let est := if x.conv.taken && !follows s && cArrival c then x.est.start (ratioRate b t.mclk (cFs c) x.conv) else x.est
    let f := fixedRatio (cFs c) t.fs
    let ratio := ratioOf b t.mclk (cFs c) (streamRate c est.r)
    let t0 := instantIn (tb s t.mclk.bind.rateTb) b t.mclk (t.frame * t.n + t.skip)
    let aim := fun (cv : Conv) =>
      if !cv.converts then cv
      else if !(x.anchored && x.head.isSome) then { cv with rho := clampRatio f ratio, corr := 0, pos := none, pos2 := none }
      else
        let cv := if cv.mode = 2 then cv else cv.aim (demanded t.fs c x cv.mode t0) ratio f (cFs c) t.fs est.phaseTc
        match cv.switch with
        | some w => if cv.both && w.mode != 2 then cv.aim2 (demanded t.fs c x w.mode t0) ratio f t.fs est.phaseTc else cv
        | none => cv
    modStream s k (fun st => { st with rx := { st.rx with est := est, conv := aim x.conv } })

/-- The step a switch stands at: its phase, and 8 times its slips to come. -/
def stepOf (cv : Conv) : Nat := match cv.switch with | some w => if w.live then w.phase + 8 * w.slips else 0 | none => 0

/-- The standby takes the active device's ratio, correction, realignment and mode-switch step for the frame (05 R128). -/
def Conv.takeRatio (cv : Conv) (v : TwinStream) : Conv :=
  { cv with
    rho := v.rho, corr := v.corr, taken := true, realign := false, past := if v.wiped then [] else cv.past
    fade := if v.realign then 32 else if cv.fade = 32 then 0 else cv.fade
    realigns := if v.realign && cv.fade != 32 then inc48 cv.realigns 1 else cv.realigns
    switch := if v.step = 0 then cv.switch else cv.switch.map (fun w => { w with phase := v.step % 8, slips := v.step / 8, live := true }) }

/-- The receive streams of tenant `t`. -/
def rxStreamsOf (s : State) (t : Nat) : List Nat := (s.streams.filter (fun e => decide (e.1 < 65536) && e.2.tenant == t)).map (·.1)

/-- The standby takes the ratios of a frame. -/
def takeRatios (v : TwinVals) (s : State) : State :=
  v.streams.foldl (fun s e =>
    if ownsStream s v.tenant e.stream then modStream s e.stream (fun st => { st with rx := { st.rx with conv := st.rx.conv.takeRatio e } }) else s) s

/-- The ratios of every receive stream of tenant `t` for frame `m`, which begins; an active device sends its own to the standby. -/
def ratiosOpen (t m : Nat) (s : State) : State :=
  let s := (rxStreamsOf s t).foldl eddyAim s
  let s := match (tenant s t).ratios with
    | some v => if follows s && v.frame == m then takeRatios v s else s
    | none => s
  let s := modTenant s t (fun x => { x with ratios := x.ratios.filter (fun v => decide (m < v.frame)) })
  if role s ≠ 2 then s
  else
    let one := fun (k : Nat) => (tget s.streams k).map (fun st =>
      let cv := st.rx.conv
      ({ stream := k, rho := cv.rho, corr := cv.corr, slip := 0, slipAt := 0, realign := cv.fade == 32, step := stepOf cv, fill := [], data := [], wiped := cv.wiped } : TwinStream))
    let ports := s.lps.flatMap (fun e => if e.2.owner = t then (if e.2.conv.wiped then [(e.1, false)] else []) ++ (if e.2.outc.wiped then [(e.1, true)] else []) else [])
    emit s (.twinValues { tenant := t, frame := m, ahead := true, streams := (rxStreamsOf s t).filterMap one, rings := [], keys := [], shed := false, zeroed := [], overran := [], faults := [], acts := [], buses := [], queues := [], ports := ports, onTime := true })

/-! ### Lock-follow (05 R123, R124) -/

/-- The slip of a frame whose first instant is at `t` while position `h` is due at `pres`: a drop where the hold would exceed L, a repeat
where it would fall below L less two sample periods; none of its own while a mode switch makes one in each frame. -/
def slipOf (cv : Conv) (period pres t : Nat) : Nat :=
  if cv.slipping then 0
  else if 0 < tdiff t pres then 1 else if tdiff t pres < -(2 * period : Nat) then 2 else 0

/-- What a frame of a stream gives: what it has presented, the frame of the path in force and that of the path a switch brings in with the
instants before it, the slip made (0 none, 1 drop, 2 repeat) with its instant, and where lock-follow goes on. -/
structure Frame where
  p      : Played
  a      : List Inst
  b      : List Inst := []
  pre    : List Inst := []
  slip   : Nat := 0
  slipAt : Nat := 0
  next   : Option Nat := none

/-- The positions of a lock-follow frame of `n` instants from position `h`, with its slip, and the position after them. -/
def followList (slip at_ h n : Nat) : List Nat × Nat :=
  match slip with
  | 1 => (dropAt at_ (range h (h + n + 1)), h + n + 1)
  | 2 => (repeatAt at_ (range h (h + n - 1)), h + n - 1)
  | _ => (range h (h + n), h + n)

/-- The slip of a lock-follow frame of `n` instants from instant `c0` at position `h`: the active device's on a standby. -/
def followSlip (s : State) (st : Stream) (tw : Option TwinStream) (held : Nat → Option (List F32)) (h c0 n : Nat) : Nat × Nat :=
  let t := tenant s st.tenant
  let b := tb s (cTb st.cfg)
  let own := if st.rx.anchored then slipOf st.rx.conv (samplePeriod b t.mclk) (presOf t.fs st.cfg st.rx h) (instantTime b t.mclk c0) else 0
  let xs := (range h (h + n)).map (fun p => (held p).getD [])
  ((tw.map (·.slip)).getD own, (tw.map (·.slipAt)).getD (slipPlace (fun i => (held (h + i)).isNone) xs n))

/-- The frame of `n` instants from instant `c0` on of a stream in lock-follow. (DEDUCED, log entry 96.) -/
def playFollow (s : State) (k : Nat) (st : Stream) (tw : Option TwinStream) (c0 n : Nat) : Frame :=
  let c := st.cfg
  let x := { st.rx with early := [] }
  let t := tenant s st.tenant
  let b := tb s (cTb c)
  let held := heldAt s k tw x
  let p0 : Played := { x := x, out := st.rx.early }
  let c1 := c0 + st.rx.early.length
  let n1 := n - st.rx.early.length
  let done := fun (p : Played) => ({ p := p, a := p.out } : Frame)
  match x.head with
  | none => done (p0.idle c n1)
  | some h =>
    if x.fresh then
      let pres := presOf t.fs c x h
      let due := (List.range n1).filter (fun i => decide (0 ≤ tdiff pres (instantTime b t.mclk (c1 + i))))
      let j := due.length - 1
      if tdiff pres (instantTime b t.mclk (c1 + n1)) ≥ 0 then done (p0.idle c n1)
      else
        let p := (p0.idle c j).andThen c held (range h (h + (n1 - j)))
        done { p with x := { p.x with head := some (h + (n1 - j)), fresh := false } }
    else
      let (slip, at_) := if st.rx.early.isEmpty then followSlip s st tw held h c0 n else (0, 0)
      let (ps, h') := followList slip at_ h n1
      let p := p0.andThen c held ps
      { done { p with x := { p.x with head := some h' } } with slip := slip, slipAt := if slip = 0 then 0 else at_ }

/-! ### Conversion (05 R121) -/

/-- The frame of a stream that an Eddy path carries, or is about to carry, beside lock-follow or another path: its input is presented at its
own times, and both paths take it from there. -/
def playEddy (s : State) (k : Nat) (st : Stream) (tw : Option TwinStream) (c0 n : Nat) : Frame :=
  let c := st.cfg
  let x := { st.rx with early := [] }
  let cv := x.conv
  let t := tenant s st.tenant
  let b := tb s (cTb c)
  let w := cChannels c
  let at_ := fun (i : Nat) => instantIn (tb s t.mclk.bind.rateTb) b t.mclk (c0 + i)
  let from_ := if cv.follows && !x.fresh then cv.followPos.or x.head else none
  let (slip, place, fps, fnext) := match from_ with
    | none => (0, 0, [], 0)
    | some h =>
      let (slip, at_) := followSlip s st tw (heldAt s k tw x) h c0 n
      let (ps, h') := followList slip at_ h n
      (slip, if slip = 0 then 0 else at_, ps, h')
  let p := presentDue s k c t.fs tw (at_ n) fnext x
  let past := p.x.conv.past
  let path := fun (m : Nat) => (⟨m, cFs c, t.fs, t.fs, w⟩ : EddyPath)
  let run := fun (m : Nat) (pos : Option Nat) (rho fade : Nat) =>
    match pos with
    | none => (zeroInsts n w, (none : Option Nat), fade)
    | some q =>
      let (ys, q', fade') := eddyRun (path m) past (fun i => demanded t.fs c x m (at_ i)) rho n 0 q fade
      (ys, some q'.toNat, fade')
  let follow := if fps.isEmpty then zeroInsts n w else fps.map (pastInst past w)
  let (a, pos, fade) := if cv.mode = 2 then (follow, cv.pos, cv.fade) else run cv.mode cv.pos cv.rho cv.fade
  let v := cv.switch.getD default
  let (y, pos2, _) := if !cv.both then ([], cv.pos2, 0) else if v.mode = 2 then (follow, none, 0) else run v.mode cv.pos2 cv.rho2 0
  let pre := if !cv.both || v.left != 0 then []
    else if v.mode = 2 then (range (from_.getD 0 - v.slips) (from_.getD 0)).map (pastInst past w)
    else eddyBefore (path v.mode) past (cv.pos2.getD 0) cv.rho2 v.slips
  { p := { p with x := { p.x with conv := { p.x.conv with pos := pos, fade := fade, pos2 := pos2 } } }
    a := a, b := y, pre := pre, slip := slip, slipAt := place, next := from_.map (fun _ => fnext) }

/-! ### The frame of a stream -/

/-- A slip is counted; more than SLIP_ALARM in a minute raise STREAM_CLOCK_DRIFT, once (05 R125). -/
def countSlip (s : State) (k slip : Nat) : State :=
  match tget s.streams k with
  | none => s
  | some st =>
    let cv := st.rx.conv
    let now := secs s / 60
    let same := cv.minute == now
    let n := if same then cv.minSlips + 1 else 1
    let due := decide (st.rx.est.slipAlarm < n) && !(same && cv.alarmed)
    let cv := { cv with
      slipDrop := if slip = 1 then inc48 cv.slipDrop 1 else cv.slipDrop, slipRep := if slip = 2 then inc48 cv.slipRep 1 else cv.slipRep
      minute := now, minSlips := n, alarmed := due || (same && cv.alarmed) }
    let s := modStream s k (fun st => { st with rx := { st.rx with conv := cv } })
    if due then streamEv s k 0x40B n else s

/-- Slots of a stream after playout: those presented are marked, and those behind the head whose packet has left the history go. -/
def settleSlots (x : RxSide) : Tbl JSlot :=
  match x.head with
  | none => x.slots
  | some h =>
    (x.slots.map (fun e => if e.1 < h then (e.1, { e.2 with presented := true }) else e)).filter (fun e => decide (h ≤ e.1 + 256) || x.hist.any (fun y => y.1 == e.2.seq))

/-- The playout of receive stream `k` for the frame of `n` instants from instant `c0` on; `tw` are the active device's values on a
standby. Also the values an active device sends for it (16 R324). -/
def rxFrame (k c0 n : Nat) (tw : Option TwinStream) (s : State) : State × Option TwinStream :=
  match tget s.streams k with
  | none => (s, none)
  | some st =>
    if !st.live then (s, none)
    else if ((tget s.queues st.q).bind running).isNone then
      (modStream s k (fun st => { st with rx := { st.rx with out := List.replicate n (zeroInstant (cChannels st.cfg)), mask := [] } }), none)
    else
      let cv0 := st.rx.conv
      let f := if cv0.converts then playEddy s k st tw c0 n else playFollow s k st tw c0 n
      let (out, cv) := f.p.x.conv.sound n f.a f.b f.pre
      let (cv, ended) := cv.switched n
      let turned := cv0.mode != 2 && cv.mode == 2
      let x := { f.p.x with head := if turned then f.next.or f.p.x.head else f.p.x.head }
      let data := f.p.fill.map (fun q => (q, ((tget x.slots q).map (·.data)).getD []))
      let s := f.p.fill.foldl (fun s q => unpoison s (.jitter k q)) s
      let s := modStream s k (fun st => { st.bump 24 f.p.lost with
        rx := { x with out := out.map (·.data), mask := out.map (·.lost), slots := settleSlots x, conv := { cv with followPos := if cv.both then f.next else none } } })
      let s := if f.slip ≠ 0 then countSlip s k f.slip else s
      let s := if ended then (pendingFor s (fun w => w == .modeSwitch k)).foldl (fun s p => finish s p 0 0) s else s
      (s, some { stream := k, rho := cv0.rho, corr := cv0.corr, slip := f.slip, slipAt := f.slipAt, realign := cv0.fade == 32
                 step := stepOf cv0, fill := f.p.fill, data := data, wiped := cv0.wiped })

end Sys2Proof.Machine
end

