-- ==== Sys2Proof/Machine/TarnOps.lean ====
section
/-! DEFINITION. Chapters 07 and 08: what every Tarn instruction is written over — registers, memory with its store buffer, flags,
exceptions, the order of issue. -/
namespace Sys2Proof.Machine

def core (s : State) (n : Nat) : Core := tgetD s.tarn.cores n {}
def setCore (s : State) (n : Nat) (c : Core) : State := { s with tarn := { s.tarn with cores := tset s.tarn.cores n c } }
def modCore (s : State) (n : Nat) (f : Core → Core) : State := setCore s n (f (core s n))
/-- The cluster whose memory core `n` has in its cluster window: its own, but for tasks that came from a failed core (09 R207). -/
def homeOf (s : State) (n : Nat) : Nat := (tget s.tarn.homes n).getD (n / 17)
def clusterMem (s : State) (n : Nat) : Tbl W16 := tgetD s.tarn.cmem (homeOf s n) []
def setClusterMem (s : State) (n : Nat) (m : Tbl W16) : State := { s with tarn := { s.tarn with cmem := tset s.tarn.cmem (homeOf s n) m } }
def modTask (s : State) (n : Nat) (f : Task → Task) : State := { s with tasks := tmod s.tasks n f }

/-! ### Registers (07 R153, R154; 08 R181) -/

/-- Data register `i`, lane `i` of a vector, and a pair or wide operand as 32 bits. -/
def Core.dn (c : Core) (i : Nat) : W16 := c.d.toList.getD i 0
def Core.setD (c : Core) (i : Nat) (v : W16) : Core := { c with d := Vector.ofFn (fun j => if j.val = i then v else c.d[j]) }
def Core.lanes (c : Core) (v : Nat) : List W16 := (List.range 4).map (fun i => c.dn (4 * v + i))
def Core.setLanes (c : Core) (v : Nat) (xs : List W16) : Core := (List.range 4).foldl (fun c i => c.setD (4 * v + i) (xs.getD i 0)) c
def Core.pair (c : Core) (n : Nat) : BitVec 32 := c.dn (2 * n + 1) ++ c.dn (2 * n)
def Core.setPair (c : Core) (n : Nat) (v : BitVec 32) : Core := (c.setD (2 * n) (v.extractLsb' 0 16)).setD (2 * n + 1) (v.extractLsb' 16 16)

/-- Accumulators, and the pair k as 80 bits. -/
def Core.an (c : Core) (i : Nat) : BitVec 40 := c.a.toList.getD i 0
def Core.setA (c : Core) (i : Nat) (v : BitVec 40) : Core := { c with a := Vector.ofFn (fun j => if j.val = i then v else c.a[j]) }
def Core.wideA (c : Core) (k : Nat) : BitVec 80 := c.an (2 * k + 1) ++ c.an (2 * k)
def Core.setWideA (c : Core) (k : Nat) (v : BitVec 80) : Core := (c.setA (2 * k) (v.extractLsb' 0 40)).setA (2 * k + 1) (v.extractLsb' 40 40)

/-- Address registers by their five-bit code. -/
def Core.areg (c : Core) (r : Nat) : BitVec 24 :=
  (if r < 8 then c.p else if r < 16 then c.m else if r < 24 then c.b else c.l).toList.getD (r % 8) 0
def Core.setAreg (c : Core) (r : Nat) (v : BitVec 24) : Core :=
  let put := fun (x : Vector (BitVec 24) 8) => Vector.ofFn (fun j => if j.val = r % 8 then v else x[j])
  if r < 8 then { c with p := put c.p } else if r < 16 then { c with m := put c.m } else if r < 24 then { c with b := put c.b } else { c with l := put c.l }

/-- An address register as 32 bits: M is sign-extended, the others zero-extended. -/
def Core.areg32 (c : Core) (r : Nat) : BitVec 32 := if 8 ≤ r ∧ r < 16 then (c.areg r).signExtend 32 else (c.areg r).setWidth 32

/-- R157: the pointer `k` modified by `m`. -/
def Core.postModify (c : Core) (k : Nat) (m : Int) : Core :=
  let p := (c.areg k).toNat
  let b := (c.areg (16 + k)).toNat
  let l := (c.areg (24 + k)).toNat
  let v : Int := if l = 0 then p + m else b + ((p : Int) - b + m) % l
  c.setAreg k (BitVec.ofInt 24 v)

/-! ### Flags (07 SR, R163) -/

/-- Bits of SR: 0 Z, 1 N, 2 C, 3 V, 4 SV, 5 SAT, 6 to 9 AV0 to AV3. -/
def Core.flag (c : Core) (i : Nat) : Bool := c.sr.getLsbD i
def Core.setFlag (c : Core) (i : Nat) (b : Bool) : Core :=
  { c with sr := if b then c.sr ||| BitVec.ofNat 16 (2 ^ i) else c.sr &&& ~~~BitVec.ofNat 16 (2 ^ i) }

/-- V is set or cleared and SV follows it; SAT sets on a clamp. -/
def Core.setV (c : Core) (v sat : Bool) : Core :=
  let c := c.setFlag 3 v
  let c := if v then c.setFlag 4 true else c
  if sat then c.setFlag 5 true else c
def Core.setZN (c : Core) (z n : Bool) : Core := (c.setFlag 0 z).setFlag 1 n

/-- The mode in force for the instruction that issues now (R171), and its bits. -/
def Core.inForce (c : Core) : BitVec 16 := c.shadow.headD c.mode
def Core.frac (c : Core) : Bool := c.inForce.getLsbD 0
def Core.trapv (c : Core) : Bool := c.inForce.getLsbD 1
def Core.wide (c : Core) : Bool := c.inForce.getLsbD 2

/-- An exact result narrowed to `w` bits: with S it is clamped to the `sat` signed range, else it wraps at `w`. The result, whether it
wrapped, whether it was clamped. -/
def narrow (s : Bool) (w satW : Nat) (v : Int) : Int × Bool × Bool :=
  let lo : Int := -(2 ^ (satW - 1) : Nat)
  let hi : Int := (2 ^ (satW - 1) : Nat) - 1
  if s then (clampI lo hi v, false, decide (v < lo) || decide (hi < v))
  else
    let x := sext w (toBits w v)
    (x, x != v, false)

/-! ### Exceptions (07 R174) -/

/-- An exception: its cause, and what EADDR receives, if anything. -/
structure Exc where
  cause : Nat
  eaddr : Option Nat := none
  deriving DecidableEq, Repr

/-- OVF where TRAPV is in force, with the mask of the lanes that wrapped. -/
def ovf (c : Core) (mask : Nat) : Option Exc := if c.trapv && mask != 0 then some ⟨4, some mask⟩ else none

/-! ### Memory (07 R155, R156, R172, R173) -/

/-- Whether a word lies in local memory or in the task's cluster region. -/
def Core.mapped (c : Core) (a : Nat) : Bool :=
  decide (a < 0x10000) || (decide (0x100000 ≤ a ∧ a < 0x200000) && decide (c.cwbase.toNat ≤ a ∧ a ≤ c.cwlim.toNat))

/-- ALIGN, then ADDR, of an access of `n` words at `a`. -/
def Core.accessFault (c : Core) (a n : Nat) : Option Exc :=
  if a % n ≠ 0 then some ⟨3, some a⟩ else if (List.range n).all (fun i => c.mapped (a + i)) then none else some ⟨2, some a⟩

/-- Whether a pending store overlaps the `k` words at `a`, and whether it holds them all. -/
def overlaps (a k : Nat) (e : Nat × List W16) : Bool := decide (a < e.1 + e.2.length ∧ e.1 < a + k)
def holds (a k : Nat) (e : Nat × List W16) : Bool := decide (e.1 ≤ a ∧ a + k ≤ e.1 + e.2.length)

/-- The youngest pending store that overlaps a load, where it holds every word of it: the load is forwarded from it (R173). -/
def forwarder (stores : List (Nat × List W16)) (a k : Nat) : Option (List W16) :=
  ((stores.reverse.find? (overlaps a k)).filter (holds a k)).map (fun e => (e.2.drop (a - e.1)).take k)

/-- How many of the oldest stores a load waits for: all up to the youngest that overlaps it, unless it is forwarded (R173). -/
def forcedBy (stores : List (Nat × List W16)) (a k : Nat) : Nat :=
  if (forwarder stores a k).isSome then 0 else stores.length - (stores.reverse.findIdx (overlaps a k))

/-- A word of memory, behind the pending stores. -/
def memWord (cm : Tbl W16) (c : Core) (a : Nat) : W16 := if a < 0x10000 then mget 0 c.lmem a else mget 0 cm (a - 0x100000)

/-- The owner of a word, for the marks of 18 R351. -/
def wordOwner (s : State) (n a : Nat) : MemOwner := if a < 0x10000 then .tarnLocal n a else .tarnCluster (homeOf s n) (a - 0x100000)

/-- The oldest store is written, which clears the mark of a poisoned word. (DEDUCED, log entry 88.) -/
def drainOne (n : Nat) (s : State) : State :=
  let c := core s n
  match c.stores with
  | [] => s
  | (a, ws) :: rest =>
    let s := (List.range ws.length).foldl (fun s i => unpoison s (wordOwner s n (a + i))) s
    if a < 0x10000 then setCore s n { c with stores := rest, lmem := (List.range ws.length).foldl (fun m i => mset 0 m (a + i) (ws.getD i 0)) c.lmem }
    else
      let cm := (List.range ws.length).foldl (fun m i => mset 0 m (a - 0x100000 + i) (ws.getD i 0)) (clusterMem s n)
      setCore (setClusterMem s n cm) n { c with stores := rest }

/-- `k` stores are written; all of them. -/
def drainK (n : Nat) : Nat → State → State
  | 0, s => s
  | k + 1, s => drainK n k (drainOne n s)
def drainAll (n : Nat) (s : State) : State := drainK n (core s n).stores.length s

/-- A load of `k` words: forwarded, or read once the stores it waits for are written; DATA_ECC if a word it reads is lost (R173, R174). -/
def loadWords (s : State) (n a k : Nat) : Except Exc (List W16) :=
  match forwarder (core s n).stores a k with
  | some ws => .ok ws
  | none =>
    let s := drainK n (forcedBy (core s n).stores a k) s
    let as := (List.range k).map (a + ·)
    match as.find? (fun b => poisoned s (wordOwner s n b)) with
    | some b => .error ⟨8, some b⟩
    | none => .ok (as.map (memWord (clusterMem s n) (core s n)))

/-! ### Interrupt lines (07 R176, 08 R194) -/

/-- An event sets its line; a WAIT ends when an enabled line is pending. -/
def raiseLine (n line : Nat) (s : State) : State := modCore s n (fun c =>
  let ip := c.ipend ||| BitVec.ofNat 7 (2 ^ line)
  { c with ipend := ip, waiting := c.waiting && ((ip &&& c.ien) == 0) })

/-! ### Words that are no instruction (08 R180) -/

/-- Whether bits [hi:lo] of a word are not all 0. -/
def rsvBits (w hi lo : Nat) : Bool := bits w hi lo != 0

/-- A load or store whose word is undefined (08 R182, R183). -/
def ldWordBad (w : Nat) : Bool :=
  let md := bits w 14 13
  decide ((match bits w 24 23 with | 0 => 16 | 1 => 8 | 2 => 4 | _ => 32) ≤ bits w 22 18) || md == 3 || (md == 0 && rsvBits w 12 0) || (md == 1 && rsvBits w 9 0)

/-- An ALU word of registers that is undefined: a FUNC not listed, a vector form that is not there, a bit above a vector code. -/
def aluWordBad (w : Nat) : Bool :=
  let f := bits w 23 19
  rsvBits w 6 0 || decide (0x11 < f) || (bit w 24 && ([0x03, 0x04, 0x10, 0x11].contains f || rsvBits w 18 17 || rsvBits w 14 13 || rsvBits w 10 9))

/-- An ALU word with an immediate that is undefined (08 R188). -/
def immWordBad (w : Nat) : Bool :=
  let f := bits w 24 22
  bit w 20 || (bit w 21 && (rsvBits w 19 18 || f == 6)) || (f == 7 && (bits w 15 14 == 3 || rsvBits w 13 5 || decide (16 < bits w 4 0)))

/-- An accumulator word that is undefined (08 R189): a FUNC not listed, a field it does not use. (DEDUCED, log entry 90.) -/
def accWordBad (w : Nat) : Bool :=
  let f := bits w 24 20
  let usesS := decide (3 ≤ f ∧ f ≤ 10)
  let usesAd := decide (f ≤ 7) || decide (13 ≤ f)
  let usesAs := decide (2 ≤ f ∧ f ≤ 12)
  let dr := match f with | 8 => 4 | 9 => 2 | 10 => 3 | 11 => 3 | 12 => 4 | 13 => 3 | 14 => 4 | 15 => 4 | _ => 0
  decide (15 < f) || (!usesS && bit w 25) || (!usesAd && rsvBits w 19 17) || (!usesAs && rsvBits w 16 14) || decide (2 ^ dr ≤ bits w 13 10)
    || rsvBits w 9 (if f = 7 then 6 else 0) || (f == 1 && bits w 19 17 % 4 != 0) || (f == 9 && bits w 16 14 % 4 != 0) || (f == 10 && bits w 16 14 % 2 != 0)

/-- A MAC-class word that is undefined (08 R185). -/
def macWordBad (w : Nat) : Bool :=
  let (u1, u2) := (rsvBits w 17 16, rsvBits w 9 8)
  rsvBits w 2 0 || (u1 && u2 && bits w 15 13 == bits w 7 5) || (u1 && u2 && !bit w 10 && bits w 12 11 == bits w 4 3)

/-- Whether a control register has the number, and whether MVC may write it (08 R191). -/
def crExists (k : Nat) : Bool := decide (k ≤ 0x0D) || decide (0x10 ≤ k ∧ k ≤ 0x16) || decide (0x18 ≤ k ∧ k ≤ 0x1B) || decide (0x20 ≤ k ∧ k ≤ 0x2F)
def crReadOnly (k : Nat) : Bool := [0x09, 0x0A, 0x0B, 0x0C, 0x0D, 0x1B].contains k

/-- Whether a word is no instruction: an opcode, a FUNC or a field value that chapter 08 does not have, or a reserved bit that is set. -/
def noInstruction (w : BitVec 32) : Bool :=
  let v := w.toNat
  match bits v 31 26 with
  | 0x00 => v != 0
  | 0x01 | 0x04 | 0x05 | 0x06 | 0x08 => rsvBits v 25 0
  | 0x02 => rsvBits v 21 14
  | 0x03 => rsvBits v 25 14
  | 0x07 => rsvBits v 25 8
  | 0x09 => rsvBits v 25 4
  | 0x0A => bit v 24 && rsvBits v 23 18
  | 0x0B => rsvBits v 25 12
  | 0x0C => rsvBits v 15 0 || !crExists (bits v 24 19) || (!bit v 25 && crReadOnly (bits v 24 19))
  | 0x10 => ldWordBad v
  | 0x11 => false
  | 0x12 => rsvBits v 16 0
  | 0x13 => false
  | 0x18 => aluWordBad v
  | 0x19 => immWordBad v
  | 0x20 => accWordBad v
  | 0x21 => rsvBits v 16 0
  | 0x30 | 0x31 | 0x32 | 0x33 => macWordBad v
  | _ => true

/-! ### The order of issue (07 R166 to R171) -/

/-- Where issue goes after an instruction. -/
inductive Next where
  /-- To the next instruction, through a REPEAT, a delay slot and the block loops. -/
  | seq
  /-- To the address the effect has put into PC, at once. -/
  | goto
  /-- To the delay slot of a branch. -/
  | slot (b : Branch)

/-- What an instruction does outside its core's registers. -/
inductive Side where
  | none
  | signal (k : Nat)
  | cmsg (target byte : Nat)
  | dma (ch : Nat)
  /-- The effect has used the next free value. -/
  | drawn

/-- The effect of an instruction; `used` counts the memory ports it takes, `forced` the stores its loads wait for. -/
structure Eff where
  core : Core
  next : Next := .seq
  side : Side := .none
  used : Nat := 0
  forced : Nat := 0

/-- What bars an instruction from a place: nothing; as a branch; as LOOP, REPEAT, TRAP, RTE, RTI. -/
inductive Place where
  | any
  | branch
  | flow
  deriving DecidableEq, Repr

/-- The block loops at the end of the instruction at PC: level 1, then level 0 (R168). -/
def Core.whirl (c : Core) : Core :=
  let fall := fun (c : Core) => { c with pc := c.pc + 1 }
  let level0 := fun (c : Core) =>
    if c.pc = c.wl0 ∧ c.wc0 ≠ 0 then (if c.wc0 = 1 then fall { c with wc0 := 0 } else { c with wc0 := c.wc0 - 1, pc := c.wf0 }) else fall c
  if c.pc = c.wl1 ∧ c.wc1 ≠ 0 then (if c.wc1 = 1 then level0 { c with wc1 := 0 } else { c with wc1 := c.wc1 - 1, pc := c.wf1 }) else level0 c

/-- A taken branch ends the active levels its target lies outside of (R169). -/
def Core.endLevels (c : Core) (t : BitVec 14) : Core :=
  let out := fun (f l : BitVec 14) => decide (t.toNat < f.toNat ∨ l.toNat < t.toNat)
  { c with wc0 := if out c.wf0 c.wl0 then 0 else c.wc0, wc1 := if out c.wf1 c.wl1 then 0 else c.wc1 }

/-- A branch takes effect together with its delay slot (R167). -/
def Core.commitBranch (c : Core) (b : Branch) : Core :=
  let c := { c with branch := none }
  match b.target with
  | none => { c with pc := c.pc + 1 }
  | some t =>
    let c := if b.push then { c with stack := (b.addr + 2) :: c.stack } else if b.pop then { c with stack := c.stack.drop 1 } else c
    { (if b.isCall then c else c.endLevels t) with pc := t }

/-- The instruction at PC is complete. -/
def Core.complete (c : Core) : Core :=
  if c.rep ∧ 2 ≤ c.rc then { c with rc := c.rc - 1, fresh := false }
  else
    let c := { c with shadow := c.shadow.drop 1, rc := if c.rep then 0 else c.rc, rep := false, fresh := false }
    match c.branch with
    | some b => c.commitBranch b
    | none => c.whirl

/-- Whether the core issues instructions. -/
def Core.issues (c : Core) : Bool := c.run.isSome && !c.halted && !c.waiting && !c.held

/-- Whether the instruction at PC stands at the end of an active level, or in the slot of one. -/
def Core.atLoopEnd (c : Core) : Bool :=
  let near := fun (l : BitVec 14) => c.pc == l || c.pc + 1 == l
  (c.wc0 != 0 && near c.wl0) || (c.wc1 != 0 && near c.wl1)

/-- Placements barred by R166 and R168. -/
def Core.barred (c : Core) : Place → Bool
  | .any => false
  | .branch => c.branch.isSome || c.atLoopEnd
  | .flow => c.branch.isSome

/-- The fields of ESTAT and ISTAT. -/
def statWord (cause : Nat) (ds rpt : Bool) (shc : Nat) : BitVec 10 := BitVec.ofNat 10 (cause + 32 * b2n ds + 64 * b2n rpt + 128 * shc + 512)
def statActive (x : BitVec 10) : Bool := x.getLsbD 9

/-- What the save set of a return address holds of MODE and its shadow (R175). (DEDUCED, log entry 89.) -/
def saveMode (mode : BitVec 16) (shadow : List (BitVec 16)) : BitVec 32 := shadow.headD 0 ++ mode

/-- Exception entry (R175). Outside a double fault; TRAP has completed and returns to the instruction after it. -/
def Core.enter (c : Core) (e : Exc) : Core :=
  let c := if e.cause = 9 then c.complete else c
  let shadow := match c.branch with | some b => b.shadow | none => c.shadow
  { c with
    epc := match c.branch with | some b => b.addr | none => c.pc
    estat := statWord e.cause c.branch.isSome c.rep shadow.length
    emode := saveMode c.mode shadow
    eaddr := match e.eaddr with | some a => BitVec.ofNat 24 a | none => c.eaddr
    mode := c.mode &&& 0xFFF7#16, pc := c.vbase + BitVec.ofNat 14 (4 * e.cause), shadow := [], rep := false, fresh := false, branch := none }

/-- A task is stopped by a fault (09 R204). -/
def taskStops (s : State) (t cause : Nat) : State :=
  match tget s.tasks t with
  | none => s
  | some w =>
    let s := modTenant s w.tenant (fun x => { x with faulted := x.faulted ++ [(t, cause)] })
    evT (modTask s t (fun w => { w with stopped := true, running := false, out := [], outs := [], coded := [] })) w.tenant 0x703 t 0 cause

/-- A core reports a fault of task `t`: a standby ends the run and leaves the decision to the active device (09 R208). -/
def taskFault (s : State) (t cause : Nat) : State :=
  if follows s then modTask s t (fun w => { w with running := false, outs := [] }) else taskStops s t cause

/-- A halt the scheduler has requested is taken at an instruction boundary: not between a branch and its delay slot, nor between a REPEAT
and its first iteration (07 R177, R179). A resident task keeps its core. -/
def settleHalt (n : Nat) (s : State) : State :=
  let c := core s n
  if !c.haltReq || c.branch.isSome || (c.rep && c.fresh) then s
  else
    let resident := ((c.run.bind (tget s.tasks)).map (·.resident)).getD false
    modCore (drainAll n s) n (fun c => { c with haltReq := false, halted := true, run := if resident then c.run else none })

/-- The scheduler requests a halt; a WAIT ends (08 R194). -/
def requestHalt (n : Nat) (s : State) : State := settleHalt n (modCore s n (fun c => { c with haltReq := true, waiting := false }))

/-- An exception of the instruction at PC: entry, or with a handler active the double fault, which halts the core. -/
def takeExc (n : Nat) (e : Exc) (s : State) : State :=
  let c := core s n
  if statActive c.estat then
    match c.run with
    | some t =>
      let resident := ((tget s.tasks t).map (·.resident)).getD false
      taskFault (modCore (drainAll n s) n (fun c => { c with halted := true, run := if resident then c.run else none })) t e.cause
    | none => s
  else modCore s n (fun c => c.enter e)

/-! ### The end of a run (09 R202, R203) -/

/-- The output rate of a task, and its output samples of one block of `k` frames. -/
def Task.rateOut (w : Task) (x : Tenant) : Nat := if w.outRate = 0xFF then x.fs else rateHz w.outRate
def Task.samplesOut (w : Task) (x : Tenant) (k : Nat) : Nat := k * x.n * w.rateOut x / x.fs

/-- A block cut into its frames. -/
def cutFrames (w : Task) (x : Tenant) (xs : List (List F32)) : List (List (List F32)) :=
  (List.range w.k).map (fun i => (xs.take (w.samplesOut x (i + 1))).drop (w.samplesOut x i))

/-- The output block of task `w` in the cluster window, one list of channels per sample. -/
def readBlock (cm : Tbl W16) (w : Task) (n : Nat) : List (List F32) :=
  let at_ := fun (a : Nat) => mget 0 cm (a - 0x100000)
  (List.range n).map (fun j => (List.range w.channels).map (fun ch =>
    if w.fmt then let a := w.outBase + 2 * (ch * n + j); ofScaled (sext 32 ((at_ (a + 1)).toNat * 65536 + (at_ a).toNat)) 31
    else ofScaled (at_ (w.outBase + ch * n + j)).toInt 15))

/-- SIGNAL: 0 ends the run and hands its output over, and a resident task waits for BLOCK; 1 to 15 are events, each at most once in a run (R203, R205). -/
def tarnSignal (n k : Nat) (s : State) : State :=
  match (core s n).run with
  | none => s
  | some t =>
    match tget s.tasks t with
    | none => s
    | some w =>
      if k = 0 then
        if !w.running then s
        else
          let s := drainAll n s
          let s := modCore s n (fun c => if w.resident then { c with held := true } else { c with run := none })
          let x := tenant s w.tenant
          modTask s t (fun w => { w with running := false, signals := [], outs := cutFrames w x (readBlock (clusterMem s n) w (w.samplesOut x w.k)) })
      else if w.signals.contains k then modTask s t (fun w => { w with sigDrop := inc48 w.sigDrop 1 })
      else evT (modTask s t (fun w => { w with signals := k :: w.signals })) w.tenant 0x704 t 0 k

/-! ### DMA (07 R159) -/

/-- Whether a transfer's whole range lies in memory: local, the cluster region, and the HBM3 window of `units` 8-byte units. -/
def dmaRange (c : Core) (d : Dma) (units : Nat) : Bool :=
  let a := d.dloc.toNat
  let last := a + 4 * d.dcnt.toNat - 1
  a % 4 == 0 && decide (1 ≤ d.dcnt.toNat ∧ d.dcnt.toNat ≤ 16384) && decide (d.dext.toNat + d.dcnt.toNat ≤ units)
    && (decide (last < 0x10000) || (decide (0x100000 ≤ a) && c.mapped a && c.mapped last))

/-- A channel of a core changed. -/
def modDma (s : State) (n ch : Nat) (f : Dma → Dma) : State := modCore s n (fun c => { c with dma := Vector.ofFn (fun j => if j.val = ch then f c.dma[j] else c.dma[j]) })
def dmaOf (c : Core) (ch : Nat) : Dma := c.dma.toList.getD ch {}

/-- GO: pending stores are written, the range is checked, and the transfer runs until DMA_DONE. -/
def dmaGo (n ch : Nat) (s : State) : State :=
  let s := drainAll n s
  let c := core s n
  let d := dmaOf c ch
  let units := (((c.run.bind (tget s.tasks)).map (·.hbm)).getD 0) / 8
  if d.busy ∨ !dmaRange c d units then raiseLine n 1 (modDma s n ch (fun d => { d with err := true, code := if d.busy then 2 else 1 }))
  else modDma s n ch (fun d => { d with busy := true, task := c.run.getD 0, loc := d.dloc.toNat, ext := d.dext.toNat, cnt := d.dcnt.toNat, out := d.dir })

/-- A message byte to another core of the cluster (07 CMSG). -/
def sendCmsg (n target byte : Nat) (s : State) : State :=
  if 17 ≤ target then s
  else
    let m := n / 17 * 17 + target
    raiseLine m 6 (modCore s m (fun c => { c with cmsgIn := BitVec.ofNat 13 (byte % 256 + 256 * (n % 17)) }))

/-- A core issues the instruction at its PC: `bad` says that its word is undefined, as the word fetched there may be (08 R180), `place`
where it may not stand, and `f` gives its effect or its exception. A store that would be the fifth waits until one is written (R172). -/
def issueOne (n : Nat) (bad : Bool) (place : Place) (f : State → Core → Except Exc Eff) (s : State) : State :=
  let c := core s n
  if !c.issues then s
  else if poisoned s (.tarnImem n c.pc.toNat) then takeExc n ⟨7, none⟩ s
  else if bad || noInstruction (mget 0 c.imem c.pc.toNat) || c.barred place then takeExc n ⟨1, none⟩ s
  else
    match f s c with
    | .error e => takeExc n e s
    | .ok e =>
      let c := match e.next with
        | .seq => e.core.complete
        | .goto => e.core
        | .slot b => { e.core with pc := e.core.pc + 1, branch := some { b with shadow := c.shadow }, shadow := e.core.shadow.drop 1 }
      let s := drainK n (max (2 - e.used) (max e.forced (c.stores.length - 4))) (setCore s n c)
      match e.side with
      | .none => s
      | .signal k => tarnSignal n k s
      | .cmsg t b => sendCmsg n t b s
      | .dma ch => dmaGo n ch s
      | .drawn => { s with free := s.free + 1 }

/-- An issue, and the halt that has waited for its end; a core without its clock issues nothing (14 R293). -/
def issue (n : Nat) (bad : Bool) (place : Place) (f : State → Core → Except Exc Eff) (s : State) : State :=
  if s.clk.running then settleHalt n (issueOne n bad place f s) else s

end Sys2Proof.Machine
end

