-- ==== Sys2Proof/Machine/TarnFlow.lean ====
section
/-! DEFINITION. Chapter 08: the flow instructions, MVC, loads and stores, address registers; chapter 07: interrupt entry and the end of
a DMA transfer. -/
namespace Sys2Proof.Machine

/-! ### Flow (07 R166 to R170; 08 R192 to R194) -/

/-- The condition codes of R192. -/
def Core.cond (c : Core) (cc : Nat) : Bool :=
  let (z, n, k, v) := (c.flag 0, c.flag 1, c.flag 2, c.flag 3)
  match cc with
  | 0 => true
  | 1 => z
  | 2 => !z
  | 3 => n
  | 4 => !n
  | 5 => k
  | 6 => !k
  | 7 => v
  | 8 => !v
  | 9 => n != v
  | 10 => n == v
  | 11 => z || n != v
  | 12 => !z && n == v
  | 13 => k && !z
  | 14 => !k || z
  | _ => c.flag 5

def execTNop (core : Nat) (s : State) : Host.Outcome State Fault Refusal := run s (issue core false .any (fun _ c => .ok { core := c }))

/-- WAIT holds issue after itself unless an enabled line is pending. -/
def execTWait (core : Nat) (rsv : BitVec 26) (s : State) : Host.Outcome State Fault Refusal :=
  run s (issue core (rsv != 0) .any (fun _ c => .ok { core := { c with waiting := (c.ipend &&& c.ien) == 0 } }))

def execTB (core : Nat) (cc : BitVec 4) (rsv : BitVec 8) (target : BitVec 14) (s : State) : Host.Outcome State Fault Refusal :=
  run s (issue core (rsv != 0) .branch (fun _ c => .ok { core := c, next := .slot { addr := c.pc, target := if c.cond cc.toNat then some target else none } }))

def execTCall (core : Nat) (rsv : BitVec 12) (target : BitVec 14) (s : State) : Host.Outcome State Fault Refusal :=
  run s (issue core (rsv != 0) .branch (fun _ c =>
    if 16 ≤ c.stack.length then .error ⟨5, none⟩ else .ok { core := c, next := .slot { addr := c.pc, target := some target, push := true, isCall := true } }))

def execTRet (core : Nat) (rsv : BitVec 26) (s : State) : Host.Outcome State Fault Refusal :=
  run s (issue core (rsv != 0) .branch (fun _ c =>
    match c.stack with
    | [] => .error ⟨6, none⟩
    | t :: _ => .ok { core := c, next := .slot { addr := c.pc, target := some t, pop := true, isCall := true } }))

/-- A return through a save set (07 R175, R176; 08 R191): MODE and its shadow at once, and a REPEAT taken up again for RC iterations; with
RC = 0 the repeated instruction counts as complete. SHC = 3, which no entry writes, gives a free number of instructions (log entry 1). -/
def Core.back (c : Core) (free : Nat) (pc : BitVec 14) (stat : BitVec 10) (save : BitVec 32) : Core :=
  let shc := stat.toNat / 128 % 4
  let rpt := stat.getLsbD 6
  let c := { c with mode := save.extractLsb' 0 16, shadow := List.replicate (if shc = 3 then free % 3 else shc) (save.extractLsb' 16 16), pc := pc, rep := rpt && c.rc != 0, fresh := false }
  if rpt && c.rc == 0 then { c with shadow := c.shadow.drop 1 }.whirl else c

/-- The free value a return uses. -/
def peek (s : State) : Nat := (Config.freeWord s.free).toNat

/-- RTE; from a BREAK it lets the next BREAK pass. -/
def execTRte (core : Nat) (rsv : BitVec 26) (s : State) : Host.Outcome State Fault Refusal :=
  run s (issue core (rsv != 0) .flow (fun s c =>
    let brk := c.brk || decide (c.estat.toNat % 32 = 10)
    .ok { core := { c with estat := c.estat &&& 0x1FF#10, brk := brk }.back (peek s) c.epc c.estat c.emode, next := .goto, side := .drawn }))

def execTRti (core : Nat) (rsv : BitVec 26) (s : State) : Host.Outcome State Fault Refusal :=
  run s (issue core (rsv != 0) .flow (fun s c =>
    .ok { core := { c with istat := c.istat &&& 0x1FF#10 }.back (peek s) c.ipc c.istat c.imode, next := .goto, side := .drawn }))

def execTTrap (core : Nat) (rsv : BitVec 18) (code : BitVec 8) (s : State) : Host.Outcome State Fault Refusal :=
  run s (issue core (rsv != 0) .flow (fun _ _ => .error ⟨9, some code.toNat⟩))

def execTBreak (core : Nat) (rsv : BitVec 26) (s : State) : Host.Outcome State Fault Refusal :=
  run s (issue core (rsv != 0) .any (fun _ c => if c.brk then .ok { core := { c with brk := false } } else .error ⟨10, none⟩))

def execTSignal (core : Nat) (rsv : BitVec 22) (n : BitVec 4) (s : State) : Host.Outcome State Fault Refusal :=
  run s (issue core (rsv != 0) .any (fun _ c => .ok { core := c, side := .signal n.toNat }))

/-- LOOP: the body follows it. In the register form bits [13:10] of the ten-bit field are the D register; bits above are reserved.
(DEDUCED, log entry 91.) -/
def execTLoop (core : Nat) (k form : Bool) (n : BitVec 10) (stop : BitVec 14) (s : State) : Host.Outcome State Fault Refusal :=
  let c := Sys2Proof.Machine.core s core
  let first := c.pc + 1
  let bad := (form && n.toNat / 16 != 0) || decide (stop.toNat < first.toNat) || (k && c.wc0 != 0 && decide (c.wl0.toNat < stop.toNat))
  run s (issue core bad .flow (fun _ c =>
    let count : W16 := if form then c.dn (n.toNat % 16) else n.setWidth 16
    let c := if k then { c with wf1 := first, wl1 := stop, wc1 := count } else { c with wf0 := first, wl0 := stop, wc0 := count }
    if count = 0 then .ok { core := { c with pc := stop + 1, shadow := c.shadow.drop 1 }, next := .goto } else .ok { core := c }))

/-- Whether a word may not be repeated: B, CALL, RET, RTE, RTI, TRAP, LOOP, REPEAT, and MVC to MODE or a loop register. -/
def unrepeatable (w : BitVec 32) : Bool :=
  let op := w.toNat / 2 ^ 26
  let cr := w.toNat / 2 ^ 19 % 64
  decide (2 ≤ op ∧ op ≤ 7) || op == 10 || op == 11 || (op == 12 && !w.getLsbD 25 && decide (1 ≤ cr ∧ cr ≤ 7))

/-- Where issue goes after the instruction at PC, without its effects. -/
def Core.nextPc (c : Core) : BitVec 14 := c.whirl.pc

/-- REPEAT n, of the instruction that follows it. -/
def execTRepeat (core : Nat) (rsv : BitVec 14) (n : BitVec 12) (s : State) : Host.Outcome State Fault Refusal :=
  let c := Sys2Proof.Machine.core s core
  let bad := rsv != 0 || unrepeatable (mget 0 c.imem (c.nextPc).toNat)
  run s (issue core bad .flow (fun _ c =>
    let c := { c with shadow := c.shadow.drop 1 }.whirl
    .ok { core := { c with rc := n.toNat + 1, rep := true, fresh := true }, next := .goto }))

/-! ### Control registers (07; 08 R191) -/

/-- DCTL as read. -/
def Dma.ctl (d : Dma) : Nat := 2 * b2n d.dir + 4 * b2n d.irq + 8 * b2n d.busy + 16 * b2n d.done + 32 * b2n d.err + 64 * d.code.toNat

/-- A control register as read, where the number has one. -/
def Core.crRead (c : Core) (n : Nat) : Nat → Option Nat
  | 0x00 => some c.sr.toNat
  | 0x01 => some c.mode.toNat
  | 0x02 => some c.wc0.toNat
  | 0x03 => some c.wf0.toNat
  | 0x04 => some c.wl0.toNat
  | 0x05 => some c.wc1.toNat
  | 0x06 => some c.wf1.toNat
  | 0x07 => some c.wl1.toNat
  | 0x08 => some c.rc
  | 0x09 => some c.stack.length
  | 0x0A => some c.vbase.toNat
  | 0x0B => some c.cwbase.toNat
  | 0x0C => some c.cwlim.toNat
  | 0x0D => some (n % 17 + 32 * (n / 17))
  | 0x10 => some c.epc.toNat
  | 0x11 => some c.estat.toNat
  | 0x12 => some c.emode.toNat
  | 0x13 => some c.eaddr.toNat
  | 0x14 => some c.ipc.toNat
  | 0x15 => some c.istat.toNat
  | 0x16 => some c.imode.toNat
  | 0x18 => some c.ien.toNat
  | 0x19 => some c.ipend.toNat
  | 0x1A => some 0
  | 0x1B => some c.cmsgIn.toNat
  | k =>
    if 0x20 ≤ k ∧ k ≤ 0x2F then
      let d := dmaOf c ((k - 0x20) / 4)
      some (match k % 4 with | 0 => d.dloc.toNat | 1 => d.dext.toNat | 2 => d.dcnt.toNat | _ => d.ctl)
    else none

/-- A write to MODE: its two successors run under the modes they had before it (07 R171). -/
def Core.setMode (c : Core) (v : BitVec 32) : Core :=
  let rest := c.shadow.drop 1
  { c with shadow := c.inForce :: (rest ++ List.replicate (2 - rest.length) c.mode), mode := (v.setWidth 16) &&& 0xF#16 }

/-- A channel of a core's registers changed. -/
def Core.setDma (c : Core) (ch : Nat) (f : Dma → Dma) : Core := { c with dma := Vector.ofFn (fun j => if j.val = ch then f c.dma[j] else c.dma[j]) }

/-- A write to SR: Z, N, C and V are written, the sticky bits are cleared by ones. -/
def srWrite (sr : W16) (v : BitVec 32) : W16 := ((v.setWidth 16) &&& 0xF#16) ||| (sr &&& 0x3F0#16 &&& ~~~(v.setWidth 16))

/-- The effect of a write of a control register; none where it is read-only or has no number. -/
def Core.crWrite (c : Core) (v : BitVec 32) : Nat → Option Eff
  | 0x00 => some { core := { c with sr := srWrite c.sr v } }
  | 0x01 => some { core := c.setMode v }
  | 0x02 => some { core := { c with wc0 := v.setWidth 16 } }
  | 0x03 => some { core := { c with wf0 := v.setWidth 14 } }
  | 0x04 => some { core := { c with wl0 := v.setWidth 14 } }
  | 0x05 => some { core := { c with wc1 := v.setWidth 16 } }
  | 0x06 => some { core := { c with wf1 := v.setWidth 14 } }
  | 0x07 => some { core := { c with wl1 := v.setWidth 14 } }
  | 0x08 => some { core := { c with rc := min v.toNat 4096 } }
  | 0x10 => some { core := { c with epc := v.setWidth 14 } }
  | 0x11 => some { core := { c with estat := v.setWidth 10 } }
  | 0x12 => some { core := { c with emode := v } }
  | 0x13 => some { core := { c with eaddr := v.setWidth 24 } }
  | 0x14 => some { core := { c with ipc := v.setWidth 14 } }
  | 0x15 => some { core := { c with istat := v.setWidth 10 } }
  | 0x16 => some { core := { c with imode := v } }
  | 0x18 => some { core := { c with ien := v.setWidth 7 } }
  | 0x19 => some { core := { c with ipend := c.ipend &&& ~~~(v.setWidth 7) } }
  | 0x1A => some { core := c, side := .cmsg (v.toNat % 32) (v.toNat / 256 % 256) }
  | k =>
    if 0x20 ≤ k ∧ k ≤ 0x2F then
      let ch := (k - 0x20) / 4
      match k % 4 with
      | 0 => some { core := c.setDma ch (fun d => { d with dloc := v.setWidth 24 }) }
      | 1 => some { core := c.setDma ch (fun d => { d with dext := v }) }
      | 2 => some { core := c.setDma ch (fun d => { d with dcnt := v.setWidth 15 }) }
      | _ =>
        let c := c.setDma ch (fun d => { d with dir := v.getLsbD 1, irq := v.getLsbD 2, done := d.done && !v.getLsbD 4, err := d.err && !v.getLsbD 5 })
        some { core := c, side := if v.getLsbD 0 then .dma ch else .none }
    else none

/-- MVC. -/
def execTMvc (core : Nat) (dir : Bool) (cr : BitVec 6) (pair : BitVec 3) (rsv : BitVec 16) (s : State) : Host.Outcome State Fault Refusal :=
  let k := cr.toNat
  let c := Sys2Proof.Machine.core s core
  let none := if dir then (c.crRead core k).isNone else (c.crWrite (c.pair pair.toNat) k).isNone
  run s (issue core (rsv != 0 || none) .any (fun _ c =>
    if dir then .ok { core := c.setPair pair.toNat (BitVec.ofNat 32 ((c.crRead core k).getD 0)) }
    else .ok ((c.crWrite (c.pair pair.toNat) k).getD { core := c })))

/-! ### Loads and stores (08 R181 to R183) -/

/-- Words an access of size code `sz` moves. -/
def sizeWords (sz : Nat) : Nat := if sz = 0 then 1 else if sz = 2 then 4 else 2

/-- Whether a word of the class is undefined: a register outside its kind, MOD 3, a reserved part of OFFSET. -/
def ldBad (a : LdArgs) : Bool :=
  let limit := match a.sz.toNat with | 0 => 16 | 1 => 8 | 2 => 4 | _ => 32
  decide (limit ≤ a.reg.toNat) || a.mod == 3 || (a.mod == 0 && a.off != 0) || (a.mod == 1 && a.off.toNat % 1024 != 0)

/-- The pointer after the access. -/
def ldModify (a : LdArgs) (c : Core) : Core :=
  match a.mod.toNat with
  | 1 => c.postModify a.ptr.toNat (c.areg (8 + a.off.toNat / 1024)).toInt
  | 2 => c.postModify a.ptr.toNat a.off.toInt
  | _ => c

/-- The register a load writes, from its words, low half first. -/
def ldPut (a : LdArgs) (c : Core) (ws : List W16) : Core :=
  let r := a.reg.toNat
  let v : BitVec 32 := ws.getD 1 0 ++ ws.getD 0 0
  match a.sz.toNat with
  | 0 => c.setD r (ws.getD 0 0)
  | 1 => c.setPair r v
  | 2 => c.setLanes r ws
  | _ => c.setAreg r (v.setWidth 24)

/-- The words a store places. -/
def stData (a : LdArgs) (c : Core) : List W16 :=
  let r := a.reg.toNat
  let two := fun (v : BitVec 32) => [v.extractLsb' 0 16, v.extractLsb' 16 16]
  match a.sz.toNat with
  | 0 => [c.dn r]
  | 1 => two (c.pair r)
  | 2 => c.lanes r
  | _ => two (c.areg32 r)

/-- The address of the access. -/
def ldAddr (a : LdArgs) (c : Core) : Nat := (c.areg a.ptr.toNat).toNat

/-- A load that writes the pointer it also modifies keeps the loaded value. -/
def execTLd (a : LdArgs) (s : State) : Host.Outcome State Fault Refusal :=
  run s (issue a.core (ldBad a) .any (fun s c =>
    let n := sizeWords a.sz.toNat
    match c.accessFault (ldAddr a c) n with
    | some e => .error e
    | none => (loadWords s a.core (ldAddr a c) n).map (fun ws => { core := ldPut a (ldModify a c) ws, used := 1, forced := forcedBy c.stores (ldAddr a c) n })))

def execTSt (a : LdArgs) (s : State) : Host.Outcome State Fault Refusal :=
  run s (issue a.core (ldBad a) .any (fun _ c =>
    match c.accessFault (ldAddr a c) (sizeWords a.sz.toNat) with
    | some e => .error e
    | none => .ok { core := ldModify a { c with stores := c.stores ++ [(ldAddr a c, stData a c)] }, used := 1 }))

/-- Whether an address register code names a modifier. -/
def isM (r : Nat) : Bool := decide (8 ≤ r ∧ r < 16)

def execTLdai (core : Nat) (areg : BitVec 5) (imm : BitVec 21) (s : State) : Host.Outcome State Fault Refusal :=
  run s (issue core false .any (fun _ c => .ok { core := c.setAreg areg.toNat (if isM areg.toNat then imm.signExtend 24 else imm.setWidth 24) }))

def execTMovr (core : Nat) (dir : Bool) (areg : BitVec 5) (pair : BitVec 3) (rsv : BitVec 17) (s : State) : Host.Outcome State Fault Refusal :=
  run s (issue core (rsv != 0) .any (fun _ c =>
    .ok { core := if dir then c.setPair pair.toNat (c.areg32 areg.toNat) else c.setAreg areg.toNat ((c.pair pair.toNat).setWidth 24) }))

def execTModp (core : Nat) (k : BitVec 3) (m : BitVec 23) (s : State) : Host.Outcome State Fault Refusal :=
  run s (issue core false .any (fun _ c => .ok { core := c.postModify k.toNat m.toInt }))

/-! ### Interrupt entry (07 R176 to R179) -/

/-- The line that would be taken: the pending and enabled one of highest priority. -/
def Core.lineDue (c : Core) : Option Nat := (List.range 7).find? (fun i => (c.ipend &&& c.ien).getLsbD i)

/-- Entry for `line`: at a boundary within a REPEAT its hold has run out, and RPT is saved. -/
def Core.interrupt (c : Core) (line : Nat) : Core :=
  { c with
    ipc := c.pc
    istat := statWord line false c.rep c.shadow.length
    imode := saveMode c.mode c.shadow
    ipend := c.ipend &&& ~~~(BitVec.ofNat 7 (2 ^ line))
    mode := c.mode &&& 0xFFF7#16
    pc := c.vbase + BitVec.ofNat 14 (0x40 + 4 * line)
    shadow := [], rep := false, fresh := false, waiting := false }

/-- A core takes its pending interrupt, where one may be taken: enabled by the mode in force, not between a branch and its delay slot,
nor between a REPEAT and its first iteration. -/
def interruptEntry (n : Nat) (s : State) : State :=
  let c := core s n
  match c.lineDue with
  | none => s
  | some line => if c.run.isSome && !c.halted && !c.held && c.branch.isNone && !(c.rep && c.fresh) && c.inForce.getLsbD 3 then setCore s n (c.interrupt line) else s

def execInterruptEntry (core : Nat) (s : State) : Host.Outcome State Fault Refusal := runMere s (interruptEntry core)

/-! ### The end of a DMA transfer (07 R159) -/

/-- Half-word `j` of a transfer's data: in the HBM3 window, and in the core's memory. -/
def hbmHalf (w : Tbl (BitVec 64)) (ext j : Nat) : W16 := (mget 0 w (ext + j / 4)).extractLsb' (16 * (j % 4)) 16

/-- A write of one word of core memory, of core `n` or its cluster. -/
def pokeWord (n a : Nat) (v : W16) (s : State) : State :=
  if a < 0x10000 then modCore s n (fun c => { c with lmem := mset 0 c.lmem a v })
  else setClusterMem s n (mset 0 (clusterMem s n) (a - 0x100000) v)

/-- The first `k` 64-bit words of a transfer are moved, lowest first; a word that is written is no longer lost. -/
def dmaMove (n k : Nat) (d : Dma) (s : State) : State :=
  (List.range k).foldl (fun s i =>
    let a := d.loc + 4 * i
    if d.out then
      let c := core s n
      let w := fun j => memWord (clusterMem s n) c (a + j)
      modTask (unpoison s (.hbmWindow d.task (d.ext + i))) d.task (fun t => { t with hbmData := mset 0 t.hbmData (d.ext + i) (w 3 ++ w 2 ++ w 1 ++ w 0) })
    else
      let w := ((tget s.tasks d.task).map (·.hbmData)).getD []
      (List.range 4).foldl (fun s j => pokeWord n (a + j) (hbmHalf w d.ext (4 * i + j)) (unpoison s (wordOwner s n (a + j)))) s) s

/-- The word at which an uncorrectable HBM3 error ends a transfer: that of the row, or an earlier poisoned one it reads. -/
def dmaStop (s : State) (d : Dma) (moved : Nat) (bad : Bool) : Option Nat :=
  let p := if d.out then none else (List.range d.cnt).find? (fun i => poisoned s (.hbmWindow d.task (d.ext + i)))
  if bad then some (min (min moved (d.cnt - 1)) (p.getD d.cnt)) else p

/-- A transfer ends: every word is moved, or an uncorrectable HBM3 error ends it, with the words before it moved. -/
def dmaDone (n ch moved : Nat) (bad : Bool) (s : State) : State :=
  let d := dmaOf (core s n) ch
  if !d.busy then s
  else
    match dmaStop s d moved bad with
    | some k =>
      let s := dmaMove n k d s
      let o : MemOwner := .hbmWindow d.task (d.ext + k)
      let (loc, s) := draw s
      let s := if poisoned s o then s else scrub o loc.toNat true s
      raiseLine n 1 (modDma s n ch (fun d => { d with busy := false, err := true, code := 3 }))
    | none =>
      let s := dmaMove n d.cnt d s
      let s := modDma s n ch (fun d => { d with busy := false, done := true })
      if d.irq then raiseLine n (2 + ch) s else s

def execDmaDone (core ch : Nat) (moved : Nat) (uncorrectable : Bool) (s : State) : Host.Outcome State Fault Refusal :=
  runMere s (dmaDone core ch moved uncorrectable)

end Sys2Proof.Machine
end

