-- ==== Sys2Proof/Machine/TarnTask.lean ====
section
/-! DEFINITION. Chapter 09: admission and placement of tasks, their commands, runs, spares and failures. -/
namespace Sys2Proof.Machine

/-! ### The library (09 R210; the layout of PARAM is log entry 41) -/

/-- Samples of a frame at 48 kHz. -/
def Tenant.n48 (x : Tenant) : Nat := frameLen48 x.period

/-- Cycles per channel and millisecond of block, at a 48 kHz tenant. (DEDUCED, log entry 92.) -/
def libCycles (lib tail : Nat) : Nat :=
  match lib with
  | 1 => 1250 * tail + 4000
  | 2 => 9000
  | 3 => 600
  | 4 => 1500
  | 5 => 2500
  | 6 => 2000
  | 7 => 40000
  | 8 => 12000
  | 9 => 800
  | _ => 500

/-- A library task's declared block in frames: `ms` milliseconds, one frame, or the packet time of its stream. -/
def libBlock (x : Tenant) (st : Option Stream) (lib : Nat) : Nat :=
  let frames := fun (ms : Nat) => (ms * 48 + x.n48 - 1) / x.n48
  match lib with
  | 1 => frames 1
  | 2 => frames 2
  | 4 => frames 2
  | 5 | 6 => match st with
    | some st => (cSpp st.cfg * 48000 + cFs st.cfg * x.n48 - 1) / (cFs st.cfg * x.n48)
    | none => 1
  | 7 | 8 => frames 20
  | _ => 1

/-- Whether a library task refuses a parameter block. -/
def paramBad (lib : Nat) (p : List Byte) : Bool :=
  match lib with
  | 1 => !(decide (16 ≤ fld p 0 2) && decide (fld p 0 2 ≤ 256))
  | 2 => decide (30 < fld p 0 1)
  | 5 | 6 => !(decide (1 ≤ fld p 0 1) && decide (fld p 0 1 ≤ 3))
  | 9 | 10 => !allZero (slice p 0 16)
  | _ => false

def isCodec (lib : Nat) : Bool := decide (5 ≤ lib ∧ lib ≤ 8)
def isDecoder (lib : Nat) : Bool := lib == 6 || lib == 8

/-! ### Run costs (09 R200) -/

/-- The run window of a tenant in core cycles. -/
def runWindow (x : Tenant) : Nat := x.n48 * 100000 / 3 - 40000

/-- A run's cost. -/
def runCost (cycles : Nat) : Nat := cycles + 256

/-- The frames, modulo k, in which a task runs. -/
def runPhase (late : Bool) (k phase : Nat) : Nat := (phase + b2n late) % k

/-- The congruence that both congruences (modulus, residue) leave, if any. -/
def meet (a b : Nat × Nat) : Option (Nat × Nat) :=
  let n := b.1 / Nat.gcd a.1 b.1
  ((List.range n).find? (fun j => (a.2 + a.1 * j) % b.1 == b.2)).map (fun j => (a.1 * n, a.2 + a.1 * j))

/-- The greatest sum of run costs in any frame of a congruence. -/
def maxLoad (f : Nat × Nat) : List Task → Nat
  | [] => 0
  | w :: ws =>
    match meet f (w.k, runPhase w.late w.k w.phase) with
    | none => maxLoad f ws
    | some g => max (maxLoad f ws) (runCost w.cycles + maxLoad g ws)

/-- The tasks that run on a core; those it is allotted for, which one that is being unloaded no longer is (R197); and the lowest phase of
`k` with the least load. -/
def tasksOn (s : State) (cluster core : Nat) : List Task := (s.tasks.map (·.2)).filter (fun w => w.cluster == cluster && w.core == core)
def heldOn (s : State) (cluster core : Nat) : List Task := (tasksOn s cluster core).filter (fun w => !w.closing)

def bestPhase (late : Bool) (k : Nat) (ws : List Task) : Nat :=
  ((List.range k).foldl (fun (m : Nat × Nat) p =>
    let l := maxLoad (k, runPhase late k p) ws
    if p = 0 ∨ l < m.2 then (p, l) else m) (0, 0)).1

/-! ### Placement (log entry 42) -/

def up4 (n : Nat) : Nat := (n + 3) / 4 * 4

/-- The free starts of a range of `n` within `size`, at multiples of `al`, beside the ranges (start, length) in use. -/
def freeStarts (size al n : Nat) (used : List (Nat × Nat)) : List Nat :=
  (0 :: used.map (fun r => (r.1 + r.2 + al - 1) / al * al)).filter (fun a => decide (a + n ≤ size) && used.all (fun r => decide (a + n ≤ r.1 ∨ r.1 + r.2 ≤ a)))

/-- One of them: which one is the device's choice. -/
def placeRange (size al n : Nat) (used : List (Nat × Nat)) (s : State) : Nat × State :=
  let fits := freeStarts size al n used
  let (w, s) := drawBelow s fits.length
  (fits.getD w 0, s)

/-- Channels of a task's input block: those of INPUT, then one of REF. -/
def Task.chIn (w : Task) : Nat := w.channels + b2n w.hasRef
def Task.samplesIn (w : Task) (x : Tenant) : Nat := w.k * x.n
def Task.width (w : Task) : Nat := if w.fmt then 2 else 1

/-- Words of the input block, with room for a loss mask behind each channel of a stream, and of the output block. -/
def Task.inWords (w : Task) (x : Tenant) : Nat :=
  let channel := fun (r : InRef) => w.samplesIn x * w.width + if r.kind = 0 then (w.samplesIn x + 15) / 16 else 0
  w.channels * channel w.input + if w.hasRef then channel w.ref else 0
def Task.outWords (w : Task) (x : Tenant) : Nat := w.channels * w.samplesOut x w.k * w.width

/-- Words of its cluster region: the private words, the input block, the output block. -/
def Task.region (w : Task) (x : Tenant) : Nat := up4 w.cwWords + up4 (w.inWords x) + up4 (w.outWords x)

/-- The ranges in use in a core's local and instruction memory and in a cluster's memory. -/
def usedLocal (ws : List Task) : List (Nat × Nat) := ws.map (fun w => (w.localBase, w.localWords))
def imageWords (w : Task) : Nat := if w.library then 0 else (w.image.length - 2 * w.localWords) / 4
def usedImem (ws : List Task) : List (Nat × Nat) := ws.map (fun w => (w.vbase, imageWords w))
def usedCw (s : State) (cluster : Nat) : List (Nat × Nat) :=
  ((s.tasks.map (·.2)).filter (fun w => homeOf s (17 * w.cluster + w.core) == cluster)).map (fun w => (w.cwBase - 0x100000, w.region (tenant s w.tenant)))

/-- The phase a task would have on a core. -/
def phaseOn (w : Task) (auto : Bool) (ws : List Task) : Nat := if auto then bestPhase w.late w.k ws else w.phase

/-- Whether a core admits a task (R197, R200, R201). -/
def admits (s : State) (w : Task) (auto : Bool) (d : Nat) : Bool :=
  let (cl, k) := (d / 17, d % 17)
  let ws := heldOn s cl k
  let all := tasksOn s cl k
  let x := tenant s w.tenant
  let p := phaseOn w auto ws
  decide (k < 16) && !s.tarn.failed.contains d && ws.all (fun v => v.tenant == w.tenant && !v.resident) && (!w.resident || ws.isEmpty)
    && decide (runCost w.cycles + maxLoad (w.k, runPhase w.late w.k p) ws ≤ runWindow x)
    && !(freeStarts 65536 4 w.localWords (usedLocal all)).isEmpty && !(freeStarts 16384 128 (imageWords w) (usedImem all)).isEmpty
    && !(freeStarts 0x100000 4 (w.region x) (usedCw s (homeOf s d))).isEmpty

/-- The cores allotted to a tenant, in the order of logical numbers, and the core chosen: the lowest of its own that admits the task, else
the lowest free one that does (log entry 42). -/
def ownCores (s : State) (t : Nat) : List Nat := (List.range 272).filter (fun d => (heldOn s (d / 17) (d % 17)).any (fun w => w.tenant == t))
def chooseCore (s : State) (w : Task) (auto : Bool) : Option Nat :=
  ((ownCores s w.tenant).find? (admits s w auto)).or ((List.range 272).find? (fun d => (heldOn s (d / 17) (d % 17)).isEmpty && admits s w auto d))

/-! ### tarn.load -/

/-- The logical core a CORE field names, coded as CORE_ID: cluster in [8:5], core in [4:0] (log entry 42). -/
def coreField (v : Nat) : Option Nat := if v / 32 < 16 ∧ v % 32 < 16 then some (17 * (v / 32) + v % 32) else none

/-- The sampling rates of a codec: G.722 samples at 16 kHz, Opus at 8, 16, 24 or 48 kHz. (PRESUMED, log entry 110.) -/
def codecRates (lib : Nat) : List Nat := if lib = 5 ∨ lib = 6 then [16000] else [8000, 16000, 24000, 48000]

/-- The stream a codec task takes over: FORMAT 0 at the codec's sampling rate (R209). -/
def codedStream (s : State) (t lib n : Nat) : Option Stream :=
  (tget s.streams (skey (if isDecoder lib then 0 else 1) n)).filter
    (fun st => st.tenant == t && !st.closing && cFormat st.cfg == 0 && (codecRates lib).contains (cFs st.cfg))

/-- The output rates of the rate reducer (R210). -/
def reducerRates (fs : Nat) : List Nat := if fs = 48000 then [8000, 16000, 24000] else [8000, 16000, 24000, 32000, 48000]

/-- The task a tarn.load payload asks for, not yet placed. -/
def wanted (c : Ctx) (s : State) : Task :=
  let x := tenant s c.tenant
  let lib := c.u8 0 == 0
  let id := c.u8 1
  let k := if lib ∧ c.u8 3 = 0 then libBlock x (codedStream s c.tenant id (c.u16 40)) id else c.u8 3
  let input := refAt c.p 24
  let hasRef := if lib then id == 1 else !allZero (slice c.p 32 8)
  let cycles := if lib then (libCycles id (fld c.p 48 2) * c.u8 2 * k * x.n48 * (if x.rate96 then 2 else 1) + 47) / 48 else c.u32 8
  { tenant := c.tenant, cluster := 0, core := 0, library := lib, libId := id, channels := c.u8 2, k := k, phase := c.u8 4
    resident := bit (c.u8 5) 0, fmt := bit (c.u8 5) 1, cycles := cycles, localBase := 0, localWords := c.u32 12, cwBase := 0x100000, cwWords := c.u32 16
    hbm := (c.u32 20 + 4095) / 4096 * 4096, input := input, ref := refAt c.p 32, hasRef := hasRef, stream := c.u16 40, outRate := c.u8 42
    param := slice c.p 48 16, image := if lib then [] else c.p.drop 64, inQ := 0, outQ := 0, inLq := 0, outLq := 0
    late := (input.kind == 4 && inputLate s c.tenant input) || (hasRef && (refAt c.p 32).kind == 4 && inputLate s c.tenant (refAt c.p 32)) }

/-- An input reference of a task: kinds 0, 3 and 4, every channel from CH on (06 R130). -/
def taskInput (s : State) (t : Nat) (r : InRef) (channels : Nat) : Bool :=
  (r.kind == 0 || r.kind == 3 || r.kind == 4) && (List.range channels).all (fun i => inputOk s t { r with ch := r.ch + i })

/-- The failing fields. -/
def loadFields (c : Ctx) (s : State) (w : Task) : List Fail :=
  let t := c.tenant
  let x := tenant s t
  let instr := w.image.length - 2 * w.localWords
  let rateBad := w.outRate != 0xFF && (decide (9 < w.outRate) || decide (x.fs < rateHz w.outRate) || (x.n * rateHz w.outRate) % x.fs != 0)
  failIf (decide (1 < c.u8 0)) (.field 0)
    ++ failIf (if w.library then !(decide (1 ≤ w.libId) && decide (w.libId ≤ 10)) else w.libId != 0) (.field 1)
    ++ failIf (w.channels == 0 || decide (64 < w.channels)) (.field 2)
    ++ failIf (decide (64 < c.u8 3) || w.k == 0) (.field 3)
    ++ failIf (c.u8 4 != 0xFF && decide (w.k ≤ c.u8 4)) (.field 4)
    ++ failIf (decide (3 < c.u8 5)) (.field 5)
    ++ failIf (c.u16 6 != 0xFFFF && (match coreField (c.u16 6) with | none => true | some d => (heldOn s (d / 17) (d % 17)).any (fun v => v.tenant != t))) (.field 6)
    ++ failIf (w.localWords % 4 != 0 || decide (65536 < w.localWords)) (.field 12)
    ++ failIf (!w.library && (decide (w.image.length < 2 * w.localWords) || instr % 4 != 0 || decide (65536 < instr))) (.field 12)
    ++ failIf (decide (0x100000 < w.cwWords)) (.field 16)
    ++ failIf (w.library && w.libId == 1 && decide (64 < fld w.param 0 2) && w.hbm == 0) (.field 20)
    ++ failIf (!(w.library && isDecoder w.libId) && (!refClean c.p 24 || !taskInput s t w.input w.channels)) (.field 24)
    ++ failIf (if w.hasRef then !refClean c.p 32 || !taskInput s t w.ref 1 else !allZero (slice c.p 32 8)) (.field 32)
    ++ failIf (if w.library && isCodec w.libId then (codedStream s t w.libId w.stream).isNone else w.stream != 0xFFFF) (.field 40)
    ++ failIf (rateBad || (w.library && w.libId == 10 && (w.outRate == 0xFF || !(reducerRates x.fs).contains (rateHz w.outRate)))) (.field 42)
    ++ failIf (w.library && paramBad w.libId w.param) (.field 48)

/-- The core a tarn.load is placed on, if one admits the task. -/
def coreFor (c : Ctx) (s : State) (w : Task) : Option Nat :=
  if c.u16 6 = 0xFFFF then chooseCore s w (c.u8 4 == 0xFF) else (coreField (c.u16 6)).filter (admits s w (c.u8 4 == 0xFF))

/-- Two consecutive free local indices for a task's queues: what an index may not be, a choice, and whether there is one. -/
def pairUsed (s : State) (t : Nat) : List Nat := let used := lqsUsed s t; 0x3FFFF :: used ++ used.map (· - 1)
def pickPair (s : State) (t : Nat) : Nat × State :=
  let (o, s) := pickFree s (pairUsed s t) 0x40000
  (o.getD 1, s)
def pairFree (s : State) (t : Nat) : Bool :=
  numbersFree s t 2 false && (firstFree (pairUsed s t) 0x40000 (min 0x40000 ((pairUsed s t).length + 1)) 0).isSome

/-- The content of a task's local range, as its image gives it: unlisted words are zero. -/
def localContent (w : Task) (i : Nat) : W16 := if w.library then 0 else BitVec.ofNat 16 (fld w.image (4 * imageWords w + 2 * i) 2)

/-- Words of a task's local range and of its instructions on core `d`. -/
def ownsLocal (w : Task) (d : Nat) : MemOwner → Bool
  | .tarnLocal n a => n == d && decide (w.localBase ≤ a ∧ a < w.localBase + w.localWords)
  | _ => false
def ownsImem (w : Task) (d : Nat) : MemOwner → Bool
  | .tarnImem n a => n == d && decide (w.vbase ≤ a ∧ a < w.vbase + imageWords w)
  | _ => false

/-- The image is written into instruction and local memory. -/
def loadLocal (w : Task) (d : Nat) (s : State) : State :=
  modCore (clearMarks (ownsLocal w d) s) d (fun c => { c with lmem := (List.range w.localWords).foldl (fun m i => mset 0 m (w.localBase + i) (localContent w i)) c.lmem })
def loadImem (w : Task) (d : Nat) (s : State) : State :=
  modCore (clearMarks (ownsImem w d) s) d (fun c => { c with imem := (List.range (imageWords w)).foldl (fun m i => mset 0 m (w.vbase + i) (BitVec.ofNat 32 (fld w.image (4 * i) 4))) c.imem })

/-- The placement of a task on core `d`, with its queues and its charge. -/
def placeTask (w : Task) (auto : Bool) (d : Nat) (s : State) : Nat × State :=
  let (cl, k) := (d / 17, d % 17)
  let ws := heldOn s cl k
  let all := tasksOn s cl k
  let x := tenant s w.tenant
  let (n, s) := pickFree s (s.tasks.map (·.1)) 0x10000
  let n := n.getD 0
  let (vb, s) := placeRange 16384 128 (imageWords w) (usedImem all) s
  let (lb, s) := placeRange 65536 4 w.localWords (usedLocal all) s
  let (cw, s) := placeRange 0x100000 4 (w.region x) (usedCw s (homeOf s d)) s
  let (lq, s) := pickPair s w.tenant
  let (s, q1, _) := newInternal s w.tenant lq 3 (w.k + 1) n
  let (s, q2, _) := newInternal s w.tenant (lq + 1) 4 (w.k + 1) n
  let base := 0x100000 + cw
  let w := { w with
    cluster := cl, core := k, phase := phaseOn w auto ws, vbase := vb, localBase := lb, cwBase := base, inBase := base + up4 w.cwWords
    outBase := base + up4 w.cwWords + up4 (w.inWords x), inQ := q1, outQ := q2, inLq := lq, outLq := lq + 1
    order := s.tasks.foldl (fun m e => max m (e.2.order + 1)) 0 }
  let s := charge s w.tenant { cores := b2n ws.isEmpty, hbm := w.hbm }
  (n, loadImem w d (loadLocal w d (noteMade { s with tasks := tset s.tasks n w } (.task n))))

/-- The load of task `n` is complete (TASK_LOADED, with the input queue's LQ). -/
def taskLoaded (s : State) (n : Nat) : State :=
  (pendingFor s (fun w => w == .taskLoad n)).foldl (fun s p => finish s p 0 (((tget s.tasks n).map (·.inLq)).getD 0)) s

/-- The cluster fabrics of loads that Weir has admitted are awake (14 R301). -/
def clusterAwake (s : State) (cl : Nat) : State :=
  let s := [272 + cl, 288].foldl (fun s d => if domSetting s d = 0 then setDomain s d 1 else s) s
  (s.tasks.filter (fun e => e.2.cluster == cl)).foldl (fun s e => taskLoaded s e.1) s

/-- tarn.load. -/
def planTarnLoad (c : Ctx) (s : State) : Plan :=
  let w := wanted c s
  let auto := c.u8 4 == 0xFF
  let d := coreFor c s w
  let named := (coreField (c.u16 6)).filter (fun _ => c.u16 6 != 0xFFFF)
  let onto := match named with | some d => heldOn s (d / 17) (d % 17) | none => []
  let fresh := match d with | some d => (heldOn s (d / 17) (d % 17)).isEmpty | none => false
  { fails := failIf (w.library && c.len != 64) .badLength ++ loadFields c s w
      ++ failIf ((w.resident && !onto.isEmpty) || onto.any (·.resident)) (.conflict [])
      ++ quotaFails s c.tenant { queues := 2, cores := b2n fresh, hbm := w.hbm } ++ failIf (d.isNone || !pairFree s c.tenant) .noResource
    pends := true
    touch := if w.stream = 0xFFFF then [] else [.stream (skey (if isDecoder w.libId then 0 else 1) w.stream)]
    act := fun s =>
      let d := d.getD 0
      let off := domOff s (272 + d / 17)
      let (n, s) := placeTask w auto d (wake s)
      let s := if domSetting s d = 0 then setDomain s d 2 else s
      (if off then askWeir s 2 4 (.cluster (d / 17)) else s, .pend (.taskLoad n) [.task n])
    after := fun s =>
      let n := (s.ctl.pend.getLast?.map (fun p => match p.what with | .taskLoad n => n | _ => 0)).getD 0
      match tget s.tasks n with
      | some w => if s.pwr.weirQ.any (fun r => r.what == .cluster w.cluster) then s else taskLoaded s n
      | none => s }

def cmdTarnLoad : Cmd := { opcode := 0x0701, issuer := 'T', scope := 'T', ind := true, least := 64, rsvd := [(43, 5)], plan := planTarnLoad }

def execTarnLoad (r : Req) (s : State) : Host.Outcome State Fault Refusal := runCmd cmdTarnLoad r s

/-! ### The other commands -/

/-- The failing condition of a task number that names no task of the tenant. -/
def taskFails (c : Ctx) (s : State) : List Fail :=
  let n := c.u32 0
  match tget s.tasks n with
  | some w => failIf (w.tenant != c.tenant) (.field 0) ++ failIf (w.tenant == c.tenant && w.closing) (.conflict [])
  | none => [missing s (.task n) 0]

def theTask (c : Ctx) (s : State) : Option Task := (tget s.tasks (c.u32 0)).filter (fun w => w.tenant == c.tenant)

/-- tarn.unload: queues, HBM3 bytes and, with the tenant's last task on it, the core return with the response; the rest at the task's
next block boundary. -/
def planTarnUnload (c : Ctx) (s : State) : Plan :=
  change (taskFails c s) [.task (c.u32 0)] (fun s =>
    match theTask c s with
    | none => s
    | some w =>
      let last := (heldOn s w.cluster w.core).all (fun v => v.inLq == w.inLq)
      let s := dropQueue (dropQueue s w.inQ) w.outQ
      let s := refund s c.tenant { cores := b2n last, hbm := w.hbm }
      let s := closeInput s c.tenant (fun r => r.kind == 3 && r.obj == w.outLq) (some (c.u32 0))
      noteRemoved (modTask s (c.u32 0) (fun w => { w with closing := true })) (.task (c.u32 0)))

def cmdTarnUnload : Cmd := { opcode := 0x0702, issuer := 'T', scope := 'T', least := 4, plan := planTarnUnload }

def execTarnUnload (r : Req) (s : State) : Host.Outcome State Fault Refusal := runCmd cmdTarnUnload r s

/-- tarn.param. -/
def planTarnParam (c : Ctx) (s : State) : Plan :=
  let bad := match theTask c s with | some w => w.library && (paramBad w.libId (slice c.p 16 16) || (w.libId == 1 && decide (64 < fld c.p 16 2) && w.hbm == 0)) | none => false
  change (taskFails c s ++ failIf bad (.field 16)) [.task (c.u32 0)] (fun s => modTask s (c.u32 0) (fun w => { w with nextParam := some (slice c.p 16 16) }))

def cmdTarnParam : Cmd := { opcode := 0x0703, issuer := 'T', scope := 'T', least := 32, rsvd := [(4, 12)], plan := planTarnParam }

def execTarnParam (r : Req) (s : State) : Host.Outcome State Fault Refusal := runCmd cmdTarnParam r s

/-- The 64 bytes of tarn.query. -/
def taskBytes (n : Nat) (w : Task) : List Byte :=
  le4 n ++ le1 w.cluster ++ le1 w.core ++ le1 w.k ++ le1 w.phase ++ le4 w.cycles ++ le1 (b2n w.stopped) ++ zb 3 ++ le4 w.inLq ++ le4 w.outLq ++ zb 40

/-- tarn.query. -/
def planTarnQuery (c : Ctx) (s : State) : Plan := resultAt c 8 (taskFails c s) (((theTask c s).map (taskBytes (c.u32 0))).getD [])

def cmdTarnQuery : Cmd := { opcode := 0x0704, issuer := 'T', scope := 'T', query := true, least := 16, plan := planTarnQuery }

def execTarnQuery (r : Req) (s : State) : Host.Outcome State Fault Refusal := runCmd cmdTarnQuery r s

/-- tarn.restart. -/
def planTarnRestart (c : Ctx) (s : State) : Plan :=
  change (taskFails c s ++ (match theTask c s with | some w => failIf (!w.stopped) (.conflict []) | none => [])) [.task (c.u32 0)]
    (fun s => modTask s (c.u32 0) (fun w => { w with restart := true }))

def cmdTarnRestart : Cmd := { opcode := 0x0705, issuer := 'T', scope := 'T', least := 4, plan := planTarnRestart }

def execTarnRestart (r : Req) (s : State) : Host.Outcome State Fault Refusal := runCmd cmdTarnRestart r s

/-- tarn.stats: three 48-bit counters in 64 bytes. -/
def planTarnStats (c : Ctx) (s : State) : Plan :=
  resultAt c 8 (taskFails c s) (((theTask c s).map (fun w => le8 w.overruns ++ le8 w.inClip ++ le8 w.sigDrop ++ zb 40)).getD [])

def cmdTarnStats : Cmd := { opcode := 0x0706, issuer := 'T', scope := 'T', query := true, least := 16, plan := planTarnStats }

def execTarnStats (r : Req) (s : State) : Host.Outcome State Fault Refusal := runCmd cmdTarnStats r s

/-! ### Blocks (09 R198, R199, R202, R204) -/

/-- Whether an input of a task is a stream whose losses it conceals, and the loss marks of that stream's frame. -/
def masked (s : State) (r : InRef) : Bool := r.kind == 0 && ((tget s.streams r.obj).map (fun st => cConceal st.cfg == 2)).getD false
def lossMarks (s : State) (r : InRef) (n : Nat) : List Bool :=
  let m := if r.kind = 0 then ((tget s.streams r.obj).map (·.rx.mask)).getD [] else []
  m.take n ++ List.replicate (n - m.length) false

/-- The samples of one instant of a task's input, from the frame of its input and that of its reference. -/
def gatherFrame (s : State) (w : Task) : List (List F32) :=
  let frame := fun (r : InRef) => if r.kind = 4 then ((liveBus s w.tenant r.obj).map (·.out)).getD [] else inputFrame s w.tenant r
  let ins := frame w.input
  let refs := if w.hasRef then frame w.ref else []
  (List.range (tenant s w.tenant).n).map (fun j =>
    (List.range w.channels).map (fun i => (ins.getD j []).getD (w.input.ch + i) 0) ++ (if w.hasRef then [(refs.getD j []).getD w.ref.ch 0] else []))

/-- Samples that clip on entry. -/
def clipsIn (w : Task) (f : List (List F32)) : Nat := f.foldl (fun n i => n + (i.filter (fun x => (toScaled x (16 * w.width)).2)).length) 0

/-- The frame of a task's input that has just ended is taken in; at its block boundary a complete block becomes the next run's, and the
task's new parameters and a restart take effect. `m` is the frame that ended. -/
def taskFrame (n m : Nat) (s : State) : State :=
  match tget s.tasks n with
  | none => s
  | some w =>
    if !w.live then s
    else
      let f := gatherFrame s w
      let marks := fun (r : InRef) => lossMarks s r (tenant s w.tenant).n
      let w := { w with inputs := w.inputs ++ [f], inClip := inc48 w.inClip (clipsIn w f), maskIn := w.maskIn ++ [marks w.input], refIn := w.refIn ++ [marks w.ref] }
      if (m + 1) % w.k ≠ (w.phase + b2n w.late) % w.k then { s with tasks := tset s.tasks n w }
      else
        let full := decide (w.inputs.length = w.k + b2n w.late)
        let last := w.inputs.length - b2n w.late
        let restart := full && w.restart
        let w := { w with
          inputs := w.inputs.drop last, maskIn := w.maskIn.drop last, refIn := w.refIn.drop last
          masks := if masked s w.input then some (w.maskIn.take w.k).flatten else none
          refMasks := if w.hasRef && masked s w.ref then some (w.refIn.take w.k).flatten else none
          block := if full then w.inputs.take w.k else [], pendRun := full && (!w.stopped || restart)
          param := w.nextParam.getD w.param, nextParam := none, stopped := w.stopped && !restart, restart := w.restart && !restart
          started := w.started && !restart }
        let s := { s with tasks := tset s.tasks n w }
        if restart then loadLocal w (17 * w.cluster + w.core) s else s

/-! ### Runs (09 R201 to R203) -/

/-- The words of one sample. -/
def sampleWords (w : Task) (x : F32) : List W16 :=
  let v := (toScaled x (16 * w.width)).1
  if w.fmt then [BitVec.ofInt 16 v, BitVec.ofInt 16 (v / 65536)] else [BitVec.ofInt 16 v]

/-- The words of a loss mask, bit 0 of the first for the first sample. -/
def maskWords (n : Nat) (m : List Bool) : List W16 :=
  (List.range ((n + 15) / 16)).map (fun i => BitVec.ofNat 16 ((List.range 16).foldl (fun a j => a + b2n (m.getD (16 * i + j) false) * 2 ^ j) 0))

/-- The words of an input block: channel by channel, its samples, then its loss mask where its stream gives one. -/
def blockWords (w : Task) : List W16 :=
  let xs := w.block.flatten
  let mask := fun (ch : Nat) => (if ch < w.channels then w.masks else w.refMasks).map (maskWords xs.length)
  (List.range w.chIn).flatMap (fun ch => xs.flatMap (fun i => sampleWords w (i.getD ch 0)) ++ (mask ch).getD [])

/-- Words written to cluster memory from a cluster-window address. -/
def pokeCluster (cl a : Nat) (ws : List W16) (s : State) : State :=
  let s := clearMarks (fun o => match o with | .tarnCluster c b => c == cl && decide (a - 0x100000 ≤ b / 4 * 4 + 3 ∧ b / 4 * 4 < a - 0x100000 + ws.length) | _ => false) s
  let cm := (List.range ws.length).foldl (fun m i => mset 0 m (a - 0x100000 + i) (ws.getD i 0)) (tgetD s.tarn.cmem cl [])
  { s with tarn := { s.tarn with cmem := tset s.tarn.cmem cl cm } }

/-- The run record. -/
def runRecord (w : Task) : List W16 :=
  [BitVec.ofNat 16 w.inBase, BitVec.ofNat 16 (w.inBase / 65536), BitVec.ofNat 16 w.outBase, BitVec.ofNat 16 (w.outBase / 65536),
   BitVec.ofNat 16 w.blocks, BitVec.ofNat 16 (b2n (w.masks.isSome || w.refMasks.isSome) + 2 * b2n w.overran)]

/-- A core at the start of a run; DMA channels that still transfer go on. -/
def Core.startRun (c : Core) (n : Nat) (w : Task) (x : Tenant) : Core :=
  { p := Vector.ofFn (fun j => if j.val = 7 then BitVec.ofNat 24 w.localBase else 0)
    pc := BitVec.ofNat 14 (w.vbase + 0x60), vbase := BitVec.ofNat 14 w.vbase, cwbase := BitVec.ofNat 24 w.cwBase
    cwlim := BitVec.ofNat 24 (w.cwBase + w.region x - 1), dma := c.dma.map (fun d => if d.busy then d else {})
    lmem := c.lmem, imem := c.imem, run := some n }

/-- The packets that leave with the output of the run in progress: the frames of that output in which the stream's packet is built. -/
def packetsOf (s : State) (w : Task) : Nat :=
  let x := tenant s w.tenant
  let p := match tget s.streams (skey 1 w.stream) with | some st => max 1 (pace x st.cfg) | none => 1
  ((range x.frame (x.frame + w.k)).filter (fun f => (f + 1) % p == 0)).length

/-- A library run: its output is not given, sample by sample; an encoder gives the payload of each packet of its block, a decoder takes in
those its queue holds (09 R209). (DESIGN CHOICE, log entry 93.) -/
def libraryRun (n : Nat) (w : Task) (s : State) : State :=
  let x := tenant s w.tenant
  let (flat, s) := (List.range (w.samplesOut x w.k)).foldl (fun (a : List (List F32) × State) _ =>
    let (i, s) := (List.range w.channels).foldl (fun (b : List F32 × State) _ => let (v, s) := drawF b.2; (b.1 ++ [v], s)) ([], a.2)
    (a.1 ++ [i], s)) ([], s)
  let (coded, s) := if w.libId = 5 ∨ w.libId = 7 then (List.range (packetsOf s w)).foldl (fun (a : List (List Byte) × State) _ =>
      let (len, s) := drawBelow a.2 1400
      let (b, s) := drawBytes (len + 1) s
      (a.1 ++ [b.take (len + 1)], s)) (w.coded, s)
    else ([], s)
  modTask s n (fun w => { w with outs := cutFrames w x flat, coded := coded, pendRun := false, blocks := w.blocks + 1, overran := false })

/-- Whether a run of another task comes first on the core: by phase, then by the order in which they were loaded (R200). -/
def runWaits (s : State) (n : Nat) (w : Task) : Bool :=
  s.tasks.any (fun e => e.1 != n && e.2.cluster == w.cluster && e.2.core == w.core && e.2.pendRun && !e.2.stopped
    && (decide (e.2.phase < w.phase) || (e.2.phase == w.phase && decide (e.2.order < w.order))))

/-- The run window opens: a block's run starts, or a resident task's BLOCK is raised, once the core is free and no earlier run waits. The
array has reloaded instruction words that were lost (18 R351). -/
def runStart (n : Nat) (s : State) : State :=
  match tget s.tasks n with
  | none => s
  | some w =>
    let d := 17 * w.cluster + w.core
    let c := core s d
    if !w.pendRun || w.stopped || c.haltReq || (c.run.isSome && c.run != some n) || runWaits s n w then s
    else if w.library then libraryRun n w s
    else
        let s := pokeCluster (homeOf s d) w.inBase (blockWords w) s
        let rec' := runRecord w
        let s := clearMarks (fun o => ownsImem w d o || (match o with | .tarnLocal e a => e == d && decide (w.localBase ≤ a ∧ a < w.localBase + 8) | _ => false)) s
        let s := modCore s d (fun c => { c with lmem := (List.range 6).foldl (fun m i => mset 0 m (w.localBase + i) (rec'.getD i 0)) c.lmem })
        let s := modTask s n (fun w => { w with running := true, started := true, pendRun := false, signals := [], blocks := w.blocks + 1, overran := false, outs := [] })
        if w.resident ∧ w.started then raiseLine d 0 (modCore s d (fun c => { c with halted := false, held := false }))
        else modCore s d (fun c => c.startRun n w (tenant s w.tenant))

def execTarnRunStart (task : Nat) (s : State) : Host.Outcome State Fault Refusal := runMere s (runStart task)

/-- A task overran: its core halts, its block's output is zero, its next run record says so (R203). -/
def overrun (n : Nat) (s : State) : State :=
  match tget s.tasks n with
  | none => s
  | some w =>
    let s := if w.running then requestHalt (17 * w.cluster + w.core) s else s
    let due := w.overAt != some (secs s)
    let s := modTenant s w.tenant (fun x => { x with overran := x.overran ++ [n] })
    let s := modTask s n (fun w => { w with running := false, pendRun := false, outs := [], coded := [], overran := true, overruns := inc48 w.overruns 1, overAt := some (secs s) })
    if due then evT s w.tenant 0x702 n 0 0 else s

/-- The run window closes before SIGNAL 0. A standby leaves the decision to the active device (R208). -/
def runEnd (n : Nat) (s : State) : State :=
  match tget s.tasks n with
  | none => s
  | some w => if (!w.running && !w.pendRun) || follows s then s else overrun n s

def execTarnRunEnd (task : Nat) (s : State) : Host.Outcome State Fault Refusal := runMere s (runEnd task)

/-- The output of a task for the frame that has just ended. -/
def taskOut (n : Nat) (s : State) : State :=
  modTask s n (fun w => if w.stopped then { w with out := [], outs := [] } else { w with out := w.outs.headD [], outs := w.outs.drop 1 })

/-! ### Spares and failures (09 R206, R207) -/

/-- A spare takes over logical core `k` of cluster `cl`: nothing a program can see changes. -/
def spareTakes (cl k cause : Nat) (s : State) : State :=
  let d := 17 * cl + k
  let s := { s with tarn := { s.tarn with spares := tset s.tarn.spares cl k } }
  let s := modCore s d (fun c => { c with waiting := false })
  let s := setDomain (modHealth s (fun h => { h with wear := h.wear.filter (· != d) })) (17 * cl + 16) 2
  spareInserted (evD s 0x705 (32 * cl + k) 0 0) 1 (32 * cl + k) cause

def spareTakeover (cl k : Nat) (s : State) : State := if s.health.wear.contains (17 * cl + k) && tarnSpareLeft s cl then spareTakes cl k 0 s else s

def execTarnSpareTakeover (cluster core : Nat) (s : State) : Host.Outcome State Fault Refusal := runMere s (spareTakeover cluster core)

/-- Whether a core is free: in service, with no task. -/
def coreFree (s : State) (d : Nat) : Bool := decide (d % 17 < 16) && !s.tarn.failed.contains d && (tasksOn s (d / 17) (d % 17)).isEmpty

/-- The state of a core and its tasks moves to core `d`: local memory, instruction memory and registers (R206, R207). Their cluster regions
stay where they are (log entry 43). -/
def moveTasks (from' d : Nat) (s : State) : State :=
  let home := homeOf s from'
  let c := core s from'
  let s := setCore (setCore s from' {}) d { c with waiting := false }
  let s := { s with tarn := { s.tarn with homes := if home = d / 17 then tdel s.tarn.homes d else tset s.tarn.homes d home } }
  { s with tasks := s.tasks.map (fun e => if e.2.cluster = from' / 17 ∧ e.2.core = from' % 17 then (e.1, { e.2 with cluster := d / 17, core := d % 17 }) else e) }

/-- A core fails: its cluster's spare takes over, or its tasks move to a free core, or they stop. -/
def coreFail (cl k : Nat) (s : State) : State :=
  let d := 17 * cl + k
  if 16 ≤ cl ∨ 16 ≤ k ∨ s.tarn.failed.contains d then s
  else if tarnSpareLeft s cl then spareTakes cl k 1 s
  else
    let s := { s with tarn := { s.tarn with failed := d :: s.tarn.failed } }
    let ws := tasksOn s cl k
    if ws.isEmpty then s
    else
      let same := range (17 * cl) (17 * cl + 17)
      match (same ++ List.range 272).find? (coreFree s) with
      | some e => evD (moveTasks d e s) 0x705 (32 * cl + k) 0 0
      | none =>
        let s := setCore s d {}
        let s := { s with tasks := s.tasks.map (fun e =>
          if e.2.cluster = cl ∧ e.2.core = k then (e.1, { e.2 with stopped := true, running := false, pendRun := false, out := [], outs := [], coded := [] }) else e) }
        evD s 0x706 (32 * cl + k) 0 0

def execTarnCoreFail (cluster core : Nat) (s : State) : Host.Outcome State Fault Refusal := runMere s (coreFail cluster core)

end Sys2Proof.Machine
end

