-- ==== Sys2Proof/Machine/Boundary.lean ====
section
/-! DEFINITION. The frame boundary of a tenant (01 R10, R14): the frame that ends is computed under the configuration that was in force,
then what commands have set takes effect, in the order of 21 R391. -/
namespace Sys2Proof.Machine

/-! ### Host audio rings (03 R57 to R60) -/

/-- Bytes of a host ring sample by SFMT. -/
def hostBytes (sfmt : Nat) : Nat := if sfmt = 2 then 2 else 4

/-- A sample of a host ring, and whether it was bad (03 R56, 06 R141). -/
def hostSample (sfmt w : Nat) : F32 × Bool :=
  match sfmt with
  | 0 => (ofScaled (sext 24 (w / 256)) 23, false)
  | 2 => (ofScaled (sext 16 w) 15, false)
  | _ => cleanF (BitVec.ofNat 32 w)

/-- A sample as a host ring carries it (06 R142, R144). -/
def hostWord (sfmt : Nat) (x : F32) : List Byte :=
  match sfmt with
  | 0 => putLe 4 (256 * toBits 24 (toScaled x 24).1)
  | 2 => putLe 2 (toBits 16 (toScaled x 16).1)
  | _ => putLe 4 x.toNat

/-- The next entry of a host-to-device audio ring that holds a whole frame; others are discarded and counted (03 R58). `n` bounds the
entries looked at. (DEDUCED, log entry 97.) -/
def takeEntry (k len : Nat) : Nat → State → Option (List Byte) × State
  | 0, s => (none, s)
  | n + 1, s =>
    match tget s.queues k with
    | none => (none, s)
    | some q =>
      match running q with
      | none => (none, s)
      | some c =>
        if q.pi = q.ci then (none, s)
        else
          let a := entryAddr c q.ci
          let good := mread s.host a 4 == le4 len && mget 0 s.host (a + 4) == 0 && decide (len + 16 ≤ 2 ^ c.entLog)
          let q := { q with ci := nextIdx c q.ci, consumed := inc48 q.consumed 1, badEnt := if good then q.badEnt else inc48 q.badEnt 1 }
          let d := mread s.host (a + 16) len
          let s := addUnsig { s with queues := tset s.queues k q } k 1
          if good then (some d, s) else takeEntry k len n s

/-- At a boundary a host-to-device audio ring of tenant `t` gives the frame that begins its data: zeros where it has no entry, counted
as an underrun, and silence while the tenant is unbound (03 R52, R59). A standby takes the active device's (16 R324). -/
def ringIn (t k : Nat) (s : State) : State :=
  match tget s.queues k with
  | none => s
  | some q =>
    match running q with
    | none => s
    | some c =>
      if q.typ ≠ 5 ∨ c.link = 0xFFFF ∨ follows s then s
      else
        let put := fun (s : State) (f : List (List F32)) (f' : Queue → Queue) => { s with queues := tmod s.queues k (fun q => f' { q with frame := f }) }
        if !bound s t then put s [] id
        else
          let x := tenant s t
          let w := (groupWidth s t c.link).getD 0
          let b := hostBytes c.sfmt
          let (d, s) := takeEntry k (x.n * w * b) (occ q c) s
          match d with
          | some d =>
            let vs := (List.range x.n).map (fun i => (List.range w).map (fun j => hostSample c.sfmt (fld d ((i * w + j) * b) b)))
            let bad := vs.foldl (fun n i => n + (i.filter (·.2)).length) 0
            modMix (put s (vs.map (fun i => i.map (·.1))) (fun q => { q with runUnder := false })) t (fun m => { m with badSample := inc48 m.badSample bad })
          | none =>
            let first := !q.runUnder
            let s := setInt (put s [] (fun q => { q with runUnder := true, under := inc48 q.under 1 })) (fnOf t) .underrun
            if first then evT s t 0x303 q.lq 0 0 else s

/-- A device-to-host audio ring gets the frame of its bus that has ended. Its entry carries no time (DESIGN CHOICE, log entry 44). -/
def ringOut (t k : Nat) (s : State) : State :=
  match tget s.queues k with
  | none => s
  | some q =>
    match running q with
    | none => s
    | some c =>
      if q.typ ≠ 6 ∨ c.link = 0xFFFF then s
      else
        let b := liveBus s t c.link
        let w := (b.map (·.width)).getD ((groupWidth s t c.link).getD 0)
        let f := (b.map (·.out)).getD []
        let f := if f.isEmpty then List.replicate (tenant s t).n (zeroInstant w) else f
        d2hWrite s k 0 0xFFFF none (f.flatMap (fun i => i.flatMap (hostWord c.sfmt)))

/-- The queues of tenant `t`, by number. -/
def queuesOf (s : State) (t : Nat) : List Nat := (s.queues.filter (fun e => e.2.tenant == t)).map (·.1)

/-! ### The frame that ends -/

/-- Runs that have not ended by the boundary overran (09 R203); a standby takes the active device's decisions where it has them (09
R208). -/
def tasksClose (t : Nat) (vals : Option TwinVals) (s : State) : State :=
  (s.tasks.filter (fun e => e.2.tenant == t)).foldl (fun s e =>
    let w := (tget s.tasks e.1).getD e.2
    match vals with
    | none => taskOut e.1 (if w.running || w.pendRun then overrun e.1 s else s)
    | some v =>
      let s := if v.overran.contains e.1 then overrun e.1 s else s
      let s := match v.faults.find? (fun f => f.1 == e.1) with | some f => taskStops s e.1 f.2 | none => s
      let s := taskOut e.1 s
      if v.zeroed.contains e.1 then modTask s e.1 (fun w => { w with out := [] }) else s) s

/-- The active device's values for stream `k`, where a standby has them. -/
def valsOf (vals : Option TwinVals) (k : Nat) : Option TwinStream := vals.bind (fun v => v.streams.find? (fun x => x.stream == k))

/-- The receive streams of tenant `t` play out the frame of `n` instants from `c0`. (DEDUCED, log entry 98.) -/
def streamsClose (t c0 n : Nat) (vals : Option TwinVals) (s : State) : State × List TwinStream :=
  (s.streams.filter (fun e => decide (e.1 < 65536) && e.2.tenant == t)).foldl (fun (a : State × List TwinStream) e =>
    let (s, v) := rxFrame e.1 c0 n (valsOf vals e.1) a.1
    (s, a.2 ++ v.toList)) (s, [])

/-- The local ports that tenant `t` has until the boundary. -/
def portsOf (s : State) (t : Nat) : List Nat := (s.lps.filter (fun e => e.2.owner == t)).map (·.1)

/-- A local port after a frame of `n` instants: its input's frame, and the steps of a mode switch, which its output makes too (12 R261). -/
def portClose (k c0 n : Nat) (s : State) : State :=
  let s := lpInputFrame k c0 n s
  modLp s k (fun l =>
    let (cv, _) := l.conv.switched n
    let (oc, _) := l.outPath.switched n
    let turned := cv.mode != l.conv.mode
    { l with
      conv := cv, outc := { oc with switch := none, units := 0 }, inNext := if turned && cv.mode != 2 then none else l.inNext
      delay := if turned then (l.conv.switch.map (·.slips)).getD 0 else l.delay
      cfg := if turned && !l.cfg.isEmpty then lpSetMode k cv.mode l.cfg else l.cfg })

/-- A bus whose queue context was lost carries nothing (18 R351). -/
def deadBuses (t n : Nat) (s : State) : State :=
  (tenant s t).mix.buses.foldl (fun s e =>
    if e.2.live && !e.2.closing && ((tget s.queues e.2.q).bind running).isNone then modBus s t e.1 (fun b => { b with out := List.replicate n (zeroInstant b.width) }) else s) s

/-- The mix, and the fade of a shed tenant (06 R149). -/
def mixClose (t n : Nat) (s : State) : State :=
  let s := deadBuses t n (mixFrame t n s)
  modMix s t (fun m => if m.shed then { m with shedFrames := inc48 m.shedFrames 1, faded := min 16 (m.faded + n) } else m)

/-- What a standby takes from the active device before it mixes: host-ring entries; and what the active device applied during the frame,
for the next one: key transitions, shedding, and schedule entries; and what it lost (16 R324, 13 R284, 18 R352). -/
def takeVals (t : Nat) (v : TwinVals) (s : State) : State :=
  let s := v.rings.foldl (fun s r => match findQ s t r.1 with | some k => { s with queues := tmod s.queues k (fun q => { q with frame := r.2 }) } | none => s) s
  let s := v.keys.foldl (fun s k => keyToPool s v.tenant k.1 k.2.1 k.2.2.1 k.2.2.2.1 k.2.2.2.2) s
  let s := v.acts.foldl schedShoot s
  let s := v.queues.foldl (fun s q => match findQ s t q with | some k => lostWord s (.queueCtx k) | none => s) s
  let s := v.buses.foldl (fun s b => modBus s t b (fun b => { b with ue := true })) s
  modMix s t (fun m => if v.shed && !m.shed then { m with fading := true } else m)

/-- What an active device sends its standby for the frame: 16 R324 with 05 R128. Which packets the standby lacks this device does not
compute: it sends the samples of all it presented (log entry 45). -/
def sendVals (t m : Nat) (xs : List TwinStream) (lost : List Nat) (s : State) : State :=
  if role s ≠ 2 then s
  else
    let x := tenant s t
    let rings := (s.queues.filter (fun e => e.2.tenant == t && e.2.typ == 5 && (e.2.ctx.map (·.link)).getD 0xFFFF != 0xFFFF)).map (fun e => (e.2.lq, e.2.frame))
    let zeroed := (s.tasks.filter (fun e => e.2.tenant == t && e.2.out.isEmpty)).map (·.1)
    emit s (.twinValues { tenant := t, frame := m, ahead := false, streams := xs, rings := rings, keys := x.keyed, shed := x.mix.shed || x.mix.fading, zeroed := zeroed, overran := x.overran, faults := x.faulted, acts := x.acted
                          buses := lost, queues := (s.queues.filter (fun e => e.2.tenant == t && (e.2.ctx.map (·.state)) == some 4)).map (·.2.lq), ports := [], onTime := true })

/-- The frame that ends is computed. -/
def closeFrame (t : Nat) (s : State) : State :=
  let x := tenant s t
  let m := x.frame
  let n := x.n - x.skip
  let c0 := m * x.n + x.skip
  let vals := if follows s then x.vals.filter (fun v => v.frame == m) else none
  let s := if follows s && vals.isNone then valuesMissed s else s
  let s := match vals with | some v => takeVals t v s | none => s
  let s := match x.ratios with | some v => if follows s && v.frame == m then takeRatios v s else s | none => s
  let s := tasksClose t vals s
  let (s, xs) := streamsClose t c0 n vals s
  let s := (portsOf s t).foldl (fun s k => portClose k c0 n s) s
  let lost := ((tenant s t).mix.buses.filter (·.2.ue)).map (·.1)
  let s := mixClose t n s
  let s := ((s.tasks.filter (fun e => e.2.tenant == t)).map (·.1)).foldl (fun s k => taskFrame k m s) s
  let s := (portsOf s t).foldl (fun s k => lpOutputFrame k m s) s
  let s := (queuesOf s t).foldl (fun s k => ringOut t k s) s
  let s := sendVals t m xs lost s
  modTenant s t (fun x => { x with vals := none, acted := [], keyed := [], overran := [], faulted := [] })

/-! ### Shadow compare (16 R325) -/

/-- The output CRCs of frame `m` of tenant `t`: of the payload built from it for every transmit stream, by its key in the table, and of
the samples of every local output, as network-order binary32 words, by 2^31 + its code (DESIGN CHOICE, log entry 46). -/
def frameCrcs (t m : Nat) (s : State) : List (Nat × Nat) :=
  let x := tenant s t
  let tx := s.streams.filter (fun e => decide (65536 ≤ e.1) && e.2.tenant == t && e.2.live && (m + 1) % max 1 (pace x e.2.cfg) == 0)
  tx.map (fun e => (e.1, (crc32 ((e.2.tx.pkt.map (·.payload)).getD [])).toNat))
    ++ (s.lps.filter (fun e => e.2.owner == t && decide (0 < lpOuts e.1 e.2.cfg))).map (fun e =>
      (2 ^ 31 + e.1, (crc32 ((e.2.outc.past.filter (fun p => p.pos / x.n == m)).reverse.flatMap (fun p => p.data.flatMap (fun v => putBe 4 v.toNat)))).toNat))

/-- A device of a pair keeps the CRCs and sends them to the other; those of the last 64 frames wait for comparison. -/
def shadowOut (t m : Nat) (s : State) : State :=
  if role s = 0 then s
  else
    let cs := frameCrcs t m s
    emit (modTwin s (fun w => { w with crcs := (w.crcs ++ [(t, m, cs)]).drop (w.crcs.length + 1 - 64) })) (.shadow t m cs)

/-! ### What takes effect: streams -/

/-- The fields of stream.modify. -/
def Stream.modified (st : Stream) (p : List Byte) : Stream :=
  let m := fld p 3 1
  let c := if bit m 0 then patch st.cfg 15 (slice p 4 1) else st.cfg
  let c := if bit m 1 then patch c 28 (slice p 5 1) else c
  let c := if bit m 2 then patch c 29 (slice p 6 1) else c
  { st with cfg := c, legEn := if bit m 3 then fld p 7 1 else st.legEn, modify := none }

/-- A closing stream is gone: its number, its Eddy units; loop streams that name it as PEER lose it (04, 05 R119). A transmit stream
sends its last packet first. -/
def endStream (k : Nat) (s : State) : State :=
  match tget s.streams k with
  | none => s
  | some st =>
    let s := if 65536 ≤ k ∧ st.live then calendarSlot (ringLanes s) (k - 65536) 1 (calendarSlot (ringLanes s) (k - 65536) 0 s) else s
    let s := clearMarks (fun o => match o with | .jitter n _ => n == k | .eddyState n => n == k | _ => false) { s with streams := tdel s.streams k }
    let s := freeQueue s st.q
    let s := if 65536 ≤ k then { s with streams := s.streams.map (fun e =>
        if e.1 < 65536 ∧ cLoop e.2.cfg ∧ cPeer e.2.cfg = k - 65536 then (e.1, { e.2 with peerGone := true }) else e) } else s
    noteRemoved s (.stream k)

/-- A stream at a boundary. A transmit leg ends the LPI of its port (10 R227). -/
def streamOpen (k : Nat) (s : State) : State :=
  match tget s.streams k with
  | none => s
  | some st =>
    if st.closing then endStream k s
    else
      let new := st.newKey
      let st := match st.modify with | some p => st.modified p | none => st
      let est := match st.estNext with | some p => estApply st.rx.est p | none => st.rx.est
      let conv := { st.rx.conv with switch := st.rx.conv.switch.map (fun w => { w with live := true }) }
      let s := modStream s k (fun _ => { st with live := true, key := new.or st.key, newKey := none, estNext := none, rx := { st.rx with est := est, conv := conv } })
      let s := if 65536 ≤ k then (legOffs st.cfg).foldl (fun s o => endLpi s (legPort st.cfg o)) s else s
      match new with
      | some y => streamEv s k 0x409 y.keyId
      | none => s

/-- Every stream of tenant `t`: the packets of the frame that has ended are built, then each stream's changes begin. -/
def streamsOpen (t m : Nat) (s : State) : State :=
  let ks := (s.streams.filter (fun e => e.2.tenant == t)).map (·.1)
  let s := ks.foldl (fun s k =>
    match tget s.streams k with
    | some st => if 65536 ≤ k ∧ st.live ∧ ((tget s.queues st.q).bind running).isSome then buildPacket k m s else s
    | none => s) s
  ks.foldl (fun s k => streamOpen k s) (if m = 0 then s else shadowOut t (m - 1) s)

/-! ### What takes effect: local ports -/

/-- A configuration in force: an idle port takes it whole; a running one changes its mode by a switch of 256 samples (12 R261). A mode other
than the one a switch is bringing in waits for that switch to end (DESIGN CHOICE, log entry 54). -/
def lpTakeConfig (k : Nat) (p : List Byte) (s : State) : State :=
  let l := lp s k
  let fsT := (tenant s l.tenant).fs
  let busy := !(l.state == 0 || l.state == 5) && !l.cfg.isEmpty
  let old := lpMode k l.cfg
  let new := lpMode k p
  let target := (l.conv.switch.map (·.mode)).getD old
  let settled := l.settled && lpSyn p == lpSyn l.cfg
  if busy ∧ target ≠ new then
    if l.conv.switch.isSome then s
    else modLp s k (fun l => { l with
      cfg := lpSetMode k old p, next := none, settled := settled
      conv := { l.conv with mode := old, switch := some { startSwitch old new 256 fsT with live := true }, units := lpUnits k (lpSetMode k old p) fsT, pendUnits := lpUnits k p fsT } })
  else if busy then
    modLp s k (fun l => { l with
      cfg := lpSetMode k old p, next := none, settled := settled
      conv := if l.conv.switch.isSome then l.conv else { l.conv with units := lpUnits k p fsT, pendUnits := 0 } })
  else
    modLp s k (fun l => { l with
      cfg := p, next := none, settled := settled, outc := {}, delay := 0, conv := { l.conv with mode := new, switch := none, units := lpUnits k p fsT, pendUnits := 0 } })

/-- Local port `k` at a boundary of tenant `t`: if it was given away the configuration it had goes, and its own changes begin. -/
def lpBoundary (t k : Nat) (s : State) : State :=
  let s := if (lp s k).prev = t then lpReset s k else s
  if (lp s k).owner ≠ t then s
  else
    let s := match (lp s k).next with | some p => lpTakeConfig k p s | none => s
    let s := modLp s k (fun l => { l with conv := { l.conv with switch := l.conv.switch.map (fun w => { w with live := true }) } })
    lpOutSlip k (if (lp s k).startLive then s else lpStartBoundary s k)

/-- Every local port of a boundary, and the stops that waited for nothing else. -/
def portsOpen (t : Nat) (s : State) : State := stopCheck ((s.lps.map (·.1)).foldl (fun s k => lpBoundary t k s) s)

/-! ### What takes effect: queues, mix, tasks -/

/-- A queue at a boundary: its new context, or its end (03 R56). -/
def queueOpen (k : Nat) (s : State) : State :=
  match tget s.queues k with
  | none => s
  | some q =>
    if q.destroy then endQueue s k
    else
      let s := checkIrq { s with queues := tset s.queues k { q with ctx := q.next.or q.ctx, next := none } } k
      if q.typ = 7 ∧ q.lq = 0 then drain (fnOf q.tenant) ((tgetD s.fns (fnOf q.tenant) {}).held.length + 1) s else s

/-- The binding of tenant `t` at a boundary: bound again, its completion records held so far are written first (03 R52, R66). -/
def bindOpen (t : Nat) (s : State) : State :=
  match (tenant s t).nextBound with
  | none => s
  | some b =>
    let s := setBound (modTenant s t (fun x => { x with nextBound := none })) t b
    if b then drain (t + 1) ((tgetD s.fns (t + 1) {}).held.length + 1) s else s

/-- The mix at a boundary: crosspoints that have faded go, the rest take their targets; a tenant to be shed begins to fade. -/
def mixOpen (t : Nat) (s : State) : State :=
  dropFaded (modMix s t (fun m =>
    let m := busBoundary s.tasks m
    if m.fading then { m with shed := true, fading := false, faded := 0 } else m)) t

/-- The tasks that are being unloaded from a core and keep another one from it: of another tenant, or where either is resident (09 R197,
R201). -/
def leaving (s : State) (w : Task) : List Task :=
  (tasksOn s w.cluster w.core).filter (fun v => v.closing && (v.tenant != w.tenant || v.resident || w.resident))

/-- A task at the boundary that begins frame `m`: one whose load is complete takes part from here; one that is unloaded goes at its block
boundary, with the crosspoints it feeds (09 R197, 06 R151). -/
def taskOpen (n m : Nat) (s : State) : State :=
  match tget s.tasks n with
  | none => s
  | some w =>
    if w.closing then
      if w.live ∧ m % w.k ≠ (w.phase + b2n w.late) % w.k then s
      else
        let d := 17 * w.cluster + w.core
        let s := if (core s d).run = some n then modCore (drainAll d s) d (fun c => { c with run := none, halted := true }) else s
        let s := { s with tasks := tdel s.tasks n }
        if (tasksOn s w.cluster w.core).isEmpty then { s with tarn := { s.tarn with homes := tdel s.tarn.homes d } } else s
    else if (pendingFor s (fun w => w == .taskLoad n)).isEmpty && (leaving s w).isEmpty then modTask s n (fun w => { w with live := true })
    else s

/-- The tasks of tenant `t` at a boundary. -/
def tasksOpen (t m : Nat) (s : State) : State := ((s.tasks.filter (fun e => e.2.tenant == t)).map (·.1)).foldl (fun s n => taskOpen n m s) s

/-- The media clock's binding; the frame in progress then is the one the clock stands in, and what ALIGN has passed over of it is left
out of it (05 R113). -/
def clockOpen (t : Nat) (s : State) : State :=
  if (tenant s t).mclk.staged.isNone then s
  else
    let (s, stepped) := bindClock s t
    if stepped then modTenant s t (fun x => { x with frame := x.mclk.ext / x.n, skip := x.mclk.ext % x.n }) else s

/-! ### tenant.destroy (03) -/

/-- Every pending command of a tenant that is going ends with CONFLICT; the tenant.destroy itself ends well. -/
def endPending (t : Nat) (s : State) : State :=
  let s := (pendingFor s (fun w => w == .tenantDestroy t)).foldl (fun s p => finish s p 0 0) s
  let mine := fun (w : PendWhat) => match w with
    | .modeSwitch k => ownsStream s t k
    | .taskLoad n => ((tget s.tasks n).map (·.tenant)) == some t
    | _ => false
  (pendingFor s mine).foldl (fun s p => finish s p 0x0501 0) s

/-- What else of the device is the tenant's: synthesisers that follow its clock, schedule entries, field ports, GPIO keys, a stated
tolerance, legacy cascade. -/
def releaseShared (t : Nat) (s : State) : State :=
  let s := ((s.syns.filter (fun e => e.2.tenant == t && (e.2.holder == 1 || e.2.holder == 3))).map (·.1)).foldl (fun s n => synRelease s n) s
  let s := if cascMaster s && s.cway.legacy == some t then emit s (.saiClock false) else s
  { s with
    sched := s.sched.filter (fun e => e.2.owner != t)
    fld := s.fld.map (fun e => if e.2.tenant = t then (e.1, { e.2 with tenant := 0xFFFF }) else e)
    gpioKeys := s.gpioKeys.filter (fun e => e.2.tenant != t)
    pwr := { s.pwr with tenantTol := tdel s.pwr.tenantTol t }
    cway := { s.cway with legacy := s.cway.legacy.filter (· != t), legacyNext := s.cway.legacyNext.filter (fun e => e.2.1 != t) } }

/-- A tenant is dismantled at its boundary: transmit streams after their last packet, local ports to their reset state, the VF unbound,
and every queue and resource released. (DEDUCED, log entry 18.) -/
def dismantle (t m : Nat) (s : State) : State :=
  let ks := (s.streams.filter (fun e => e.2.tenant == t)).map (·.1)
  let s := ks.foldl (fun s k => match tget s.streams k with | some st => if 65536 ≤ k ∧ st.live then buildPacket k m s else s | none => s) s
  let s := endPending t s
  let s := ks.foldl (fun s k => endStream k s) s
  let s := (s.lps.filter (fun e => e.2.tenant == t)).foldl (fun s e => modLp (lpRelease s e.1 0xFFFF) e.1 (fun l => { l with legacy := false, stopReq := false })) s
  let s := (s.lps.map (·.1)).foldl (fun s k => lpBoundary t k s) s
  let ns := (s.tasks.filter (fun e => e.2.tenant == t)).map (·.1)
  let s := ns.foldl (fun s n =>
    let s := modTask s n (fun w => { w with closing := true, live := false })
    noteRemoved (taskOpen n m s) (.task n)) s
  let s := (queuesOf s t).foldl (fun s k => freeQueue s k) s
  let s := stopCheck (releaseShared t (setBound s t false))
  { s with tenants := tdel s.tenants t }

/-! ### The boundary -/

/-- What commands and other modes have set takes effect at the boundary that begins frame `m` (21 R391: twin, cascade, then the rest). -/
def openFrame (t m : Nat) (s : State) : State :=
  let s := if t = 0 then twinBoundary s else s
  let s := legacyBoundary t s
  let s := trigsRun (bankBoundary t s)
  let s := streamsOpen t m s
  let s := portsOpen t s
  let s := bindOpen t ((queuesOf s t).foldl (fun s k => queueOpen k s) s)
  let s := tasksOpen t m s
  let s := mixOpen t s
  let s := lossBoundary t s
  let s := modTenant s t (fun x => { x with perFn := x.nextPerFn.getD x.perFn, nextPerFn := none })
  let s := ratiosOpen t m (clockOpen t s)
  let s := (portsOf s t).foldl (fun s k => lpAim k s) s
  (queuesOf s t).foldl (fun s k => ringIn t k s) s

/-- The media clock of tenant `t` reaches its next frame boundary. -/
def frameBoundary (t : Nat) (s : State) : State :=
  if !thas s.tenants t || !mereRuns s then s
  else
    let x := tenant s t
    let s := advanceToCount t ((x.frame + 1) * x.n) s
    let s := closeFrame t s
    let s := modTenant s t (fun x => { x with frame := x.frame + 1, skip := 0 })
    let m := x.frame + 1
    let s := if (tenant s t).destroying then dismantle t m s else openFrame t m s
    { s with evs := sortEvs s.evs }

def execFrameBoundary (t : Nat) (s : State) : Host.Outcome State Fault Refusal := runMere s (frameBoundary t)

end Sys2Proof.Machine
end

