-- ==== Sys2Proof/Machine/Weir.lean ====
section
/-! DEFINITION. Chapter 19: the windows of Weir. -/
namespace Sys2Proof.Machine

/-- What starts when a request is admitted. A burst of line writes has no effect of its own, as the lines were written with the command; the
next burst of 64 lines asks in its turn. -/
def weirStart (s : State) : WeirWhat → State
  | .eddyFault b => eddyTakes s b
  | .poolFault b => poolTakes s b
  | .cluster c => clusterAwake s c
  | .eddyBank b => eddyWear s b
  | .poolBank b => poolWear s b
  | .serdes g => (List.range 4).foldl (fun s i => if portExists s (4 * g + i) && !(netPort s (4 * g + i)).link then modNet s (4 * g + i) (fun n => { n with adapting := true }) else s) s
  | .hbmExit => s
  | .lakebed n => if 64 < n then askWeir s 2 1 (.lakebed (n - 64)) else s
  | .gate d v => gateAdmit s d v

/-- Admission from the head of the queue, with `used` credits already admitted: the first request that does not fit ends it. The rest
of the queue, the credits admitted, what was admitted. -/
def weirAdmit (budget reserve : Nat) : Nat → List WeirReq → List WeirReq × Nat × List WeirWhat
  | used, [] => ([], used, [])
  | used, r :: rs =>
    if used + r.credits ≤ (if r.cls = 0 then budget else budget - reserve) then
      let (q, u, ws) := weirAdmit budget reserve (used + r.credits) rs
      (q, u, r.what :: ws)
    else (r :: rs, used, [])

/-- A staged pair that may be taken into use (19 PWR_WEIR_CFG). -/
def weirPairOk (b r : Nat) : Bool := decide (9 ≤ b ∧ b ≤ 48) && decide (3 ≤ r ∧ r ≤ 16) && decide (r + 6 ≤ b)

/-- A commit takes effect at the next window, or is refused. (DEDUCED, log entry 82.) -/
def weirCommit (s : State) : State :=
  if !s.pwr.commit then s
  else
    let (b, r) := (tripGet s .budgetSt, tripGet s .reserveSt)
    let s := modPwr s (fun p => { p with commit := false })
    if weirPairOk b r then tripSet (tripSet s .budget b) .reserve r else modPwr s (fun p => { p with commitErr := true })

/-- A window of 10 µs begins. -/
def weirWindow (s : State) : State :=
  let s := weirCommit (gridStep 2 12000 s)
  let (b, r) := (tripGet s .budget, tripGet s .reserve)
  let (q, used, ws) := weirAdmit b r 0 s.pwr.weirQ
  let s := modPwr s (fun p => { p with weirQ := q, credits := used, resUsed := used - (b - r) })
  trigsRun (ws.foldl weirStart s)

def execWeirWindow (s : State) : Host.Outcome State Fault Refusal := runMere s weirWindow

end Sys2Proof.Machine
end

