-- ==== Sys2Proof/Machine/RegMap.lean ====
section
/-! DEFINITION. Chapter 20 and the register tables of the other chapters: what each register reads. -/
namespace Sys2Proof.Machine

/-- A 64-bit register word as read, its reserved bits, and whether it is a counter (R380). -/
structure RegWord where
  val     : Nat
  rv      : Nat := 0
  counter : Bool := false
  /-- It is a register of 32 bits. -/
  half    : Bool := false
  deriving DecidableEq, Repr

/-- A mask of bits [hi:lo]. -/
def span (hi lo : Nat) : Nat := 2 ^ (hi + 1) - 2 ^ lo

/-- A counter of 48 bits. -/
def ctr48 (n : Nat) : RegWord := { val := n % 2 ^ 48, rv := span 63 48, counter := true }

/-- A register of 32 bits with its reserved bits: the upper half of its word holds no register. -/
def reg32 (v rv : Nat) : RegWord := { val := v % 2 ^ 32, rv := rv, half := true }

/-- `k` in a row of registers at `base`, 8 bytes apart. -/
def inRow (o base k : Nat) : Bool := decide (base ≤ o ∧ o < base + 8 * k)

/-! ### Mailbox windows and interrupts (02, 03) -/

/-- MBX_STATUS. -/
def mbxStatus (s : State) (mb : Nat) : Nat :=
  let m := mbox s mb
  b2n (mbReady s mb) + 2 * b2n (s.ctl.paused || s.ctl.failover) + 4 * b2n m.busySeen + 8 * b2n m.dbErr + 16 * b2n m.slotErr

/-- A mailbox window: the rings, then the registers. -/
def mbxWord (s : State) (mb o : Nat) : Option RegWord :=
  let m := mbox s mb
  if o < 0x1000 then some { val := leNat (mread m.cmd o 8) }
  else if o < 0x1800 then some { val := leNat (mread m.rsp (o - 0x1000) 8) }
  else match o with
    | 0x1800 => some { val := m.pi + 65536 * m.dbResult, rv := span 15 7 + span 63 32 }
    | 0x1808 => some (reg32 m.cmdCi (span 31 7))
    | 0x1810 => some (reg32 m.rspPi (span 31 7))
    | 0x1818 => some (reg32 m.rspCi (span 31 7))
    | 0x1820 => some (reg32 (mbxStatus s mb) (span 31 5))
    | 0x1828 => some (reg32 (b2n m.irqEn) (span 31 1))
    | _ => none

/-- The W1C bits of INT_STATUS. -/
def intCauses (f : Fn) : Nat := b2n f.mbxRsp + 2 * b2n f.evqLost + 4 * b2n f.dbStray + 8 * b2n f.underrun + 16 * b2n f.d2hFull

/-- INT_STATUS of function `f`: UNBOUND for a VF whose tenant is unbound or does not exist, and INT_MODE. -/
def intStatus (s : State) (f : Nat) : Nat :=
  intCauses (tgetD s.fns f {}) + (if f = 0 then 0 else 32 * b2n (!bound s (f - 1)) + 64 * b2n (tenant s (f - 1)).perFn)

def intWord (s : State) (f o : Nat) : Option RegWord :=
  match o with
  | 0 => some (reg32 (intStatus s f) (span 31 7))
  | 8 => some (ctr48 (tgetD s.fns f {}).strayCnt)
  | 0x10 => some (ctr48 (tgetD s.fns f {}).lostCnt)
  | _ => none

/-! ### DEV (20, 02, 19) -/

/-- DEV_BOOT_STATUS and DEV_FAULT. -/
def bootStatus (s : State) : Nat :=
  let c := s.ctl
  c.stage + 16 * c.source + 64 * c.slot + 128 * b2n c.trial + 256 * c.svn + 16384 * c.rollback + 2 ^ 20 * c.failCode
def devFault (s : State) : Nat := b2n s.dev.safe + 2 * b2n s.dev.bootHalt + 4 * b2n s.ctl.mgmtDown + 8 * b2n s.dev.voteFail

def devWord (s : State) (o : Nat) : Option RegWord :=
  if inRow o 0x100 8 then some { val := tripGet s (.bind ((o - 0x100) / 8)) }
  else match o with
    | 0x00 => some { val := 0xB151201D7C, rv := span 63 40 }
    | 0x08 => some { val := Config.serial.toNat }
    | 0x10 => some (reg32 s.dev.straps (span 31 9))
    | 0x40 => some (reg32 (bootStatus s) (span 31 24))
    | 0x50 => some (reg32 (s.dev.rstCause % 32 + 32 * b2n (bit s.dev.straps 7)) (span 31 6))
    | 0x58 => some (reg32 (256 * tripGet s .armed) (span 31 9))
    | 0x60 => some (ctr48 s.dev.voteFixCnt)
    | 0x68 => some (ctr48 s.dev.voteFailCnt)
    | 0x70 => some (ctr48 s.dev.badAccess)
    | 0x80 => some (reg32 (devFault s) (span 31 4))
    | _ => none

/-- INT of PF0, with INT_VF_PEND. -/
def pfIntWord (s : State) (o : Nat) : Option RegWord :=
  if inRow o 0x1000 8 then some { val := (List.range 64).foldl (fun n j => n + b2n (intCauses (tgetD s.fns (8 * (o - 0x1000) + j + 1) {}) != 0) * 2 ^ j) 0 }
  else intWord s 0 o

/-! ### CLK, REF, TIME (14, 15, 13) -/

/-- CLK_SRC_STATUS. -/
def srcStatus (s : State) : Nat :=
  let c := s.clk
  b2n c.sosc + 2 * b2n c.foscA + 4 * b2n c.foscB + 8 * b2n c.xa + 16 * b2n c.root + 32 * (c.sds % 8) + 256 * b2n s.dev.safe + 512 * b2n c.auto

def clkWord (s : State) (o : Nat) : Option RegWord :=
  if inRow o 0x100 14 then some { val := (List.range 32).foldl (fun n j => n + domState s (4 * (o - 0x100) + j) * 4 ^ j) 0, rv := if o = 0x168 then span 63 46 else 0 }
  else match o with
    | 0x00 => some (reg32 (srcStatus s) (span 31 10))
    | 0x08 => some (reg32 (tripGet s .foscSel + 2 * tripGet s .coreSrc + 4 * bits s.dev.straps 6 5) (span 31 4))
    | 0x10 => some (reg32 s.clk.fault (span 31 9))
    | 0x18 => some (ctr48 s.clk.retries)
    | 0x20 => some (reg32 (s.clk.devA % 65536 + 65536 * (s.clk.devB % 65536)) 0)
    | _ => none

/-- A candidate's register, and a synthesiser's. -/
def candWord (s : State) (n : Nat) : Nat :=
  let c := cand s n
  c.state + 4 * b2n (refSel s == n) + 256 * toBits 24 c.freq + 2 ^ 32 * (if c.state = 1 then c.left else 0)
def mclkRuns (s : State) (n : Nat) : Bool := bit (tripGet s .mclkOe) n && (syn s n).locked && !s.dev.safe && drivesShared s
def synWord (s : State) (n : Nat) : Nat :=
  let y := syn s n
  y.holder + 4 * b2n y.locked + 8 * b2n y.gliding + 16 * b2n (mclkRuns s n) + 256 * (if y.holder = 1 then y.tenant else 0) + 2 ^ 32 * y.freq

/-- REF_STATUS: the phase error in ns, saturating. -/
def refStatus (s : State) : Nat :=
  let r := s.refs
  r.state + 8 * b2n (r.force != 0) + 16 * b2n (!r.hist.isEmpty) + 256 * refSel s + 65536 * toBits 16 (clampI (-32768) 32767 (divEvenI r.err 256000))

def refWord (s : State) (o : Nat) : Option RegWord :=
  if inRow o 0x100 66 then some { val := candWord s ((o - 0x100) / 8), rv := span 7 3 + span 63 48 }
  else if inRow o 0x400 8 then some { val := synWord s ((o - 0x400) / 8), rv := span 7 5 + span 31 18 }
  else match o with
    | 0x00 => some (reg32 (refStatus s) (span 7 5 + span 15 15))
    | 0x08 => some (reg32 (refSel s) (span 31 7))
    | 0x10 => some (reg32 (tripGet s .mclkOe) (span 31 8))
    | 0x18 => some (reg32 s.refs.fault (span 31 5))
    | 0x20 => some (reg32 (toBits 16 s.refs.xaCal) (span 31 16))
    | _ => none

/-- A time base's registers. -/
def tbWord (s : State) (t o : Nat) : Option RegWord :=
  let b := tb s t
  match o with
  | 0x00 => some { val := b.now % 2 ^ 48, rv := span 63 48 }
  | 0x08 => some (reg32 (tbStatus b + 65536 * anchorAge s b) (span 15 9))
  | 0x10 => some { val := b.sec % 2 ^ 48 + 2 ^ 56 * (b.gen % 256), rv := span 55 48 }
  | 0x18 => some { val := b.ns + 2 ^ 30 * (b.gen % 4) + 2 ^ 32 * (b.low % 2 ^ 32) }
  | _ => none

/-- A port's timestamp registers. -/
def tsWord (s : State) (p o : Nat) : Option RegWord :=
  let q := tgetD s.tsPorts p {}
  match o with
  | 0x00 => some (reg32 (q.defTb + 16 * b2n q.raw) (span 31 5))
  | 0x08 => some { val := q.asymIn + 2 ^ 32 * q.asymOut }
  | 0x10 => some { val := q.corrIn % 2 ^ 32 + 2 ^ 32 * (q.corrOut % 2 ^ 32) }
  | _ => none

/-- The reserved bits of CAL_TIME, and of CAL_SET. -/
def calRv : Nat := span 15 15 + span 23 22 + span 31 30 + span 39 37 + span 47 45 + span 63 62

def calWord (s : State) (o : Nat) : Option RegWord :=
  let c := s.cal
  match o with
  | 0x3000 => some { val := c.sub + calBits c.now, rv := calRv }
  | 0x3008 => some { val := c.set, rv := calRv + span 14 0 }
  | 0x3010 => some (reg32 (65536 * c.trim) (span 15 1 + span 31 26))
  | 0x3018 => some (reg32 (b2n c.dateErr + 2 * b2n c.valid + 4 * b2n c.wrap + 8 * b2n c.xbStop + 256 * c.wday) (span 7 4 + span 31 11))
  | _ => none

/-- A timestamp port: NP0 to NP7, FP0 to FP15. -/
def tsPort (p : Nat) : Bool := decide (p < 8 ∨ (16 ≤ p ∧ p < 32))

def timeWord (s : State) (o : Nat) : Option RegWord :=
  if o < 0x1000 then tbWord s (o / 0x100) (o % 0x100)
  else if 0x2000 ≤ o ∧ o < 0x2800 then (if tsPort ((o - 0x2000) / 0x40) then tsWord s ((o - 0x2000) / 0x40) (o % 0x40) else none)
  else calWord s o

/-! ### PWR, TWIN, CWAY and CHAIN (19, 16, 17) -/

def weirRv : Nat := span 7 6 + span 15 14

def pwrWord (s : State) (o : Nat) : Option RegWord :=
  match o with
  | 0x00 => some (reg32 (s.pwr.state + 8 * b2n s.pwr.entering.isSome + 256 * (min 255 s.pwr.weirQ.length)) (span 7 4 + span 31 16))
  | 0x08 => some { val := tripGet s .budgetSt + 256 * tripGet s .reserveSt + 2 ^ 17 * b2n s.pwr.commitErr, rv := weirRv + span 63 18 }
  | 0x10 => some (reg32 (tripGet s .budget + 256 * tripGet s .reserve) (weirRv + span 31 16))
  | _ => none

def twinWord (s : State) (o : Nat) : Option RegWord :=
  match o with
  | 0x00 => some (reg32 (role s + 8 * tripGet s .own + 16 * b2n s.twin.peerOe + 32 * twinId s + 256 * s.twin.epoch) (span 7 7 + span 31 16))
  | 0x08 => some (reg32 (tripGet s .fence) (span 31 1))
  | 0x10 => some (reg32 s.twin.alarm (span 31 6))
  | _ => none

def cwayWord (s : State) (o : Nat) : Option RegWord :=
  let w := s.cway
  let c := s.chain
  if inRow o 0x100 4 then some { val := laneFree s 1 ((o - 0x100) / 8) + 2 ^ 32 * laneFree s 0 ((o - 0x100) / 8) }
  else if inRow o 0x8018 4 then some (ctr48 (tgetD s.i2c ((o - 0x8018) / 8) {}).stuck)
  else match o with
    | 0x0000 => some (reg32 (w.devNum + 64 * b2n w.numbered + 128 * b2n w.manager + 256 * w.topo + 1024 * w.link + 16384 * w.twinLink) (span 31 18))
    | 0x8000 => some (reg32 (c.addr + 128 * b2n c.assigned) (span 31 8))
    | 0x8008 => some (reg32 (b2n c.addrIn + 2 * b2n c.addrOut + 4 * b2n c.addrErr + 8 * b2n c.busTmo + 65536 * c.partials) (span 15 4))
    | 0x8010 => some (ctr48 c.denied)
    | _ => none

/-! ### NET, FLD, SAI, AES (10, 11, 12) -/

/-- The lanes of a network port in its group's mode. -/
def portLanes (s : State) (p : Nat) : List Nat :=
  if !portExists s p then [] else
  match groupMode s (p / 4) with
  | 1 => List.range 8
  | 2 => range p (p + 4)
  | 3 => [p, p + 1]
  | _ => [p]

/-- Whether a port's lanes are in electrical idle (10 R212, NET_OUT_EN; 14 R292; 19 R372; 16 R327). A group given a mode counts as
configured (DEDUCED, log entry 48). -/
def laneIdle (s : State) (p : Nat) : Bool :=
  !portExists s p || tripGet s (.netTxEn p) == 0 || s.dev.safe || !s.clk.started

def netWord (s : State) (p o : Nat) : Option RegWord :=
  let n := netPort s p
  let g := tgetD s.netGroups (p / 4) {}
  if inRow o 0x100 64 then some (ctr48 (netCtr s p ((o - 0x100) / 8)))
  else match o with
    | 0x00 => some (reg32 (p + 8 * b2n (portExists s p) + 16 * g.mode + 128 * b2n (g.fec == 1) + 256 * (portLanes s p).foldl (fun m k => m + 2 ^ k) 0) (span 31 16))
    | 0x08 => some (reg32 (b2n n.link + 2 * b2n (laneIdle s p) + 4 * b2n g.pllCal + 8 * b2n n.adapting + 16 * b2n n.localFault + 32 * b2n n.remoteFault
        + 64 * b2n n.rxLpi + 128 * b2n n.txLpi + 256 * n.held + 65536 * n.wdMask) (span 31 24))
    | 0x10 => some (reg32 n.int (span 31 7))
    | 0x18 => some (reg32 n.intEn (span 31 7))
    | 0x20 => some (reg32 (tripGet s (.netTxEn p)) (span 31 1))
    | 0x28 => some { val := beNat n.mac, rv := span 63 48 }
    | 0x30 => some { val := n.half }
    | _ => none

def fldWord (s : State) (p o : Nat) : Option RegWord :=
  let f := fldPort s p
  if inRow o 0x40 24 then some (ctr48 (tgetD f.ctr ((o - 0x40) / 8) 0))
  else match o with
    | 0x00 => some (reg32 (f.role + 4 * b2n f.plca + 8 * b2n f.configured + 16 * b2n (fldTxLegs s p) + 32 * b2n (fldAsleep s p) + 65536 * f.nodeId) (span 15 6 + span 31 24))
    | 0x08 => some (reg32 (tripGet s (.fldTxEn p)) (span 31 1))
    | 0x10 => some { val := f.half, rv := span 63 24 }
    | _ => none

/-- A local port, by its code. -/
def lpWord (s : State) (k o : Nat) : Option RegWord :=
  let l := lp s k
  if inRow o 0x100 12 then some (ctr48 (tgetD l.ctr ((o - 0x100) / 8) 0))
  else if inRow o 0x40 3 ∧ isAesIn k then some { val := fld l.csA (o - 0x40) 8 }
  else if inRow o 0x60 3 ∧ isAesIn k then some { val := fld l.csB (o - 0x60) 8 }
  else match o with
    | 0x00 => some (reg32 (l.state + 8 * b2n l.clk + 16 * l.cls + (if l.cfg.isEmpty then 0 else 256 * lpMode k l.cfg + 1024 * b2n (lpShared k l.cfg))
        + 2048 * b2n (decide (28 ≤ k ∧ k < 32) && s.cway.legacy.isSome) + 4096 * b2n l.sync) (span 31 13))
    | 0x08 => some { val := l.meas % 2 ^ 22 + 2 ^ 32 * (l.bpf % 2 ^ 11), rv := span 31 22 + span 63 43 }
    | 0x10 => some (reg32 l.int (span 31 6))
    | 0x18 => some (reg32 l.intEn (span 31 6))
    | 0x20 => some (reg32 (tripGet s (.lpTxEn k)) (span 31 1))
    | _ => none

/-- The code of the port whose registers lie at an offset of block AES. -/
def aesCode (o : Nat) : Nat := if o < 0x1000 then 0x20 + o / 0x200 else 0x28 + (o - 0x1000) / 0x200

/-! ### HLTH, GPIO (18, 20) -/

def hlthWord (s : State) (o : Nat) : Option RegWord :=
  let h := s.health
  match o with
  | 0x000 => some (reg32 (((List.range 16).filter (tarnSpareLeft s)).length + 32 * b2n (h.eddyRep.isNone && !h.eddyDead.contains 12)
      + 64 * b2n (h.poolRep.isNone && !h.poolDead.contains 8) + 128 * b2n ((s.clk.foscB || !s.clk.started) && tripGet s .foscSel == 0) + 256 * h.lkbSpares) (span 31 19))
  | 0x008 => some (reg32 h.memErr (span 31 8))
  | 0x100 => some (ctr48 h.sramCe)
  | 0x108 => some (ctr48 h.sramUe)
  | 0x110 => some (ctr48 h.hbmCe)
  | 0x118 => some (ctr48 h.hbmUe)
  | 0x120 => some (ctr48 h.lkbCe)
  | _ => none

/-- Key pins, and pins named by a pending time.schedule ACTION 2 (R387). -/
def keyPins (s : State) : Nat := s.gpioKeys.foldl (fun n e => n + 2 ^ e.1) 0
def schedPins (s : State) : Nat :=
  (List.range 32).foldl (fun n k => n + b2n (s.sched.any (fun e => fld e.2.p 3 1 == 2 && fld e.2.p 17 1 % 32 == k)) * 2 ^ k) 0

def gpioWord (s : State) (o : Nat) : Option RegWord :=
  let g := s.gpio
  if inRow o 0x100 4 then
    let p := tgetD s.i2c ((o - 0x100) / 8) {}
    some (reg32 (b2n p.busy + 2 * b2n p.sda + 4 * b2n p.scl + 8 * p.result + 64 * p.speed) (span 31 8))
  else match o with
    | 0x00 => some { val := g.inp, rv := span 63 32 }
    | 0x08 => some (reg32 g.out 0)
    | 0x10 => some (reg32 (tripGet s .gpioOe) 0)
    | 0x18 => some { val := keyPins s + 2 ^ 32 * schedPins s }
    | 0x20 => some { val := g.wakeEn + 2 ^ 32 * g.wakeLvl }
    | 0x28 => some (reg32 g.edge 0)
    | _ => none

/-! ### BAR0 of PF0 and of a VF (R383, R384) -/

/-- The 64-bit word at an aligned offset of PF BAR0. -/
def pfWord (s : State) (o : Nat) : Option RegWord :=
  let r := o % 0x10000
  match o / 0x10000 with
  | 0x0 => devWord s r
  | 0x1 => mbxWord s 0 r
  | 0x2 => pfIntWord s r
  | 0x4 => clkWord s r
  | 0x5 => refWord s r
  | 0x6 => timeWord s r
  | 0x7 => pwrWord s r
  | 0x8 => twinWord s r
  | 0x9 => cwayWord s r
  | 0xA => if r < 0x8000 then netWord s (r / 0x1000) (r % 0x1000) else none
  | 0xB => if r < 0x1000 then fldWord s (r / 0x100) (r % 0x100) else none
  | 0xC => if r < 0x8000 then lpWord s (r / 0x400) (r % 0x400) else none
  | 0xD => if r < 0x2000 then lpWord s (aesCode r) (r % 0x200) else none
  | 0xE => hlthWord s r
  | 0xF => gpioWord s r
  | _ => none

/-- TM_SEQ: AGE_MS counts from the last update. -/
def tmSeq (s : State) (f : Fn) : Nat :=
  f.seq % 2 ^ 32 + 2 ^ 32 * (match f.mirrorAt with | some a => min 0xFFFF ((s.mere - a) / 1200000) | none => 0xFFFF)

/-- The 64-bit word at an aligned offset of the BAR0 of VF `n`. -/
def vfWord (s : State) (n o : Nat) : Option RegWord :=
  let f := tgetD s.fns n {}
  if o < 0x2000 then mbxWord s n o
  else if o < 0x2018 then intWord s n (o - 0x2000)
  else if 0x3100 ≤ o ∧ o < 0x3160 then
    let k := (o - 0x3100) / 16
    some { val := if o % 16 = 0 then f.tmQuota.getD k 0 else f.tmUse.getD k 0 }
  else match o with
    | 0x2100 => some { val := n - 1 + 1024 * b2n (bound s (n - 1)) }
    | 0x3000 => some { val := tmSeq s f, rv := span 63 48 }
    | 0x3008 => some { val := f.tmMclk, rv := span 31 16 }
    | 0x3200 => some { val := f.tmStreams }
    | 0x3208 => some { val := f.tmPower }
    | _ => none

/-- What an access path reaches (R382): BAR0 with its offset; the windows at 0xFF_0000 of the chain bus and of Causeway. -/
def pathWord (s : State) (p : Path) (o : Nat) : Option RegWord :=
  match p with
  | .vf n => if 1 ≤ n ∧ n ≤ 512 then vfWord s n o else none
  | .chain => if o < 0x100000 then pfWord s o else if 0xFF0000 ≤ o ∧ o < 0xFF1830 then mbxWord s 513 (o - 0xFF0000) else none
  | .causeway => if o < 0x100000 then pfWord s o else if 0xFF0000 ≤ o ∧ o < 0xFF1830 then mbxWord s 514 (o - 0xFF0000) else none
  | _ => pfWord s o

/-- The function whose latch a path uses, and the latch's number (R380). -/
def latchOf : Path → Nat × Nat
  | .pf => (0, 0)
  | .vf n => (n, 0)
  | .chain => (0, 1)
  | .causeway => (0, 2)
  | .wellhead => (0, 3)

/-- An access that the register file does not accept (R374, R382). -/
def badAccess (s : State) : State := { s with dev := { s.dev with badAccess := inc48 s.dev.badAccess 1 } }

end Sys2Proof.Machine
end

