-- ==== Sys2Proof/Machine/Tenants.lean ====
section
/-! DEFINITION. Chapter 03, first half: tenants, their quotas and bindings. -/
namespace Sys2Proof.Machine

/-- The six quotas at payload offset 4 on. -/
def quotasOf (c : Ctx) : Use := ⟨c.u32 4, c.u32 8, c.u32 8, c.u32 12, c.u16 16, c.u32 20, c.u64 24⟩

/-- A quota outside its range (03 R48). -/
def quotaFields (q : Use) : List Fail :=
  failIf (decide (262144 < q.queues)) (.field 4) ++ failIf (decide (393216 < q.rx)) (.field 8) ++ failIf (decide (1048576 < q.xp)) (.field 12)
    ++ failIf (decide (256 < q.cores)) (.field 16) ++ failIf (decide (131072 < q.keys)) (.field 20)
    ++ failIf (decide (14 * 2 ^ 30 < q.hbm) || q.hbm % 2 ^ 20 != 0) (.field 24)

/-- tenant.create: the tenant exists, its media clock runs from 0 (05 R107), and with BIND its VF is bound. (DESIGN CHOICE, log entry 100.) -/
def planTenantCreate (c : Ctx) (s : State) : Plan :=
  let t := c.tenant
  let q := quotasOf c
  { fails := failIf (decide (1 < c.u8 0)) (.field 0) ++ failIf (decide (6 < c.u8 1)) (.field 1) ++ failIf (decide (1 < c.u8 2)) (.field 2)
      ++ failIf (decide (1 < c.u8 3)) (.field 3) ++ quotaFields q ++ failIf (thas s.tenants t) (.conflict [])
      ++ failIf (!bookable s t q) .noResource
    act := fun s =>
      let x : Tenant := { rate96 := c.u8 0 == 1, period := c.u8 1, perFn := c.u8 2 == 1, quota := q }
      let s := { s with tenants := tset s.tenants t { x with mclk := { inc := x.nomInc } } }
      (setBound s t (c.u8 3 == 1), .ok []) }

def cmdTenantCreate : Cmd :=
  { opcode := 0x0201, issuer := 'M', scope := 'T', least := 32, rsvd := [(18, 2), (32, 16)], plan := planTenantCreate }

def execTenantCreate (r : Req) (s : State) : Host.Outcome State Fault Refusal := runCmd cmdTenantCreate r s

/-- What a pending command may hold of tenant `t`: its streams, tasks and local ports (02 R36). -/
def tenantObjects (s : State) (t : Nat) : List Obj :=
  (s.streams.filter (fun e => e.2.tenant == t)).map (fun e => .stream e.1) ++ (s.tasks.filter (fun e => e.2.tenant == t)).map (fun e => .task e.1)
    ++ (s.lps.filter (fun e => e.2.tenant == t)).map (fun e => .port (0x100 + e.1))

/-- tenant.destroy: pends until the tenant's next frame boundary, where it is dismantled. -/
def planTenantDestroy (c : Ctx) (s : State) : Plan :=
  let t := c.tenant
  { touch := tenantObjects s t
    pends := true
    act := fun s => (modTenant s t (fun x => { x with destroying := true }), .pend (.tenantDestroy t) [.tenant t]) }

def cmdTenantDestroy : Cmd := { opcode := 0x0202, issuer := 'M', scope := 'T', plan := planTenantDestroy }

def execTenantDestroy (r : Req) (s : State) : Host.Outcome State Fault Refusal := runCmd cmdTenantDestroy r s

/-- The present use of a kind; for kind 2 the larger direction (03 R51). -/
def useOf (u : Use) : Nat → Nat
  | 1 => u.queues
  | 2 => max u.rx u.tx
  | 3 => u.xp
  | 4 => u.cores
  | 5 => u.keys
  | _ => u.hbm

/-- tenant.quota_set: all six quotas together, none below the present use (03 R51). -/
def planQuotaSet (c : Ctx) (s : State) : Plan :=
  let t := c.tenant
  let q := quotasOf c
  let low := (range 1 7).flatMap (fun k =>
    failIf (decide (useOf q k < useOf (tenant s t).use k)) (.conflict (le2 k ++ zb 6 ++ le8 (useOf (tenant s t).use k))))
  change (quotaFields q ++ low ++ failIf (!bookable s t q) .noResource) [] (fun s => modTenant s t (fun x => { x with quota := q }))

def cmdQuotaSet : Cmd :=
  { opcode := 0x0203, issuer := 'M', scope := 'T', least := 32, rsvd := [(0, 4), (18, 2), (32, 16)], plan := planQuotaSet }

def execTenantQuotaSet (r : Req) (s : State) : Host.Outcome State Fault Refusal := runCmd cmdQuotaSet r s

/-- tenant.bind (03 R52): from the tenant's next frame boundary the VF may act for it (02 R38). -/
def planBind (c : Ctx) (_ : State) : Plan := change [] [] (fun s => modTenant s c.tenant (fun x => { x with nextBound := some true }))

def cmdTenantBind : Cmd := { opcode := 0x0204, issuer := 'M', scope := 'T', plan := planBind }

def execTenantBind (r : Req) (s : State) : Host.Outcome State Fault Refusal := runCmd cmdTenantBind r s

/-- tenant.unbind (03 R52). -/
def planUnbind (c : Ctx) (_ : State) : Plan := change [] [] (fun s => modTenant s c.tenant (fun x => { x with nextBound := some false }))

def cmdTenantUnbind : Cmd := { opcode := 0x0205, issuer := 'M', scope := 'T', plan := planUnbind }

def execTenantUnbind (r : Req) (s : State) : Host.Outcome State Fault Refusal := runCmd cmdTenantUnbind r s

/-- tenant.query: quota and present use of a kind; for kind 2 both sums too. -/
def planTenantQuery (c : Ctx) (s : State) : Plan :=
  let k := c.u8 0
  let x := tenant s c.tenant
  answer (failIf (k == 0 || decide (6 < k)) (.field 0))
    (le8 (useOf x.quota k) ++ le8 (useOf x.use k) ++ (if k = 2 then le4 x.use.rx ++ le4 x.use.tx else []))

def cmdTenantQuery : Cmd := { opcode := 0x0206, issuer := 'T', scope := 'T', query := true, least := 1, plan := planTenantQuery }

def execTenantQuery (r : Req) (s : State) : Host.Outcome State Fault Refusal := runCmd cmdTenantQuery r s

end Sys2Proof.Machine
end

