-- ==== Sys2Proof/Machine/Regs.lean ====
section
/-! DEFINITION. Chapter 20: register writes, the vote sweep, GPIO inputs and the VF mirrors. -/
namespace Sys2Proof.Machine

/-! ### The vote sweep (R377) -/

/-- The BAR0 offset of the register of a field. -/
def tripOffset : TripField → Nat
  | .bind k => 0x100 + 8 * k
  | .armed => 0x58
  | .foscSel | .coreSrc => 0x040008
  | .refSel => 0x050008
  | .mclkOe => 0x050010
  | .role | .own => 0x080000
  | .fence => 0x080008
  | .budgetSt | .reserveSt => 0x070008
  | .budget | .reserve => 0x070010
  | .netTxEn n => 0x0A0020 + 0x1000 * n
  | .fldTxEn n => 0x0B0008 + 0x100 * n
  | .lpTxEn k => if k < 0x20 then 0x0C0020 + 0x400 * k else if k < 0x28 then 0x0D0020 + 0x200 * (k - 0x20) else 0x0D1020 + 0x200 * (k - 0x28)
  | .gpioOe => 0x0F0010

/-- The safe value of a field. -/
def tripSafe (t : Trip) : TripField → Nat
  | .foscSel | .coreSrc => t.a
  | .refSel => 0x7F
  | .role => 5
  | .fence => 1
  | .budgetSt | .budget => 12
  | .reserveSt | .reserve => 3
  | _ => 0

/-- What follows from a safe value: the DPLL enters holdover, the device is FENCED without ownership, the fence closes. -/
def tripLost (f : TripField) (s : State) : State :=
  match f with
  | .refSel => if s.refs.state = 4 then s else holdover s
  | .role => displace s 5
  | _ => s

/-- The comparison of one field's copies, as they stand. -/
def voteOne (s : State) (e : TripField × Trip) : State :=
  let f := e.1
  let t := tripCopies s.votes f
  if t.a = t.b ∧ t.b = t.c then s
  else if t.a = t.b ∨ t.a = t.c ∨ t.b = t.c then
    let s := tripSet s f (majority t)
    evD { s with dev := { s.dev with voteFixCnt := inc48 s.dev.voteFixCnt 1 } } 0x102 (tripOffset f) 0 0
  else
    let s := tripSet (tripLost f s) f (tripSafe t f)
    evD { s with dev := { s.dev with voteFailCnt := inc48 s.dev.voteFailCnt 1, voteFail := true } } 0x103 (tripOffset f) 0 0

/-- The sweep of each microsecond. -/
def voteSweep (s : State) : State :=
  let s := gridStep 3 1200 s
  s.votes.foldl voteOne s

def execVoteSweep (s : State) : Host.Outcome State Fault Refusal := runBase s voteSweep

/-- The comparison a read or a write of a register of PF BAR0 makes, beside the sweep (R377). -/
def compareAt (p : Path) (base : Nat) (s : State) : State :=
  match p with
  | .vf _ => s
  | _ => (s.votes.filter (fun e => tripOffset e.1 / 8 * 8 == base)).foldl voteOne s

/-! ### A read of 4 bytes (R374, R379, R380) -/

/-- BAR and offset of an access: the BAR's number stands above bit 31. (DEDUCED, log entry 94.) -/
def barOf (off : Nat) : Nat × Nat := (off / 2 ^ 32, off % 2 ^ 32)

/-- Whether a path reaches BAR2 and BAR4: the functions on PCIe, and Wellhead, which reaches everything (R382). -/
def barred : Path → Bool
  | .pf | .vf _ | .wellhead => true
  | _ => false

/-- Vectors of a function. -/
def vectors (f : Nat) : Nat := if f = 0 then 2048 else 64

/-- The word of 8 bytes at `o` of BAR4 of function `f`: the MSI-X table, and its pending bits (R383, PCIe specification). -/
def msixWord (s : State) (f o : Nat) : Nat :=
  let vec := fun (v : Nat) => tgetD (tgetD s.fns f {}).vecs v {}
  let pba := if f = 0 then 0x8000 else 0x1000
  if o < 16 * vectors f then (let e := vec (o / 16); if o % 16 = 0 then e.addr else e.data + 2 ^ 32 * b2n e.masked)
  else if pba ≤ o ∧ o < pba + vectors f / 8 then (List.range 64).foldl (fun n j => n + b2n (vec (8 * (o - pba) + j)).pend * 2 ^ j) 0
  else 0

/-- A 32-bit read: of a counter's low half it loads the latch; of its high half it takes the latch if that was loaded from the same
counter; across a boundary of 8 bytes it reads 0 and is counted. (DEDUCED, log entry 55.) -/
def read32 (p : Path) (o : Nat) (s : State) : State :=
  if 4 < o % 8 then emit (badAccess s) (.read p o 0)
  else if (barOf o).1 = 4 ∧ barred p = true then emit s (.read p o (msixWord s (latchOf p).1 ((barOf o).2 / 8 * 8) / 2 ^ (8 * (o % 8)) % 2 ^ 32))
  else if (barOf o).1 = 2 ∧ barred p = true then emit s (.read p o (bellIndex s (latchOf p).1 ((barOf o).2 / 8 * 8) / 2 ^ (8 * (o % 8))))
  else
    let base := o / 8 * 8
    let s := compareAt p base s
    let w := (pathWord s p base).getD { val := 0 }
    let (f, k) := latchOf p
    if w.counter && o % 8 == 0 then emit (modFn s f (fun x => { x with latch := tset x.latch k (base, w.val / 2 ^ 32) })) (.read p o (w.val % 2 ^ 32))
    else if w.counter && o % 8 == 4 then
      match tget (tgetD s.fns f {}).latch k with
      | some (c, h) => emit s (.read p o (if c = base then h else w.val / 2 ^ 32))
      | none => emit s (.read p o (w.val / 2 ^ 32))
    else emit s (.read p o (w.val / 2 ^ (8 * (o % 8)) % 2 ^ 32))

def execCounterLowRead (path : Path) (off : Nat) (s : State) : Host.Outcome State Fault Refusal := runBase s (read32 path off)

/-! ### A write of 4 or 8 bytes to an aligned word (R373 to R381) -/

/-- The bits a write carries, and which of the word's bits it reaches. -/
structure Lane where
  v : Nat
  m : Nat

/-- The new value of a field of read-write bits, of staged bits, and of bits that clear on ones. -/
def Lane.rw (l : Lane) (field old : Nat) : Nat := ((BitVec.ofNat 64 old &&& ~~~BitVec.ofNat 64 (field &&& l.m)) ||| (BitVec.ofNat 64 l.v &&& BitVec.ofNat 64 (field &&& l.m))).toNat
def Lane.w1c (l : Lane) (field old : Nat) : Nat := (BitVec.ofNat 64 old &&& ~~~BitVec.ofNat 64 (l.v &&& l.m &&& field)).toNat

/-- Whether bit `k` is written with 1. -/
def Lane.on (l : Lane) (k : Nat) : Bool := bit l.m k && bit l.v k

/-- Bits [hi:lo] of a field after a write. -/
def Lane.put (l : Lane) (hi lo old : Nat) : Nat := bits (l.rw (span hi lo) (old * 2 ^ lo)) hi lo

/-! ### The blocks -/

/-- DEV_RST_CTRL.KEY (R386): 0xD1 arms, 0x5E while armed resets, any other disarms. PF0's path alone. -/
def rstKey (key : Nat) (s : State) : State :=
  if key = 0xD1 then tripSet s .armed 1 else if key = 0x5E ∧ tripGet s .armed = 1 then restart 2 s else tripSet s .armed 0

def devWrite (o : Nat) (l : Lane) (s : State) : State :=
  match o with
  | 0x40 => if bits (l.v &&& l.m) 23 20 = 15 then { s with ctl := { s.ctl with failCode := 0 } } else s
  | 0x50 => { s with dev := { s.dev with rstCause := l.w1c (span 4 0) s.dev.rstCause } }
  | 0x58 => if bit l.m 0 then rstKey (l.v % 256) s else s
  | 0x80 => { s with dev := { s.dev with voteFail := s.dev.voteFail && !l.on 3 } }
  | _ => s

/-- A mailbox window (02): the command ring's unlocked entries, the doorbell with 8 bytes only, the response index, status and control.
An entry is locked from the doorbell that covers it until CI passes it. -/
def mbxWrite (mb o size : Nat) (l : Lane) (s : State) : State :=
  let m := mbox s mb
  if o < 0x1000 then
    let k := o / 64
    let locked := decide ((k + 64 - m.cmdCi % 64) % 64 < (m.pi + 128 - m.cmdCi) % 128)
    if locked then modMbx s mb (fun m => { m with slotErr := true })
    else modMbx s mb (fun m => { m with cmd := mwrite m.cmd o (putLe 8 (l.rw (2 ^ 64 - 1) (leNat (mread m.cmd o 8)))) })
  else match o with
    | 0x1800 => if size = 8 then wake (ringDoorbell s mb (l.v % 128)) else badAccess s
    | 0x1818 => if bit l.m 0 then rspCiWrite mb (l.v % 128) s else s
    | 0x1820 => modMbx s mb (fun m => { m with busySeen := m.busySeen && !l.on 2, dbErr := m.dbErr && !l.on 3, slotErr := m.slotErr && !l.on 4 })
    | 0x1828 => if bit l.m 0 then modMbx s mb (fun m => { m with irqEn := bit l.v 0 }) else s
    | _ => s

/-- INT_STATUS of function `f`. -/
def intWrite (f o : Nat) (l : Lane) (s : State) : State :=
  if o ≠ 0 then s
  else modFn s f (fun x => { x with
    mbxRsp := x.mbxRsp && !l.on 0, evqLost := x.evqLost && !l.on 1, dbStray := x.dbStray && !l.on 2, underrun := x.underrun && !l.on 3, d2hFull := x.d2hFull && !l.on 4 })

def clkWrite (o : Nat) (l : Lane) (s : State) : State := if o = 0x10 then modClk s (fun c => { c with fault := l.w1c (span 8 0) c.fault }) else s

def refWrite (o : Nat) (l : Lane) (s : State) : State :=
  match o with
  | 0x10 => tripSet s .mclkOe (l.put 7 0 (tripGet s .mclkOe))
  | 0x18 => modRefs s (fun r => { r with fault := l.w1c (span 4 0) r.fault })
  | _ => s

def calWrite (o : Nat) (l : Lane) (s : State) : State :=
  let c := s.cal
  match o with
  | 0x3008 => { s with cal := { c with set := l.rw (span 63 0 - calRv - span 14 0) c.set } }
  | 0x3010 => { s with cal := { c with trim := l.put 25 16 c.trim, pending := c.pending || l.on 0, syncAt := if l.on 0 then none else c.syncAt } }
  | 0x3018 => { s with cal := { c with dateErr := c.dateErr && !l.on 0, wrap := c.wrap && !l.on 2, xbStop := c.xbStop && !l.on 3 } }
  | _ => s

def timeWrite (o : Nat) (l : Lane) (s : State) : State :=
  if o < 0x1000 then (if o % 0x100 = 8 then modTb s (o / 0x100) (fun b => { b with stepRef := b.stepRef && !l.on 5, stepped := b.stepped && !l.on 6 }) else s)
  else if o < 0x2800 then
    let p := (o - 0x2000) / 0x40
    let q := tgetD s.tsPorts p {}
    match o % 0x40 with
    | 0x00 => { s with tsPorts := tset s.tsPorts p { q with defTb := l.put 3 0 q.defTb, raw := if bit l.m 4 then bit l.v 4 else q.raw } }
    | 0x08 => { s with tsPorts := tset s.tsPorts p { q with asymIn := l.put 31 0 q.asymIn, asymOut := l.put 63 32 q.asymOut } }
    | _ => s
  else calWrite o l s

/-- PWR_WEIR_CFG (19, R378). -/
def pwrWrite (o : Nat) (l : Lane) (s : State) : State :=
  if o ≠ 8 then s
  else
    let s := tripSet (tripSet s .budgetSt (l.put 5 0 (tripGet s .budgetSt))) .reserveSt (l.put 13 8 (tripGet s .reserveSt))
    modPwr s (fun p => { p with commit := p.commit || l.on 16, commitErr := p.commitErr && !l.on 17 })

def twinWrite (o : Nat) (l : Lane) (s : State) : State :=
  match o with
  | 0x08 => if bit l.m 0 then fenceWrite (l.v % 2) s else s
  | 0x10 => modTwin s (fun w => { w with alarm := l.w1c (span 5 0) w.alarm })
  | _ => s

/-- CHAIN_ADDR written by another path than the bus names the device's present address. -/
def cwayWrite (o : Nat) (l : Lane) (s : State) : State :=
  match o with
  | 0x8000 => if bit l.m 0 then chainAddrWrite (if s.chain.assigned then s.chain.addr else 0x4C) (l.v % 128) s else s
  | 0x8008 => modChain s (fun c => { c with addrErr := c.addrErr && !l.on 2, busTmo := c.busTmo && !l.on 3 })
  | _ => s

def netWrite (p o : Nat) (l : Lane) (s : State) : State :=
  match o with
  | 0x10 => modNet s p (fun n => { n with int := l.w1c (span 6 0) n.int })
  | 0x18 => modNet s p (fun n => { n with intEn := l.put 6 0 n.intEn })
  | 0x20 => if bit l.m 0 then tripSet s (.netTxEn p) (l.v % 2) else s
  | 0x30 => modNet s p (fun n => { n with half := l.w1c (span 63 0) n.half })
  | _ => s

def fldWrite (p o : Nat) (l : Lane) (s : State) : State :=
  match o with
  | 0x08 => if bit l.m 0 then tripSet s (.fldTxEn p) (l.v % 2) else s
  | 0x10 => modFld s p (fun f => { f with half := l.w1c (span 23 0) f.half })
  | _ => s

def lpWrite (k o : Nat) (l : Lane) (s : State) : State :=
  match o with
  | 0x10 => modLp s k (fun p => { p with int := l.w1c (span 5 0) p.int })
  | 0x18 => modLp s k (fun p => { p with intEn := l.put 5 0 p.intEn })
  | 0x20 => if bit l.m 0 then tripSet s (.lpTxEn k) (l.v % 2) else s
  | _ => s

def hlthWrite (o : Nat) (l : Lane) (s : State) : State := if o = 8 then modHealth s (fun h => { h with memErr := l.w1c (span 7 0) h.memErr }) else s

/-- GPIO: bits of key pins in GPIO_OUT and GPIO_OE stay as they are (R387). -/
def gpioWrite (o : Nat) (l : Lane) (s : State) : State :=
  let g := s.gpio
  let free := 2 ^ 32 - 1 - keyPins s
  match o with
  | 0x08 => { s with gpio := { g with out := l.rw free g.out } }
  | 0x10 => tripSet s .gpioOe (l.rw free (tripGet s .gpioOe))
  | 0x20 => { s with gpio := { g with wakeEn := l.put 31 0 g.wakeEn, wakeLvl := l.put 63 32 g.wakeLvl } }
  | 0x28 => { s with gpio := { g with edge := l.w1c (span 31 0) g.edge } }
  | _ => s

/-- A write to a word of PF BAR0. -/
def pfWrite (o size : Nat) (l : Lane) (s : State) : State :=
  let r := o % 0x10000
  match o / 0x10000 with
  | 0x0 => devWrite r l s
  | 0x1 => mbxWrite 0 r size l s
  | 0x2 => intWrite 0 r l s
  | 0x4 => clkWrite r l s
  | 0x5 => refWrite r l s
  | 0x6 => timeWrite r l s
  | 0x7 => pwrWrite r l s
  | 0x8 => twinWrite r l s
  | 0x9 => cwayWrite r l s
  | 0xA => netWrite (r / 0x1000) (r % 0x1000) l s
  | 0xB => fldWrite (r / 0x100) (r % 0x100) l s
  | 0xC => lpWrite (r / 0x400) (r % 0x400) l s
  | 0xD => lpWrite (aesCode r) (r % 0x200) l s
  | 0xE => hlthWrite r l s
  | 0xF => gpioWrite r l s
  | _ => s

/-- A write to a word of the BAR0 of VF `n`. -/
def vfWrite (n o size : Nat) (l : Lane) (s : State) : State :=
  if o < 0x2000 then mbxWrite n o size l s else if o < 0x2018 then intWrite n (o - 0x2000) l s else s

/-- An entry of the MSI-X table, four words of 32 bits (PCIe specification): an unmasked vector with its pending bit set sends. -/
def msixWrite (f vecs o : Nat) (l : Lane) (s : State) : State :=
  let v := o / 16
  if vecs ≤ v then s
  else
    let e := tgetD (tgetD s.fns f {}).vecs v {}
    let e' : Vec := if o % 16 = 0 then { e with addr := l.rw (2 ^ 64 - 1) e.addr } else { e with data := l.put 31 0 e.data, masked := if bit l.m 32 then bit l.v 32 else e.masked }
    let s := modFn s f (fun x => { x with vecs := tset x.vecs v { e' with pend := e'.pend && e'.masked } })
    if e.pend && !e'.masked && fnUp s f then emit s (.msix f v e'.addr e'.data) else s

/-! ### Wellhead's writes (R382) -/

/-- A counter of 48 bits after a write. -/
def Lane.ctr (l : Lane) (old : Nat) : Nat := l.put 47 0 old

/-- Wellhead writes read-only fields too: the triplicated fields, the counters, and what firmware itself keeps. A field that repeats what
hardware drives at that moment, and a fuse, has nothing to write (DEDUCED, log entry 49). -/
def wellDev (o : Nat) (l : Lane) (s : State) : State :=
  if inRow o 0x100 8 then tripSet s (.bind ((o - 0x100) / 8)) (l.rw (2 ^ 64 - 1) (tripGet s (.bind ((o - 0x100) / 8))))
  else match o with
    | 0x10 => { s with dev := { s.dev with straps := l.put 8 0 s.dev.straps } }
    | 0x40 =>
      let b := l.rw (span 13 0) (bootStatus s)
      { s with ctl := { s.ctl with stage := bits b 3 0, source := bits b 5 4, slot := bits b 6 6, trial := bit b 7, svn := bits b 13 8 } }
    | 0x58 => if bit l.m 8 then tripSet s .armed (b2n (bit l.v 8)) else s
    | 0x60 => { s with dev := { s.dev with voteFixCnt := l.ctr s.dev.voteFixCnt } }
    | 0x68 => { s with dev := { s.dev with voteFailCnt := l.ctr s.dev.voteFailCnt } }
    | 0x70 => { s with dev := { s.dev with badAccess := l.ctr s.dev.badAccess } }
    | _ => s

def wellPort (blk r : Nat) (l : Lane) (s : State) : State :=
  let at' := fun (t : Tbl Nat) (i : Nat) => tset t i (l.ctr (tgetD t i 0))
  match blk with
  | 0xA =>
    let (p, o) := (r / 0x1000, r % 0x1000)
    if inRow o 0x100 64 then modNet s p (fun n => { n with ctr := at' n.ctr ((o - 0x100) / 8) })
    else if o = 0x28 then modNet s p (fun n => { n with mac := putBe 6 (l.put 47 0 (beNat n.mac)) })
    else s
  | 0xB =>
    let (p, o) := (r / 0x100, r % 0x100)
    if inRow o 0x40 24 then modFld s p (fun f => { f with ctr := at' f.ctr ((o - 0x40) / 8) }) else s
  | 0xC =>
    let (k, o) := (r / 0x400, r % 0x400)
    if inRow o 0x100 12 then modLp s k (fun p => { p with ctr := at' p.ctr ((o - 0x100) / 8) }) else s
  | _ =>
    let (k, o) := (aesCode r, r % 0x200)
    if inRow o 0x100 12 then modLp s k (fun p => { p with ctr := at' p.ctr ((o - 0x100) / 8) }) else s

/-- What Wellhead's write to the word at `o` of PF BAR0 reaches beside what PF0's write reaches. -/
def wellWrite (o : Nat) (l : Lane) (s : State) : State :=
  let r := o % 0x10000
  let blk := o / 0x10000
  if blk = 0 then wellDev r l s
  else if 0xA ≤ blk ∧ blk ≤ 0xD then wellPort blk r l s
  else match o with
    | 0x020008 => modFn s 0 (fun f => { f with strayCnt := l.ctr f.strayCnt })
    | 0x020010 => modFn s 0 (fun f => { f with lostCnt := l.ctr f.lostCnt })
    | 0x040008 => tripSet (tripSet s .foscSel (l.put 0 0 (tripGet s .foscSel))) .coreSrc (bits (l.rw 2 (2 * tripGet s .coreSrc)) 1 1)
    | 0x040018 => modClk s (fun c => { c with retries := l.ctr c.retries })
    | 0x050008 => tripSet s .refSel (l.put 6 0 (tripGet s .refSel))
    | 0x070010 => tripSet (tripSet s .budget (l.put 5 0 (tripGet s .budget))) .reserve (l.put 13 8 (tripGet s .reserve))
    | 0x080000 => tripSet (tripSet s .role (l.put 2 0 (tripGet s .role))) .own (l.put 3 3 (tripGet s .own))
    | 0x098010 => modChain s (fun c => { c with denied := l.ctr c.denied })
    | 0x098018 | 0x098020 | 0x098028 | 0x098030 =>
      { s with i2c := tset s.i2c ((o - 0x098018) / 8) (let p := tgetD s.i2c ((o - 0x098018) / 8) {}; { p with stuck := l.ctr p.stuck }) }
    | 0x0E0100 => modHealth s (fun h => { h with sramCe := l.ctr h.sramCe })
    | 0x0E0108 => modHealth s (fun h => { h with sramUe := l.ctr h.sramUe })
    | 0x0E0110 => modHealth s (fun h => { h with hbmCe := l.ctr h.hbmCe })
    | 0x0E0118 => modHealth s (fun h => { h with hbmUe := l.ctr h.hbmUe })
    | 0x0E0120 => modHealth s (fun h => { h with lkbCe := l.ctr h.lkbCe })
    | _ => s

/-! ### A write by its access path (R382, R383) -/


/-- The word at an aligned offset that the path may write, for its reserved bits. -/
def writable (p : Path) (o : Nat) : Bool :=
  match p with
  | .chain => decide (0xFF0000 ≤ o ∧ o < 0xFF1830) || o == 0x98000
  | .causeway => decide (0xFF0000 ≤ o ∧ o < 0xFF1830)
  | _ => true

/-- The lane of a write. -/
def laneOf (off size v : Nat) : Lane :=
  if size = 8 then ⟨v % 2 ^ 64, 2 ^ 64 - 1⟩ else ⟨v % 2 ^ 32 * 2 ^ (8 * (off % 8)), (2 ^ 32 - 1) * 2 ^ (8 * (off % 8))⟩

/-- Whether a write gives a reserved bit another value than it reads (R375). (DEDUCED, log entry 47.) -/
def breaksRv (w : RegWord) (l : Lane) : Bool := ((l.v ^^^ w.val) &&& w.rv &&& l.m) != 0

/-- A write to BAR0, or to what the chain bus and Causeway see of it. -/
def bar0Write (p : Path) (o size : Nat) (l : Lane) (s : State) : State :=
  match p with
  | .vf n => vfWrite n o size l s
  | .chain => if o = 0x98000 then pfWrite o size l s else mbxWrite 513 (o - 0xFF0000) size l s
  | .causeway => mbxWrite 514 (o - 0xFF0000) size l s
  | .pf => pfWrite o size l s
  | .wellhead => wellWrite o l (pfWrite o size l s)

/-- A discarded write: the chain bus counts it in CHAIN_WR_DENIED. -/
def denied (p : Path) (s : State) : State :=
  match p with
  | .chain => modChain s (fun c => { c with denied := inc48 c.denied 1 })
  | _ => badAccess s

/-- A write of `size` bytes at `off`: none where it changes a reserved bit, whose effect the spec does not define. -/
def regWrite (p : Path) (off size v : Nat) (s : State) : Option State :=
  let (bar, o) := barOf off
  let f := (latchOf p).1
  if bar = 2 ∧ barred p = true then (if bellRv s f o size v then none else some (doorbell f o size v (wake s)))
  else if !((size = 4 ∨ size = 8) ∧ o % size = 0) then some (denied p s)
  else if bar = 4 ∧ barred p = true then some (msixWrite f (vectors f) (o / 8 * 8) (laneOf o size v) s)
  else if bar ≠ 0 ∨ !writable p (o / 8 * 8) then some (denied p s)
  else
    let base := o / 8 * 8
    let l := laneOf o size v
    match pathWord s p base with
    | none => some (denied p s)
    | some w => if w.half && size == 4 && o % 8 == 4 then some (denied p s) else if breaksRv w l then none else some (bar0Write p base size l (compareAt p base s))

/-- REGISTER_WRITE. -/
def execRegisterWrite (path : Path) (off size : Nat) (val : BitVec 64) (s : State) : Host.Outcome State Fault Refusal :=
  match regWrite path off size val.toNat s with
  | none => .fault (.reservedTestControl off)
  | some _ => runBase s (fun s => (regWrite path off size val.toNat s).getD s)

/-- W1C_WRITE: the same access to a register with W1C bits. -/
def execW1cWrite (path : Path) (off size : Nat) (val : BitVec 64) (s : State) : Host.Outcome State Fault Refusal :=
  match regWrite path off size val.toNat s with
  | none => .fault (.reservedTestControl off)
  | some _ => runBase s (fun s => (regWrite path off size val.toNat s).getD s)

/-- DEV_RST_KEY_WRITE: another path than PF0's is turned away (R382, R386). -/
def execDevRstKeyWrite (path : Path) (key : BitVec 8) (s : State) : Host.Outcome State Fault Refusal :=
  runBase s (fun s => if path = .pf ∨ path = .wellhead then rstKey key.toNat s else denied path s)

/-- ARMED lapses 1 ms after the 0xD1. -/
def execArmedLapse (s : State) : Host.Outcome State Fault Refusal := runBase s (fun s => tripSet s .armed 0)

/-- TWIN_FENCE_WRITE. -/
def execTwinFenceWrite (path : Path) (val : BitVec 32) (s : State) : Host.Outcome State Fault Refusal :=
  if (path = .pf ∨ path = .wellhead) ∧ val.toNat / 2 ≠ 0 then .fault (.reservedTestControl 0x080008)
  else runBase s (fun s => if path = .pf ∨ path = .wellhead then fenceWrite (val.toNat % 2) s else denied path s)

/-! ### GPIO inputs and the mirrors (R376, R385) -/

/-- A pin's level changes: its GPIO_EDGE bit sets, and a wake level wakes (19 R368). -/
def gpioInput (pin : Nat) (level : Bool) (s : State) : State :=
  if 32 ≤ pin ∨ bit s.gpio.inp pin = level then s
  else
    let s := { s with gpio := { s.gpio with inp := setBit s.gpio.inp pin level, edge := setBit s.gpio.edge pin true } }
    if bit s.gpio.wakeEn pin && bit s.gpio.wakeLvl pin == level then wake s else s

def execGpioInputChange (pin : Nat) (level : Bool) (s : State) : Host.Outcome State Fault Refusal := runBase s (gpioInput pin level)

/-- Sundique updates the mirrors of tenant `t`: SEQ goes odd, the values change, SEQ goes even, and AGE_MS counts anew. In a control-plane
pause they stay. -/
def mirrorUpdate (t : Nat) (s : State) : State :=
  if s.ctl.paused ∨ s.ctl.failover ∨ s.ctl.mgmtDown ∨ s.ctl.stage ≠ 4 ∨ 512 ≤ t then s
  else
    let x := tenant s t
    let m := x.mclk
    let (_, _, st, e) := m.snap.getD (m.acc, m.inc, m.state, m.err)
    let open' := fun (dir : Nat) => (s.streams.filter (fun p => p.2.tenant == t && p.1 / 65536 == dir && !p.2.closing)).length
    modFn s (t + 1) (fun f => { f with
      seq := (f.seq + 2) % 2 ^ 32, mirrorAt := some s.mere, tmMclk := st + 256 * m.bind.source + 2 ^ 32 * toBits 32 (divEvenI e 65536)
      tmQuota := (range 1 7).map (useOf x.quota), tmUse := (range 1 7).map (useOf x.use), tmStreams := open' 0 + 2 ^ 32 * open' 1
      tmPower := tgetD s.pwr.tenantTol t 0xFFFFFFFF + 2 ^ 32 * s.pwr.state })

def execMirrorWrite (t : Nat) (s : State) : Host.Outcome State Fault Refusal := runBase s (mirrorUpdate t)

end Sys2Proof.Machine
end

