-- ==== Sys2Proof/Machine/Start.lean ====
section
/-! DEFINITION. What reaches across the chapters: the index of commands, their start from the mailboxes in round robin and a failover of
the management pairs (02 R34, R39), readiness (19 R372), mirrored commands and time transfer (16 R323, 17 R339), host frames (10 R223). -/
namespace Sys2Proof.Machine

/-! ### The index of commands (22) -/

/-- Every command of the set. -/
def commands : List Cmd :=
  [cmdDeviceReset, cmdMailboxSet, cmdTenantCreate, cmdTenantDestroy, cmdQuotaSet, cmdTenantBind, cmdTenantUnbind, cmdTenantQuery,
   cmdQueueCreate, cmdQueueDestroy, cmdQueueQuery, cmdQueueStats, cmdIntSet, cmdIntMode,
   cmdStreamOpen, cmdStreamClose, cmdStreamModify, cmdStreamQuery, cmdKeySet, cmdStreamStats,
   cmdMclkBind, cmdMclkQuery, cmdEstimator, cmdModeSet, cmdMclkStream, cmdSynBind, cmdEddyQuery]
  ++ [cmdBusCreate, cmdBusDestroy, cmdBusSet, cmdKeyBind, cmdMixConfig, cmdMixStats,
   cmdTarnLoad, cmdTarnUnload, cmdTarnParam, cmdTarnQuery, cmdTarnRestart, cmdTarnStats,
   cmdNetMode, cmdPortConfig, cmdFilter, cmdNetStats, cmdTxAllow, cmdFldConfig, cmdGpioKey, cmdKeyQuery, cmdFldStats,
   cmdLpAssign, cmdSaiConfig, cmdAesConfig, cmdLpStart, cmdLpStop, cmdCsSet, cmdLpStats]
  ++ [cmdTbConfig, cmdAdjust, cmdTimeQuery, cmdCalSync, cmdSchedule, cmdRefConfig, cmdRefSelect, cmdRefQuery, cmdSynSet,
   cmdTwinConfig, cmdTwinSwitch, cmdTwinQuery, cmdTwinClear, cmdProofSet, cmdEnumerate, cmdCascadeQuery, cmdForward, cmdLegacy, cmdI2c none,
   cmdTolerance, cmdPowerQuery, cmdGateSet, cmdHealthQuery, cmdHealthPolicy, cmdStoreRead, cmdStoreWrite, cmdLogRead, cmdSpareForce,
   cmdFwLoad, cmdFwActivate, cmdFwCommit, cmdFwStatus]

/-- The command of an opcode. -/
def commandOf (opcode : Nat) : Option Cmd := commands.find? (fun k => k.opcode == opcode)

/-! ### Starting commands (02 R34) -/

/-- A command that is not in the index fails with BAD_OPCODE (22 R397). -/
def executeOne (mb : Nat) (c : Taken) (carried : List Byte) (readFails : Bool) (s : State) : State × List Byte :=
  match commandOf c.desc.opcode with
  | some k => execCmd k mb (c.mgr, c.own) c.desc (c.carried.getD carried) readFails false c.quiet s
  | none => (s, response c.desc c.desc.opcode 0x0101 [])

/-- The response of a command, unless a function-level reset discards it (02 R38). -/
def answerOne (mb : Nat) (c : Taken) (x : State × List Byte) : State := if c.quiet then x.1 else respond x.1 mb x.2 c.peer

/-- Firmware starts the next taken command and answers it. `carried` is the indirect payload of a descriptor that came over Causeway
without one, `readFails` whether the PCIe read of one fails. -/
def cmdStart (carried : List Byte) (readFails : Bool) (s : State) : State :=
  match nextMailbox s with
  | none => s
  | some mb =>
    match (mbox s mb).taken with
    | [] => s
    | c :: _ => answerOne mb c (executeOne mb c carried readFails (startTurn mb s))

def execCmdStart (carried : List Byte) (readFails : Bool) (s : State) : Host.Outcome State Fault Refusal := runBase s (cmdStart carried readFails)

/-! ### Failover of the management pairs (02 R39) -/

/-- The serving pair fails: between commands (0), or while the next one executes, before its commit (1) or after it (2). -/
def mgmtFailover (phase : Nat) (carried : List Byte) (readFails : Bool) (s : State) : State :=
  if s.ctl.mgmtDown || s.ctl.failover then s
  else
    match (if phase = 0 then none else nextMailbox s) with
    | none => failoverStart s
    | some mb =>
      match (mbox s mb).taken with
      | [] => failoverStart s
      | c :: _ =>
        let s := startTurn mb s
        let (s, r) := if phase = 2 then executeOne mb c carried readFails s else (s, [])
        failoverStart { s with ctl := { s.ctl with inFlight := some ⟨mb, c, phase == 2, r⟩ } }

def execMgmtFailover (phase : Nat) (carried : List Byte) (readFails : Bool) (s : State) : Host.Outcome State Fault Refusal :=
  runBase s (mgmtFailover phase carried readFails)

/-- The standby pair serves: PAUSED clears, and the interrupted command gets its one response. -/
def failoverDone (carried : List Byte) (readFails : Bool) (s : State) : State :=
  if !s.ctl.failover then s
  else
    let f := s.ctl.inFlight
    let s := unpoison { s with ctl := { s.ctl with failover := false, paused := false, inFlight := none } } .wellhead
    match f with
    | none => s
    | some f => answerOne f.mb f.cmd (if f.committed then (s, f.response) else executeOne f.mb f.cmd carried readFails s)

def execMgmtFailoverDone (carried : List Byte) (readFails : Bool) (s : State) : Host.Outcome State Fault Refusal := runBase s (failoverDone carried readFails)

/-! ### Readiness, mirrored commands, time transfer -/

/-- A command that carries no mailbox's rights of its own: from the configuration store, or as the active twin applied it. -/
def applyQuiet (r : Req) (s : State) : State :=
  match commandOf r.desc.opcode with
  | some k => (execCmd k r.mb (true, none) r.desc r.carried false true true s).1
  | none => s

/-- Readiness: the stored configuration is built, and one commit opens the device; where Sundique cannot reach it in time (`ok` false) the boot
halts (19 R372, 02 R41). -/
def openUp (ok : Bool) (s : State) : State :=
  if !ok then (if s.ctl.stage = 4 then s else { s with dev := { s.dev with bootHalt := true }, ctl := { s.ctl with stage := 15 } })
  else readiness (if s.ctl.stage = 3 ∧ !s.dev.safe then s.health.config.foldl (fun s r => applyQuiet r s) s else s)

def execReadiness (ok : Bool) (s : State) : Host.Outcome State Fault Refusal := runBase s (openUp ok)

/-- A command of the active device, staged for the same frame boundary, with the choices of the active device (16 R323). -/
def configMirror (r : Req) (choice : Nat) (s : State) : State :=
  if follows s then
    let t := applyQuiet r { s with free := choicesOf choice }
    { t with free := s.free, twin := { t.twin with chosen := max s.twin.chosen (choice + 1) } }
  else s

def execConfigMirrorRx (r : Req) (choice : Nat) (s : State) : Host.Outcome State Fault Refusal := run s (configMirror r choice)

/-- A time-transfer value: a worker's mode-1 time base, or a standby's, is steered (16 R323, 17 R339). (DEDUCED, log entry 99.) -/
def timeTransfer (t : Nat) (off : Int) (s : State) : State :=
  let worker := s.cway.numbered && !s.cway.manager
  if t < 16 ∧ ((worker ∧ (tb s t).mode = 1) ∨ follows s) then servo s t off else s

def execTimeTransferRx (tb : Nat) (offset : Int) (s : State) : Host.Outcome State Fault Refusal := runMere s (timeTransfer tb offset)

/-! ### Host frames (10 R222, R223) -/

/-- The class of a host frame: the PCP of its outermost tag, limited to 4, or HOST_CLASS. -/
def hostClassOf (n : NetPort) (b : List Byte) : Nat :=
  let et := fldBe b 12 2
  if et = 0x8100 ∨ et = 0x88A8 then min 4 (fldBe b 14 2 / 8192) else n.hostClass

/-- A host frame for the port of code `p`, from a ring of tenant `t` (0xFFFF PF0). -/
def sendHost (t p : Nat) (b : List Byte) (s : State) : State :=
  if p < 8 then
    let n := netPort s p
    if t ≠ 0xFFFF ∧ !bit (tenant s t).txMask p then netCount s p 48 1
    else if !portExists s p ∨ n.maxFrame - 4 < b.length + (if outerTagged n b then 4 else 0) then netCount s p 49 1
    else netOffer s p { cls := hostClassOf n b, bytes := b }
  else if 0x10 ≤ p ∧ p < 0x20 ∧ (t = 0xFFFF ∨ (fldPort s (p - 16)).tenant = t) then fldOffer s (p - 16) { cls := 0, bytes := b }
  else s

/-- The next entry of a host-to-device packet ring is taken: transmitted, or dropped and counted. -/
def hostTxFrame (k : Nat) (s : State) : State :=
  match tget s.queues k with
  | none => s
  | some q =>
    match running q with
    | none => s
    | some c =>
      if q.typ ≠ 5 ∨ c.link ≠ 0xFFFF ∨ q.pi = q.ci ∨ !fnUp s (fnOf q.tenant) then s
      else
        let a := entryAddr c q.ci
        let len := leNat (mread s.host a 4)
        let src := leNat (mread s.host (a + 6) 2)
        let good := mget 0 s.host (a + 4) == 1 && decide (len + 16 ≤ 2 ^ c.entLog)
        let d := if good then mread s.host (a + 16) len else []
        let q' := { q with ci := nextIdx c q.ci, consumed := inc48 q.consumed 1, badEnt := if good then q.badEnt else inc48 q.badEnt 1 }
        let s := addUnsig { s with queues := tset s.queues k q' } k 1
        if good then sendHost q.tenant src d s else s

def execHostTxFrame (q : Nat) (s : State) : Host.Outcome State Fault Refusal := runMere s (hostTxFrame q)

end Sys2Proof.Machine
end

