-- ==== Sys2Proof/Machine/TarnAcc.lean ====
section
/-! DEFINITION. Chapter 08: accumulator functions, division steps, and the MAC class. -/
namespace Sys2Proof.Machine

/-! ### Accumulator functions (08 R189) -/

/-- Which fields a function uses: a field it does not use is reserved, S included. `dr` is the width of DR in bits. -/
structure AccUse where
  s  : Bool := false
  ad : Bool := false
  as_ : Bool := false
  dr : Nat := 0

/-- Whether a field of the word is not as the function asks; `imm` says what IMM must satisfy. (DEDUCED, log entry 90.) -/
def accBad (a : AccArgs) (u : AccUse) (imm : Bool) : Bool :=
  (!u.s && a.s) || (!u.ad && a.ad != 0) || (!u.as_ && a.as_ != 0) || decide (2 ^ u.dr ≤ a.dr.toNat) || !imm

/-- A function of the class. -/
def acc (a : AccArgs) (u : AccUse) (imm extra : Bool) (f : Core → Except Exc Eff) (s : State) : State :=
  issue a.core (accBad a u imm || extra) .any (fun _ c => f c) s

/-- An exact 40-bit result into AD, with Z, N, V, AV and SAT. -/
def accWrite (a : AccArgs) (v : Int) (c : Core) : Except Exc Eff :=
  let (x, w, k) := narrow a.s 40 32 v
  let lane := a.ad.toNat % 4
  match ovf c (if w then 2 ^ lane else 0) with
  | some e => .error e
  | none =>
    let c := ((c.setA a.ad.toNat (BitVec.ofInt 40 x)).setZN (x == 0) (decide (x < 0))).setV w k
    .ok { core := if w then c.setFlag (6 + lane) true else c }

/-- The accumulator AD named, and the source's value. -/
def srcA (a : AccArgs) (c : Core) : Int := (c.an a.as_.toNat).toInt
def dstA (a : AccArgs) (c : Core) : Int := (c.an a.ad.toNat).toInt

/-- The field of `w` bits at the top of a value of which `sh` bits are rounded away, convergently (07 R164). -/
def extract (s : Bool) (sh w : Nat) (v : Int) : Int × Bool × Bool :=
  narrow s w w (divEvenI v (2 ^ sh))

def execTAclr (a : AccArgs) (s : State) : Host.Outcome State Fault Refusal :=
  run s (acc a { ad := true } (a.imm == 0) false (fun c => .ok { core := c.setA a.ad.toNat 0 }))
def execTAclrv (a : AccArgs) (s : State) : Host.Outcome State Fault Refusal :=
  run s (acc a { ad := true } (a.imm == 0) (a.ad != 0 && a.ad != 4) (fun c => .ok { core := (List.range 4).foldl (fun c i => c.setA (a.ad.toNat + i) 0) c }))
def execTAmov (a : AccArgs) (s : State) : Host.Outcome State Fault Refusal :=
  run s (acc a { ad := true, as_ := true } (a.imm == 0) false (fun c => .ok { core := c.setA a.ad.toNat (c.an a.as_.toNat) }))
def execTAadd (a : AccArgs) (s : State) : Host.Outcome State Fault Refusal :=
  run s (acc a { s := true, ad := true, as_ := true } (a.imm == 0) false (fun c => accWrite a (dstA a c + srcA a c) c))
def execTAsub (a : AccArgs) (s : State) : Host.Outcome State Fault Refusal :=
  run s (acc a { s := true, ad := true, as_ := true } (a.imm == 0) false (fun c => accWrite a (dstA a c - srcA a c) c))
def execTAneg (a : AccArgs) (s : State) : Host.Outcome State Fault Refusal :=
  run s (acc a { s := true, ad := true, as_ := true } (a.imm == 0) false (fun c => accWrite a (-srcA a c) c))
def execTAabs (a : AccArgs) (s : State) : Host.Outcome State Fault Refusal :=
  run s (acc a { s := true, ad := true, as_ := true } (a.imm == 0) false (fun c => accWrite a (srcA a c).natAbs c))

/-- ASH: left by IMM[5:0] if positive, arithmetically right by its magnitude if negative. -/
def execTAsh (a : AccArgs) (s : State) : Host.Outcome State Fault Refusal :=
  let n := sext 6 (a.imm.toNat % 64)
  run s (acc a { s := true, ad := true, as_ := true } (decide (a.imm.toNat < 64)) false (fun c =>
    accWrite a (if 0 ≤ n then srcA a c * (2 ^ n.toNat : Nat) else srcA a c / (2 ^ n.natAbs : Nat)) c))

def execTExt (a : AccArgs) (s : State) : Host.Outcome State Fault Refusal :=
  run s (acc a { s := true, as_ := true, dr := 4 } (a.imm == 0) false (fun c =>
    let (v, w, k) := extract a.s 16 16 (srcA a c)
    match ovf c (b2n w) with
    | some e => .error e
    | none => .ok { core := ((c.setD a.dr.toNat (BitVec.ofInt 16 v)).setZN (v == 0) (decide (v < 0))).setV w k }))

def execTExtv (a : AccArgs) (s : State) : Host.Outcome State Fault Refusal :=
  run s (acc a { s := true, as_ := true, dr := 2 } (a.imm == 0) (a.as_ != 0 && a.as_ != 4) (fun c =>
    let rs := (List.range 4).map (fun i => extract a.s 16 16 (c.an (a.as_.toNat + i)).toInt)
    let mask := (List.range 4).foldl (fun m i => m + 2 ^ i * b2n ((rs.getD i (0, false, false)).2.1)) 0
    match ovf c mask with
    | some e => .error e
    | none => .ok { core := (c.setLanes a.dr.toNat (rs.map (fun r => BitVec.ofInt 16 r.1))).setV (mask != 0) (rs.any (·.2.2)) }))

def execTExtw (a : AccArgs) (s : State) : Host.Outcome State Fault Refusal :=
  run s (acc a { s := true, as_ := true, dr := 3 } (a.imm == 0) (a.as_.toNat % 2 != 0) (fun c =>
    let (v, w, k) := extract a.s 32 32 (c.wideA (a.as_.toNat / 2)).toInt
    match ovf c (b2n w) with
    | some e => .error e
    | none => .ok { core := ((c.setPair a.dr.toNat (BitVec.ofInt 32 v)).setZN (v == 0) (decide (v < 0))).setV w k }))

def execTMval (a : AccArgs) (s : State) : Host.Outcome State Fault Refusal :=
  run s (acc a { as_ := true, dr := 3 } (a.imm == 0) false (fun c => .ok { core := c.setPair a.dr.toNat ((c.an a.as_.toNat).setWidth 32) }))
def execTMvag (a : AccArgs) (s : State) : Host.Outcome State Fault Refusal :=
  run s (acc a { as_ := true, dr := 4 } (a.imm == 0) false (fun c => .ok { core := c.setD a.dr.toNat (((c.an a.as_.toNat).extractLsb' 32 8).signExtend 16) }))
def execTMvda (a : AccArgs) (s : State) : Host.Outcome State Fault Refusal :=
  run s (acc a { ad := true, dr := 3 } (a.imm == 0) false (fun c => .ok { core := c.setA a.ad.toNat ((c.pair a.dr.toNat).signExtend 40) }))
def execTMvga (a : AccArgs) (s : State) : Host.Outcome State Fault Refusal :=
  run s (acc a { ad := true, dr := 4 } (a.imm == 0) false (fun c =>
    .ok { core := c.setA a.ad.toNat ((c.dn a.dr.toNat).extractLsb' 0 8 ++ (c.an a.ad.toNat).extractLsb' 0 32) }))
def execTDeph (a : AccArgs) (s : State) : Host.Outcome State Fault Refusal :=
  run s (acc a { ad := true, dr := 4 } (a.imm == 0) false (fun c =>
    .ok { core := c.setA a.ad.toNat ((c.dn a.dr.toNat).signExtend 24 ++ (0 : BitVec 16)) }))

/-! ### Division step (08 R190) -/

/-- One step of division on an accumulator: r is A[39:16], q is A[15:0]. The new accumulator and carry. -/
def divStep (a : BitVec 40) (dv : W16) (f l carry : Bool) : BitVec 40 × Bool :=
  let r0 : BitVec 24 := a.extractLsb' 16 24
  let q0 : BitVec 16 := a.extractLsb' 0 16
  let dv24 : BitVec 24 := dv.setWidth 24
  let r := 2#24 * r0 + (if q0.msb then 1 else 0)
  let q := q0 <<< 1
  let r := if f || carry then r - dv24 else r + dv24
  let pos := !r.msb
  let q := if pos then q + 1 else q
  let r := if l && !pos then r + dv24 else r
  (r ++ q, pos)

def execTDivs (core : Nat) (f l : Bool) (a : BitVec 3) (dv : BitVec 4) (rsv : BitVec 17) (s : State) : Host.Outcome State Fault Refusal :=
  run s (issue core (rsv != 0) .any (fun _ c =>
    let (x, carry) := divStep (c.an a.toNat) (c.dn dv.toNat) f l (c.flag 2)
    .ok { core := (c.setA a.toNat x).setFlag 2 carry }))

/-! ### The MAC class (07 R162, R163; 08 R184, R185) -/

/-- What the class does with the product: added, subtracted, in place, negated in place. -/
inductive MacFn where
  | mac | msu | mpy | mpyn
  deriving DecidableEq, Repr

/-- The exact new value of an accumulator. -/
def MacFn.value (f : MacFn) (old prod : Int) : Int :=
  match f with
  | .mac => old + prod
  | .msu => old - prod
  | .mpy => prod
  | .mpyn => -prod

/-- The arithmetic of a MAC-class instruction: the core after it, or OVF. -/
def macArith (f : MacFn) (a : MacArgs) (c : Core) : Except Exc Core :=
  let sh : Int := if c.frac then 2 else 1
  if c.wide then
    let k := a.acc.toNat
    let x := (c.pair (2 * a.x.toNat)).toInt
    let y := (c.pair (2 * a.y.toNat)).toInt
    let (v, w, sat) := narrow a.s 80 64 (f.value (c.wideA k).toInt (x * y * sh))
    match ovf c (if w then 2 ^ k else 0) with
    | some e => .error e
    | none =>
      let c := (c.setWideA k (BitVec.ofInt 80 v)).setV w sat
      .ok (if w then c.setFlag (6 + k) true else c)
  else
    let h := a.acc.toNat % 2
    let ys := c.lanes a.y.toNat
    let rs := (List.range 4).map (fun i =>
      let x := (c.dn (4 * a.x.toNat + i)).toInt
      let y := (ys.getD (if a.b then 0 else i) 0).toInt
      narrow a.s 40 32 (f.value (c.an (4 * h + i)).toInt (x * y * sh)))
    let lane := fun (i : Nat) => rs.getD i (0, false, false)
    let mask := (List.range 4).foldl (fun m i => m + 2 ^ i * b2n (lane i).2.1) 0
    match ovf c mask with
    | some e => .error e
    | none =>
      let c := (List.range 4).foldl (fun (c : Core) i =>
        let c := c.setA (4 * h + i) (BitVec.ofInt 40 (lane i).1)
        if (lane i).2.1 then c.setFlag (6 + i) true else c) c
      .ok (c.setV (mask != 0) (rs.any (·.2.2)))

/-- A slot's pointer after its access. -/
def slotModify (c : Core) (mode : BitVec 2) (k : Nat) : Core :=
  match mode.toNat with
  | 1 => c.postModify k 4
  | 2 => c.postModify k (-4)
  | 3 => c.postModify k (c.areg (8 + k)).toInt
  | _ => c

/-- A MAC-class instruction: the addresses of both slots are checked first, operands and stored data are read, loads write, pointers
move. -/
def macClass (f : MacFn) (a : MacArgs) (s : State) : State :=
  let (p1, p2) := (a.p1.toNat, a.p2.toNat)
  let (u1, u2) := (a.m1 != 0, a.m2 != 0)
  let load2 := u2 && !a.t2
  issue a.core (a.rsv != 0 || (u1 && u2 && p1 == p2) || (u1 && load2 && a.r1 == a.r2)) .any (fun s c =>
    let a1 := (c.areg p1).toNat
    let a2 := (c.areg p2).toNat
    let fault := (if u1 then c.accessFault a1 4 else none).or (if u2 then c.accessFault a2 4 else none)
    match fault with
    | some e => .error e
    | none => do
      let w1 ← if u1 then loadWords s a.core a1 4 else .ok []
      let w2 ← if load2 then loadWords s a.core a2 4 else .ok []
      let data := c.lanes a.r2.toNat
      let forced := max (if u1 then forcedBy c.stores a1 4 else 0) (if load2 then forcedBy c.stores a2 4 else 0)
      let c ← macArith f a c
      let c := if u1 then c.setLanes a.r1.toNat w1 else c
      let c := if load2 then c.setLanes a.r2.toNat w2 else c
      let c := slotModify (slotModify c a.m1 p1) a.m2 p2
      let c := if u2 && a.t2 then { c with stores := c.stores ++ [(a2, data)] } else c
      .ok { core := c, used := b2n u1 + b2n u2, forced := forced }) s

def execTMac (a : MacArgs) (s : State) : Host.Outcome State Fault Refusal := run s (macClass .mac a)
def execTMsu (a : MacArgs) (s : State) : Host.Outcome State Fault Refusal := run s (macClass .msu a)
def execTMpy (a : MacArgs) (s : State) : Host.Outcome State Fault Refusal := run s (macClass .mpy a)
def execTMpyn (a : MacArgs) (s : State) : Host.Outcome State Fault Refusal := run s (macClass .mpyn a)

end Sys2Proof.Machine
end

