-- ==== Sys2Proof/Machine/TarnAlu.lean ====
section
/-! DEFINITION. Chapter 08: the ALU instructions, register and immediate. -/
namespace Sys2Proof.Machine

/-- The exact result of an ALU function on one lane, the carry it gives, and whether it can overflow (08 R186, R187). -/
structure AluOut where
  v     : Int
  carry : Option Bool := none
  canOv : Bool := false

/-- An ALU function of the carry flag and two operands. -/
abbrev AluFn := Nat → W16 → W16 → AluOut

/-- A sum and a difference with carry and borrow, and a result of bits. -/
def aluSum (cin : Nat) (a b : W16) : AluOut := ⟨a.toInt + b.toInt + cin, some (decide (65536 ≤ a.toNat + b.toNat + cin)), true⟩
def aluDiff (borrow : Nat) (a b : W16) : AluOut := ⟨a.toInt - b.toInt - borrow, some (decide (b.toNat + borrow ≤ a.toNat)), true⟩
def aluBits (v : W16) : AluOut := { v := v.toInt }

/-- The shift amount, and the last bit shifted out to the right. -/
def shiftAmount (b : W16) : Nat := min (b.toNat % 32) 16
def outRight (a : W16) (n : Nat) : Option Bool := some (n != 0 && a.toNat.testBit (n - 1))

def fnMov : AluFn := fun _ a _ => aluBits a
def fnAdd : AluFn := fun _ a b => aluSum 0 a b
def fnSub : AluFn := fun _ a b => aluDiff 0 a b
def fnAdc : AluFn := fun c a b => aluSum c a b
def fnSbc : AluFn := fun c a b => aluDiff (1 - c) a b
def fnNeg : AluFn := fun _ a _ => ⟨-a.toInt, none, true⟩
def fnAbs : AluFn := fun _ a _ => ⟨a.toInt.natAbs, none, true⟩
def fnMin : AluFn := fun _ a b => aluBits (if a.toInt ≤ b.toInt then a else b)
def fnMax : AluFn := fun _ a b => aluBits (if a.toInt ≤ b.toInt then b else a)
def fnAnd : AluFn := fun _ a b => aluBits (a &&& b)
def fnOr  : AluFn := fun _ a b => aluBits (a ||| b)
def fnXor : AluFn := fun _ a b => aluBits (a ^^^ b)
def fnNot : AluFn := fun _ a _ => aluBits (~~~a)
def fnAsl : AluFn := fun _ a b => let n := shiftAmount b; ⟨a.toInt * (2 ^ n : Nat), some (n != 0 && a.toNat.testBit (16 - n)), true⟩
def fnAsr : AluFn := fun _ a b => let n := shiftAmount b; ⟨a.toInt / (2 ^ n : Nat), outRight a n, false⟩
def fnLsr : AluFn := fun _ a b => let n := shiftAmount b; ⟨((a.toNat / 2 ^ n : Nat) : Int), outRight a n, false⟩

/-- A lane's result as it is written, whether it overflowed with S = 0, whether it was clamped. -/
def AluOut.write (o : AluOut) (s : Bool) : W16 × Bool × Bool :=
  if o.canOv then let (v, w, k) := narrow s 16 16 o.v; (BitVec.ofInt 16 v, w, k) else (BitVec.ofInt 16 o.v, false, false)

/-- A scalar result with its flags (08 R187). -/
def aluScalar (s : Bool) (dd : Nat) (o : AluOut) (c : Core) : Except Exc Eff :=
  let (v, w, k) := o.write s
  match ovf c (b2n w) with
  | some e => .error e
  | none =>
    let c := ((c.setD dd v).setZN (v == 0) v.msb).setV w k
    .ok { core := match o.carry with | some b => c.setFlag 2 b | none => c }

/-- Four lanes: Z, N and C stay (08 R187). -/
def aluVector (s : Bool) (dd : Nat) (os : List AluOut) (c : Core) : Except Exc Eff :=
  let rs := os.map (·.write s)
  let mask := (List.range 4).foldl (fun m i => m + 2 ^ i * b2n ((rs.getD i (0, false, false)).2.1)) 0
  match ovf c mask with
  | some e => .error e
  | none => .ok { core := (c.setLanes dd (rs.map (·.1))).setV (mask != 0) (rs.any (·.2.2)) }

/-- An ALU function of registers; `vecOk` says that it has a vector form, whose register slots have two bits (08 R181). -/
def aluReg (a : AluArgs) (vecOk : Bool) (f : AluFn) (s : State) : State :=
  let (dd, da, db) := (a.dd.toNat, a.da.toNat, a.db.toNat)
  issue a.core (a.rsv != 0 || (a.vec && (!vecOk || decide (4 ≤ dd) || decide (4 ≤ da) || decide (4 ≤ db)))) .any (fun _ c =>
    if a.vec then aluVector a.s dd (List.zipWith (f 0) (c.lanes da) (c.lanes db)) c
    else aluScalar a.s dd (f (b2n (c.flag 2)) (c.dn da) (c.dn db)) c) s

/-- An ALU function of a register and an immediate, which every lane takes (08 R188). -/
def aluImm (a : ImmArgs) (bad : Bool) (y : W16) (f : AluFn) (s : State) : State :=
  let dd := a.dd.toNat
  issue a.core (bad || a.rsv || (a.vec && decide (4 ≤ dd))) .any (fun _ c =>
    if a.vec then aluVector a.s dd ((c.lanes dd).map (fun x => f 0 x y)) c else aluScalar a.s dd (f 0 (c.dn dd) y) c) s

/-- A comparison: flags of DA - DB; it never saturates or traps. -/
def aluCmp (x y : W16) (c : Core) : Except Exc Eff :=
  let o := aluDiff 0 x y
  let (v, w, _) := o.write false
  .ok { core := ((c.setZN (v == 0) v.msb).setV w false).setFlag 2 (o.carry.getD false) }

def execTMov (a : AluArgs) (s : State) : Host.Outcome State Fault Refusal := run s (aluReg a true fnMov)
def execTAdd (a : AluArgs) (s : State) : Host.Outcome State Fault Refusal := run s (aluReg a true fnAdd)
def execTSub (a : AluArgs) (s : State) : Host.Outcome State Fault Refusal := run s (aluReg a true fnSub)
def execTAdc (a : AluArgs) (s : State) : Host.Outcome State Fault Refusal := run s (aluReg a false fnAdc)
def execTSbc (a : AluArgs) (s : State) : Host.Outcome State Fault Refusal := run s (aluReg a false fnSbc)
def execTNeg (a : AluArgs) (s : State) : Host.Outcome State Fault Refusal := run s (aluReg a true fnNeg)
def execTAbs (a : AluArgs) (s : State) : Host.Outcome State Fault Refusal := run s (aluReg a true fnAbs)
def execTMin (a : AluArgs) (s : State) : Host.Outcome State Fault Refusal := run s (aluReg a true fnMin)
def execTMax (a : AluArgs) (s : State) : Host.Outcome State Fault Refusal := run s (aluReg a true fnMax)
def execTAnd (a : AluArgs) (s : State) : Host.Outcome State Fault Refusal := run s (aluReg a true fnAnd)
def execTOr (a : AluArgs) (s : State) : Host.Outcome State Fault Refusal := run s (aluReg a true fnOr)
def execTXor (a : AluArgs) (s : State) : Host.Outcome State Fault Refusal := run s (aluReg a true fnXor)
def execTNot (a : AluArgs) (s : State) : Host.Outcome State Fault Refusal := run s (aluReg a true fnNot)
def execTAsl (a : AluArgs) (s : State) : Host.Outcome State Fault Refusal := run s (aluReg a true fnAsl)
def execTAsr (a : AluArgs) (s : State) : Host.Outcome State Fault Refusal := run s (aluReg a true fnAsr)
def execTLsr (a : AluArgs) (s : State) : Host.Outcome State Fault Refusal := run s (aluReg a true fnLsr)

/-- CMP and TST write flags only; they have no vector form. -/
def execTCmp (a : AluArgs) (s : State) : Host.Outcome State Fault Refusal :=
  run s (issue a.core (a.rsv != 0 || a.vec) .any (fun _ c => aluCmp (c.dn a.da.toNat) (c.dn a.db.toNat) c))
def execTTst (a : AluArgs) (s : State) : Host.Outcome State Fault Refusal :=
  run s (issue a.core (a.rsv != 0 || a.vec) .any (fun _ c =>
    let v := c.dn a.da.toNat &&& c.dn a.db.toNat
    .ok { core := (c.setZN (v == 0) v.msb).setV false false }))

/-! ### Immediates -/

/-- LDI acts as MOV of the immediate. -/
def execTLdi (a : ImmArgs) (s : State) : Host.Outcome State Fault Refusal := run s (aluImm a false a.imm (fun _ _ y => aluBits y))
def execTAddi (a : ImmArgs) (s : State) : Host.Outcome State Fault Refusal := run s (aluImm a false a.imm fnAdd)
def execTSubi (a : ImmArgs) (s : State) : Host.Outcome State Fault Refusal := run s (aluImm a false a.imm fnSub)
def execTAndi (a : ImmArgs) (s : State) : Host.Outcome State Fault Refusal := run s (aluImm a false a.imm fnAnd)
def execTOri (a : ImmArgs) (s : State) : Host.Outcome State Fault Refusal := run s (aluImm a false a.imm fnOr)
def execTXori (a : ImmArgs) (s : State) : Host.Outcome State Fault Refusal := run s (aluImm a false a.imm fnXor)
def execTCmpi (a : ImmArgs) (s : State) : Host.Outcome State Fault Refusal :=
  run s (issue a.core (a.vec || a.rsv) .any (fun _ c => aluCmp (c.dn a.dd.toNat) a.imm c))

/-- SHI: IMM[15:14] selects the shift, IMM[4:0] the amount, 0 to 16; IMM[13:5] is reserved. -/
def execTShi (a : ImmArgs) (s : State) : Host.Outcome State Fault Refusal :=
  let i := a.imm.toNat
  let f := match bits i 15 14 with | 0 => fnAsl | 1 => fnAsr | _ => fnLsr
  run s (aluImm a (bits i 15 14 == 3 || bits i 13 5 != 0 || decide (16 < i % 32)) (BitVec.ofNat 16 (i % 32)) f)

end Sys2Proof.Machine
end

