-- ==== Sys2Proof/Machine/Dispatch.lean ====
section
/-! DEFINITION. The dispatch of every command to its meaning, one arm per row of spec/opcode_table.json. -/
namespace Sys2Proof.Machine

/-- The effect of command `i` on everything but the queue. -/
def exec (i : Instr) (s : State) : Host.Outcome State Fault Refusal :=
  match i with
  | .deviceReset a => Sys2Proof.Machine.execDeviceReset a s
  | .deviceMailboxSet a => Sys2Proof.Machine.execDeviceMailboxSet a s
  | .tenantCreate a => Sys2Proof.Machine.execTenantCreate a s
  | .tenantDestroy a => Sys2Proof.Machine.execTenantDestroy a s
  | .tenantQuotaSet a => Sys2Proof.Machine.execTenantQuotaSet a s
  | .tenantBind a => Sys2Proof.Machine.execTenantBind a s
  | .tenantUnbind a => Sys2Proof.Machine.execTenantUnbind a s
  | .tenantQuery a => Sys2Proof.Machine.execTenantQuery a s
  | .queueCreate a => Sys2Proof.Machine.execQueueCreate a s
  | .queueDestroy a => Sys2Proof.Machine.execQueueDestroy a s
  | .queueQuery a => Sys2Proof.Machine.execQueueQuery a s
  | .queueStats a => Sys2Proof.Machine.execQueueStats a s
  | .queueIntSet a => Sys2Proof.Machine.execQueueIntSet a s
  | .queueIntMode a => Sys2Proof.Machine.execQueueIntMode a s
  | .streamOpen a => Sys2Proof.Machine.execStreamOpen a s
  | .streamClose a => Sys2Proof.Machine.execStreamClose a s
  | .streamModify a => Sys2Proof.Machine.execStreamModify a s
  | .streamQuery a => Sys2Proof.Machine.execStreamQuery a s
  | .streamKeySet a => Sys2Proof.Machine.execStreamKeySet a s
  | .streamStats a => Sys2Proof.Machine.execStreamStats a s
  | .mclkBind a => Sys2Proof.Machine.execMclkBind a s
  | .mclkQuery a => Sys2Proof.Machine.execMclkQuery a s
  | .mclkEstimatorSet a => Sys2Proof.Machine.execMclkEstimatorSet a s
  | .mclkModeSet a => Sys2Proof.Machine.execMclkModeSet a s
  | .mclkStreamQuery a => Sys2Proof.Machine.execMclkStreamQuery a s
  | .mclkSynBind a => Sys2Proof.Machine.execMclkSynBind a s
  | .eddyQuery a => Sys2Proof.Machine.execEddyQuery a s
  | .mixBusCreate a => Sys2Proof.Machine.execMixBusCreate a s
  | .mixBusDestroy a => Sys2Proof.Machine.execMixBusDestroy a s
  | .mixBusSet a => Sys2Proof.Machine.execMixBusSet a s
  | .mixKeyBind a => Sys2Proof.Machine.execMixKeyBind a s
  | .mixConfig a => Sys2Proof.Machine.execMixConfig a s
  | .mixStats a => Sys2Proof.Machine.execMixStats a s
  | .tarnLoad a => Sys2Proof.Machine.execTarnLoad a s
  | .tarnUnload a => Sys2Proof.Machine.execTarnUnload a s
  | .tarnParam a => Sys2Proof.Machine.execTarnParam a s
  | .tarnQuery a => Sys2Proof.Machine.execTarnQuery a s
  | .tarnRestart a => Sys2Proof.Machine.execTarnRestart a s
  | .tarnStats a => Sys2Proof.Machine.execTarnStats a s
  | .netModeSet a => Sys2Proof.Machine.execNetModeSet a s
  | .netPortConfig a => Sys2Proof.Machine.execNetPortConfig a s
  | .netFilterSet a => Sys2Proof.Machine.execNetFilterSet a s
  | .netStats a => Sys2Proof.Machine.execNetStats a s
  | .netTxAllow a => Sys2Proof.Machine.execNetTxAllow a s
  | .fldPortConfig a => Sys2Proof.Machine.execFldPortConfig a s
  | .fldGpioKeySet a => Sys2Proof.Machine.execFldGpioKeySet a s
  | .fldKeyQuery a => Sys2Proof.Machine.execFldKeyQuery a s
  | .fldStats a => Sys2Proof.Machine.execFldStats a s
  | .lpAssign a => Sys2Proof.Machine.execLpAssign a s
  | .saiConfig a => Sys2Proof.Machine.execSaiConfig a s
  | .aesConfig a => Sys2Proof.Machine.execAesConfig a s
  | .lpStart a => Sys2Proof.Machine.execLpStart a s
  | .lpStop a => Sys2Proof.Machine.execLpStop a s
  | .aesCsSet a => Sys2Proof.Machine.execAesCsSet a s
  | .lpStats a => Sys2Proof.Machine.execLpStats a s
  | .timeTbConfig a => Sys2Proof.Machine.execTimeTbConfig a s
  | .timeAdjust a => Sys2Proof.Machine.execTimeAdjust a s
  | .timeQuery a => Sys2Proof.Machine.execTimeQuery a s
  | .timeCalSync a => Sys2Proof.Machine.execTimeCalSync a s
  | .timeSchedule a => Sys2Proof.Machine.execTimeSchedule a s
  | .refConfig a => Sys2Proof.Machine.execRefConfig a s
  | .refSelect a => Sys2Proof.Machine.execRefSelect a s
  | .refQuery a => Sys2Proof.Machine.execRefQuery a s
  | .refSynSet a => Sys2Proof.Machine.execRefSynSet a s
  | .twinConfig a => Sys2Proof.Machine.execTwinConfig a s
  | .twinSwitch a => Sys2Proof.Machine.execTwinSwitch a s
  | .twinQuery a => Sys2Proof.Machine.execTwinQuery a s
  | .twinClear a => Sys2Proof.Machine.execTwinClear a s
  | .twinProofSet a => Sys2Proof.Machine.execTwinProofSet a s
  | .cascadeEnumerate a => Sys2Proof.Machine.execCascadeEnumerate a s
  | .cascadeQuery a => Sys2Proof.Machine.execCascadeQuery a s
  | .cascadeForward a => Sys2Proof.Machine.execCascadeForward a s
  | .cascadeLegacySet a => Sys2Proof.Machine.execCascadeLegacySet a s
  | .i2cXfer a b c d e => Sys2Proof.Machine.execI2cXfer a b c d e s
  | .powerToleranceSet a => Sys2Proof.Machine.execPowerToleranceSet a s
  | .powerQuery a => Sys2Proof.Machine.execPowerQuery a s
  | .powerGateSet a => Sys2Proof.Machine.execPowerGateSet a s
  | .healthQuery a => Sys2Proof.Machine.execHealthQuery a s
  | .healthPolicySet a => Sys2Proof.Machine.execHealthPolicySet a s
  | .lakebedStoreRead a => Sys2Proof.Machine.execLakebedStoreRead a s
  | .lakebedStoreWrite a => Sys2Proof.Machine.execLakebedStoreWrite a s
  | .healthLogRead a => Sys2Proof.Machine.execHealthLogRead a s
  | .healthSpareForce a => Sys2Proof.Machine.execHealthSpareForce a s
  | .firmwareLoad a => Sys2Proof.Machine.execFirmwareLoad a s
  | .firmwareActivate a => Sys2Proof.Machine.execFirmwareActivate a s
  | .firmwareCommit a => Sys2Proof.Machine.execFirmwareCommit a s
  | .firmwareStatus a => Sys2Proof.Machine.execFirmwareStatus a s
  | .mbxDoorbell a b => Sys2Proof.Machine.execMbxDoorbell a b s
  | .mbxRspCiWrite a b => Sys2Proof.Machine.execMbxRspCiWrite a b s
  | .cmdTake a => Sys2Proof.Machine.execCmdTake a s
  | .cmdStart a b => Sys2Proof.Machine.execCmdStart a b s
  | .netControlDatagram a b c d e f => Sys2Proof.Machine.execNetControlDatagram a b c d e f s
  | .mgmtFailover a b c => Sys2Proof.Machine.execMgmtFailover a b c s
  | .mgmtDown => Sys2Proof.Machine.execMgmtDown s
  | .fwLoaded a => Sys2Proof.Machine.execFwLoaded a s
  | .fwHandoverTaken a => Sys2Proof.Machine.execFwHandoverTaken a s
  | .fwPauseTimeout => Sys2Proof.Machine.execFwPauseTimeout s
  | .queueDoorbell a b c d => Sys2Proof.Machine.execQueueDoorbell a b c d s
  | .coalTimeExpiry a => Sys2Proof.Machine.execCoalTimeExpiry a s
  | .hostTxFrame a => Sys2Proof.Machine.execHostTxFrame a s
  | .vfFlr a => Sys2Proof.Machine.execVfFlr a s
  | .pfFlr => Sys2Proof.Machine.execPfFlr s
  | .perst => Sys2Proof.Machine.execPerst s
  | .powerOnReset => Sys2Proof.Machine.execPowerOnReset s
  | .resetNLow => Sys2Proof.Machine.execResetNLow s
  | .supplyDrop a => Sys2Proof.Machine.execSupplyDrop a s
  | .thermalTrip a => Sys2Proof.Machine.execThermalTrip a s
  | .thermalClear => Sys2Proof.Machine.execThermalClear s
  | .backupPowerLoss => Sys2Proof.Machine.execBackupPowerLoss s
  | .resetRelease a => Sys2Proof.Machine.execResetRelease a s
  | .soscRunning => Sys2Proof.Machine.execSoscRunning s
  | .foscQualWindow a b => Sys2Proof.Machine.execFoscQualWindow a b s
  | .xaQualWindow a => Sys2Proof.Machine.execXaQualWindow a s
  | .rootPllLock => Sys2Proof.Machine.execRootPllLock s
  | .missingEdgeTrip a => Sys2Proof.Machine.execMissingEdgeTrip a s
  | .clkRetry => Sys2Proof.Machine.execClkRetry s
  | .swTimeout a => Sys2Proof.Machine.execSwTimeout a s
  | .foscSpareCheck a => Sys2Proof.Machine.execFoscSpareCheck a s
  | .lcPllFail a b => Sys2Proof.Machine.execLcPllFail a b s
  | .secureBoot a => Sys2Proof.Machine.execSecureBoot a s
  | .readiness a => Sys2Proof.Machine.execReadiness a s
  | .frameBoundary a => Sys2Proof.Machine.execFrameBoundary a s
  | .mclkUpdate => Sys2Proof.Machine.execMclkUpdate s
  | .estimatorWindow a => Sys2Proof.Machine.execEstimatorWindow a s
  | .netRxFrame a b => Sys2Proof.Machine.execNetRxFrame a b s
  | .noPacketForL a => Sys2Proof.Machine.execNoPacketForL a s
  | .legIdleTimeout a b => Sys2Proof.Machine.execLegIdleTimeout a b s
  | .calendarSlot a b => Sys2Proof.Machine.execCalendarSlot a b s
  | .netLinkChange a b c d => Sys2Proof.Machine.execNetLinkChange a b c d s
  | .netModeDone a => Sys2Proof.Machine.execNetModeDone a s
  | .pllCalDone a => Sys2Proof.Machine.execPllCalDone a s
  | .adaptDone a => Sys2Proof.Machine.execAdaptDone a s
  | .txnrHoldExpiry a b => Sys2Proof.Machine.execTxnrHoldExpiry a b s
  | .pauseHoldExpiry a b => Sys2Proof.Machine.execPauseHoldExpiry a b s
  | .pauseWdExpiry a b => Sys2Proof.Machine.execPauseWdExpiry a b s
  | .wdHoldExpiry a b => Sys2Proof.Machine.execWdHoldExpiry a b s
  | .lpiIdleExpiry a => Sys2Proof.Machine.execLpiIdleExpiry a s
  | .fldRxFrame a b => Sys2Proof.Machine.execFldRxFrame a b s
  | .plcaBeaconTimeout a => Sys2Proof.Machine.execPlcaBeaconTimeout a s
  | .beaconResume a => Sys2Proof.Machine.execBeaconResume a s
  | .plcaCycle a b => Sys2Proof.Machine.execPlcaCycle a b s
  | .fldPacketDeadline a => Sys2Proof.Machine.execFldPacketDeadline a s
  | .collision a b => Sys2Proof.Machine.execCollision a b s
  | .backoffExpiry a => Sys2Proof.Machine.execBackoffExpiry a s
  | .keyTimeout a b => Sys2Proof.Machine.execKeyTimeout a b s
  | .stuckTimeExpiry a b c d => Sys2Proof.Machine.execStuckTimeExpiry a b c d s
  | .gpioDebounceAccept a b => Sys2Proof.Machine.execGpioDebounceAccept a b s
  | .lpTrigger a => Sys2Proof.Machine.execLpTrigger a s
  | .lpPinFrame a b => Sys2Proof.Machine.execLpPinFrame a b s
  | .unmuteCountDone a => Sys2Proof.Machine.execUnmuteCountDone a s
  | .lpStopDone a b => Sys2Proof.Machine.execLpStopDone a b s
  | .lpClockLoss a => Sys2Proof.Machine.execLpClockLoss a s
  | .rateMeasure a b => Sys2Proof.Machine.execRateMeasure a b s
  | .aesLock a => Sys2Proof.Machine.execAesLock a s
  | .aesBlockEnd a b c d => Sys2Proof.Machine.execAesBlockEnd a b c d s
  | .aesSettleExpiry a => Sys2Proof.Machine.execAesSettleExpiry a s
  | .xbTick a => Sys2Proof.Machine.execXbTick a s
  | .xbStop => Sys2Proof.Machine.execXbStop s
  | .calCommitWrite a => Sys2Proof.Machine.execCalCommitWrite a s
  | .calLoad => Sys2Proof.Machine.execCalLoad s
  | .schedEntryFire a => Sys2Proof.Machine.execSchedEntryFire a s
  | .tbSlewDone a => Sys2Proof.Machine.execTbSlewDone a s
  | .tbAnchorWrite a b c => Sys2Proof.Machine.execTbAnchorWrite a b c s
  | .dpllUpdate => Sys2Proof.Machine.execDpllUpdate s
  | .refWindow a b c => Sys2Proof.Machine.execRefWindow a b c s
  | .refActivityLoss a => Sys2Proof.Machine.execRefActivityLoss a s
  | .syncInEdge => Sys2Proof.Machine.execSyncInEdge s
  | .synRelockDone a => Sys2Proof.Machine.execSynRelockDone a s
  | .apllUnlock => Sys2Proof.Machine.execApllUnlock s
  | .heartbeatSend => Sys2Proof.Machine.execHeartbeatSend s
  | .heartbeatRx a b => Sys2Proof.Machine.execHeartbeatRx a b s
  | .hbPathMiss a => Sys2Proof.Machine.execHbPathMiss a s
  | .leaseExpiry => Sys2Proof.Machine.execLeaseExpiry s
  | .standbyClaim => Sys2Proof.Machine.execStandbyClaim s
  | .twinPeerOeLow => Sys2Proof.Machine.execTwinPeerOeLow s
  | .soloWaitExpiry => Sys2Proof.Machine.execSoloWaitExpiry s
  | .lineWatchClaim a b => Sys2Proof.Machine.execLineWatchClaim a b s
  | .holdoffTakeback => Sys2Proof.Machine.execHoldoffTakeback s
  | .twinValuesRx a => Sys2Proof.Machine.execTwinValuesRx a s
  | .shadowCompareRx a b c d => Sys2Proof.Machine.execShadowCompareRx a b c d s
  | .twinResyncDone => Sys2Proof.Machine.execTwinResyncDone s
  | .cwLinkUp a => Sys2Proof.Machine.execCwLinkUp a s
  | .cwLaneDown a b c => Sys2Proof.Machine.execCwLaneDown a b c s
  | .enumRequest a => Sys2Proof.Machine.execEnumRequest a s
  | .enumResponse a => Sys2Proof.Machine.execEnumResponse a s
  | .enumTimeout => Sys2Proof.Machine.execEnumTimeout s
  | .fwdResponseRx a b => Sys2Proof.Machine.execFwdResponseRx a b s
  | .fwdTimeout a => Sys2Proof.Machine.execFwdTimeout a s
  | .chainAddrWrite a b => Sys2Proof.Machine.execChainAddrWrite a b s
  | .chainPartialWrite => Sys2Proof.Machine.execChainPartialWrite s
  | .chainBusTimeout => Sys2Proof.Machine.execChainBusTimeout s
  | .weirWindow => Sys2Proof.Machine.execWeirWindow s
  | .weirCommitWrite a => Sys2Proof.Machine.execWeirCommitWrite a s
  | .powerStateEntry => Sys2Proof.Machine.execPowerStateEntry s
  | .wakeEvent a => Sys2Proof.Machine.execWakeEvent a s
  | .telemetryTick a b => Sys2Proof.Machine.execTelemetryTick a b s
  | .scrubRead a b c d => Sys2Proof.Machine.execScrubRead a b c d s
  | .residueCheckFail a b => Sys2Proof.Machine.execResidueCheckFail a b s
  | .rowReplaceDone a b => Sys2Proof.Machine.execRowReplaceDone a b s
  | .lakebedWearPass a b => Sys2Proof.Machine.execLakebedWearPass a b s
  | .tarnRunStart a => Sys2Proof.Machine.execTarnRunStart a s
  | .tarnRunEnd a => Sys2Proof.Machine.execTarnRunEnd a s
  | .tarnSpareTakeover a b => Sys2Proof.Machine.execTarnSpareTakeover a b s
  | .tarnCoreFail a b => Sys2Proof.Machine.execTarnCoreFail a b s
  | .interruptEntry a => Sys2Proof.Machine.execInterruptEntry a s
  | .dmaDone a b c d => Sys2Proof.Machine.execDmaDone a b c d s
  | .tNop a => Sys2Proof.Machine.execTNop a s
  | .tWait a b => Sys2Proof.Machine.execTWait a b s
  | .tB a b c d => Sys2Proof.Machine.execTB a b c d s
  | .tCall a b c => Sys2Proof.Machine.execTCall a b c s
  | .tRet a b => Sys2Proof.Machine.execTRet a b s
  | .tRte a b => Sys2Proof.Machine.execTRte a b s
  | .tRti a b => Sys2Proof.Machine.execTRti a b s
  | .tTrap a b c => Sys2Proof.Machine.execTTrap a b c s
  | .tBreak a b => Sys2Proof.Machine.execTBreak a b s
  | .tSignal a b c => Sys2Proof.Machine.execTSignal a b c s
  | .tLoop a b c d e => Sys2Proof.Machine.execTLoop a b c d e s
  | .tRepeat a b c => Sys2Proof.Machine.execTRepeat a b c s
  | .tMvc a b c d e => Sys2Proof.Machine.execTMvc a b c d e s
  | .tLd a => Sys2Proof.Machine.execTLd a s
  | .tSt a => Sys2Proof.Machine.execTSt a s
  | .tLdai a b c => Sys2Proof.Machine.execTLdai a b c s
  | .tMovr a b c d e => Sys2Proof.Machine.execTMovr a b c d e s
  | .tModp a b c => Sys2Proof.Machine.execTModp a b c s
  | .tMov a => Sys2Proof.Machine.execTMov a s
  | .tAdd a => Sys2Proof.Machine.execTAdd a s
  | .tSub a => Sys2Proof.Machine.execTSub a s
  | .tAdc a => Sys2Proof.Machine.execTAdc a s
  | .tSbc a => Sys2Proof.Machine.execTSbc a s
  | .tNeg a => Sys2Proof.Machine.execTNeg a s
  | .tAbs a => Sys2Proof.Machine.execTAbs a s
  | .tMin a => Sys2Proof.Machine.execTMin a s
  | .tMax a => Sys2Proof.Machine.execTMax a s
  | .tAnd a => Sys2Proof.Machine.execTAnd a s
  | .tOr a => Sys2Proof.Machine.execTOr a s
  | .tXor a => Sys2Proof.Machine.execTXor a s
  | .tNot a => Sys2Proof.Machine.execTNot a s
  | .tAsl a => Sys2Proof.Machine.execTAsl a s
  | .tAsr a => Sys2Proof.Machine.execTAsr a s
  | .tLsr a => Sys2Proof.Machine.execTLsr a s
  | .tCmp a => Sys2Proof.Machine.execTCmp a s
  | .tTst a => Sys2Proof.Machine.execTTst a s
  | .tLdi a => Sys2Proof.Machine.execTLdi a s
  | .tAddi a => Sys2Proof.Machine.execTAddi a s
  | .tSubi a => Sys2Proof.Machine.execTSubi a s
  | .tAndi a => Sys2Proof.Machine.execTAndi a s
  | .tOri a => Sys2Proof.Machine.execTOri a s
  | .tXori a => Sys2Proof.Machine.execTXori a s
  | .tCmpi a => Sys2Proof.Machine.execTCmpi a s
  | .tShi a => Sys2Proof.Machine.execTShi a s
  | .tAclr a => Sys2Proof.Machine.execTAclr a s
  | .tAclrv a => Sys2Proof.Machine.execTAclrv a s
  | .tAmov a => Sys2Proof.Machine.execTAmov a s
  | .tAadd a => Sys2Proof.Machine.execTAadd a s
  | .tAsub a => Sys2Proof.Machine.execTAsub a s
  | .tAneg a => Sys2Proof.Machine.execTAneg a s
  | .tAabs a => Sys2Proof.Machine.execTAabs a s
  | .tAsh a => Sys2Proof.Machine.execTAsh a s
  | .tExt a => Sys2Proof.Machine.execTExt a s
  | .tExtv a => Sys2Proof.Machine.execTExtv a s
  | .tExtw a => Sys2Proof.Machine.execTExtw a s
  | .tMval a => Sys2Proof.Machine.execTMval a s
  | .tMvag a => Sys2Proof.Machine.execTMvag a s
  | .tMvda a => Sys2Proof.Machine.execTMvda a s
  | .tMvga a => Sys2Proof.Machine.execTMvga a s
  | .tDeph a => Sys2Proof.Machine.execTDeph a s
  | .tDivs a b c d e f => Sys2Proof.Machine.execTDivs a b c d e f s
  | .tMac a => Sys2Proof.Machine.execTMac a s
  | .tMsu a => Sys2Proof.Machine.execTMsu a s
  | .tMpy a => Sys2Proof.Machine.execTMpy a s
  | .tMpyn a => Sys2Proof.Machine.execTMpyn a s
  | .devRstKeyWrite a b => Sys2Proof.Machine.execDevRstKeyWrite a b s
  | .armedLapse => Sys2Proof.Machine.execArmedLapse s
  | .twinFenceWrite a b => Sys2Proof.Machine.execTwinFenceWrite a b s
  | .w1cWrite a b c d => Sys2Proof.Machine.execW1cWrite a b c d s
  | .counterLowRead a b => Sys2Proof.Machine.execCounterLowRead a b s
  | .registerWrite a b c d => Sys2Proof.Machine.execRegisterWrite a b c d s
  | .voteSweep => Sys2Proof.Machine.execVoteSweep s
  | .twinPeerOeHigh => Sys2Proof.Machine.execTwinPeerOeHigh s
  | .ptpMasterLoss a => Sys2Proof.Machine.execPtpMasterLoss a s
  | .aesLockLoss a => Sys2Proof.Machine.execAesLockLoss a s
  | .apllRelock => Sys2Proof.Machine.execApllRelock s
  | .lcPllRequalify a b => Sys2Proof.Machine.execLcPllRequalify a b s
  | .timeTransferRx a b => Sys2Proof.Machine.execTimeTransferRx a b s
  | .cascadeLegFrameRx a b c d => Sys2Proof.Machine.execCascadeLegFrameRx a b c d s
  | .configMirrorRx a b => Sys2Proof.Machine.execConfigMirrorRx a b s
  | .resetAfterResponse => Sys2Proof.Machine.execResetAfterResponse s
  | .gpioInputChange a b => Sys2Proof.Machine.execGpioInputChange a b s
  | .mgmtFailoverDone a b => Sys2Proof.Machine.execMgmtFailoverDone a b s
  | .powerStateEntryDone => Sys2Proof.Machine.execPowerStateEntryDone s
  | .wakeDone => Sys2Proof.Machine.execWakeDone s
  | .receiveLpiChange a b => Sys2Proof.Machine.execReceiveLpiChange a b s
  | .lpiWakeTimeExpiry a => Sys2Proof.Machine.execLpiWakeTimeExpiry a s
  | .mirrorWrite a => Sys2Proof.Machine.execMirrorWrite a s

end Sys2Proof.Machine
end

