-- ==== Sys2Proof/Machine/Step.lean ====
section
/-! DEFINITION. One step: the command at the front of the queue, or an idle tick. -/
namespace Sys2Proof.Machine

/-- One step takes the command at the front of the queue and answers what it does to the state with the queue's rest; on
an empty queue one Mere cycle passes (log entry 6). -/
def step (s : State) : Host.Outcome State Fault Refusal :=
  match s.pending with
  | [] => run s (advance 1)
  | i :: rest => exec i { s with pending := rest }

/-- `s` with the command a table word spells at the front of its queue; no word spells one (log entry 5). -/
def State.withFetchWord (s : State) (nbits w : Nat) : State :=
  match decodeTableWord nbits w with
  | some i => { s with pending := i :: s.pending }
  | none => s

end Sys2Proof.Machine
end

