-- ==== Sys2Proof/Safety.lean ====
section
/-! DEFINITION. The terms that claims use: how a step ends, what a mailbox that serves its issuer holds, the command of each row of the
command set, and what holds after every step. -/
namespace Sys2Proof.Machine

/-- The state in which a step from `s` ends whose effect has led to `u`: the events of the step are delivered, the pins driven, and the
queue of commands is that of `s`. -/
def settled (s u : State) : State := { drive (flush u) with pending := s.pending }

/-- What a step begins with: nothing it has sent yet. -/
def begun (s : State) : State := { s with out := [] }

/-- The device is in Run and enters no deeper state, so no wake event changes anything (19 R368). -/
def awake (s : State) : Bool := s.pwr.state == 0 && s.pwr.entering == none

/-- FAULT_N as DEV_FAULT[2:0] and the start-up drive it (20 DEV_FAULT, 14 R296, 23 R411). -/
def faultPin (s : State) : Bool := s.clk.started && !(s.dev.safe || s.dev.bootHalt || s.ctl.mgmtDown)

/-- Between steps no event waits to be written, and FAULT_N is as it is driven. -/
def AtRest (s : State) : Prop := s.evs = [] ∧ s.dev.faultN = faultPin s

/-- The mailbox of a link or of a function is empty and has room: nothing waits in its rings, and a response entry is free (02 R34). -/
def Mbx.idle (m : Mbx) : Bool :=
  decide (m.pi < 128) && m.cmdCi == m.pi && m.taken.isEmpty && m.side.isEmpty && decide ((m.pi + 1 + 128 - m.rspCi) % 128 ≤ 64)

/-- Mailbox `mb` serves its issuer at once: it is ready and idle, and firmware serves in Run with no other command to start (02 R34, R36). -/
def serves (s : State) (mb : Nat) : Bool :=
  mbExists mb && mbReady s mb && awake s && s.clk.started && s.ctl.stage == 4 && s.ctl.inFlight.isNone && !s.ctl.paused && !s.ctl.handover
    && (nextMailbox s).isNone && (mbox s mb).idle

/-- A mailbox after the descriptor `d` has been posted, taken and started (02 R32, R34). -/
def Mbx.posted (m : Mbx) (d : Desc) : Mbx :=
  let i := (m.pi + 1) % 128
  { m with cmd := mwrite m.cmd ((m.pi % 64) * 64) (descBytes d), dbResult := 0, pi := i, cmdCi := i }

/-- The row of the command set that a command of the block is, with its request. -/
def scsRow : Instr → Option (Cmd × Req)
  | .deviceReset r => some (cmdDeviceReset, r)
  | .deviceMailboxSet r => some (cmdMailboxSet, r)
  | .tenantCreate r => some (cmdTenantCreate, r)
  | .tenantDestroy r => some (cmdTenantDestroy, r)
  | .tenantQuotaSet r => some (cmdQuotaSet, r)
  | .tenantBind r => some (cmdTenantBind, r)
  | .tenantUnbind r => some (cmdTenantUnbind, r)
  | .tenantQuery r => some (cmdTenantQuery, r)
  | .queueCreate r => some (cmdQueueCreate, r)
  | .queueDestroy r => some (cmdQueueDestroy, r)
  | .queueQuery r => some (cmdQueueQuery, r)
  | .queueStats r => some (cmdQueueStats, r)
  | .queueIntSet r => some (cmdIntSet, r)
  | .queueIntMode r => some (cmdIntMode, r)
  | .streamOpen r => some (cmdStreamOpen, r)
  | .streamClose r => some (cmdStreamClose, r)
  | .streamModify r => some (cmdStreamModify, r)
  | .streamQuery r => some (cmdStreamQuery, r)
  | .streamKeySet r => some (cmdKeySet, r)
  | .streamStats r => some (cmdStreamStats, r)
  | .mclkBind r => some (cmdMclkBind, r)
  | .mclkQuery r => some (cmdMclkQuery, r)
  | .mclkEstimatorSet r => some (cmdEstimator, r)
  | .mclkModeSet r => some (cmdModeSet, r)
  | .mclkStreamQuery r => some (cmdMclkStream, r)
  | .mclkSynBind r => some (cmdSynBind, r)
  | .eddyQuery r => some (cmdEddyQuery, r)
  | .mixBusCreate r => some (cmdBusCreate, r)
  | .mixBusDestroy r => some (cmdBusDestroy, r)
  | .mixBusSet r => some (cmdBusSet, r)
  | .mixKeyBind r => some (cmdKeyBind, r)
  | .mixConfig r => some (cmdMixConfig, r)
  | .mixStats r => some (cmdMixStats, r)
  | .tarnLoad r => some (cmdTarnLoad, r)
  | .tarnUnload r => some (cmdTarnUnload, r)
  | .tarnParam r => some (cmdTarnParam, r)
  | .tarnQuery r => some (cmdTarnQuery, r)
  | .tarnRestart r => some (cmdTarnRestart, r)
  | .tarnStats r => some (cmdTarnStats, r)
  | .netModeSet r => some (cmdNetMode, r)
  | .netPortConfig r => some (cmdPortConfig, r)
  | .netFilterSet r => some (cmdFilter, r)
  | .netStats r => some (cmdNetStats, r)
  | .netTxAllow r => some (cmdTxAllow, r)
  | .fldPortConfig r => some (cmdFldConfig, r)
  | .fldGpioKeySet r => some (cmdGpioKey, r)
  | .fldKeyQuery r => some (cmdKeyQuery, r)
  | .fldStats r => some (cmdFldStats, r)
  | .lpAssign r => some (cmdLpAssign, r)
  | .saiConfig r => some (cmdSaiConfig, r)
  | .aesConfig r => some (cmdAesConfig, r)
  | .lpStart r => some (cmdLpStart, r)
  | .lpStop r => some (cmdLpStop, r)
  | .aesCsSet r => some (cmdCsSet, r)
  | .lpStats r => some (cmdLpStats, r)
  | .timeTbConfig r => some (cmdTbConfig, r)
  | .timeAdjust r => some (cmdAdjust, r)
  | .timeQuery r => some (cmdTimeQuery, r)
  | .timeCalSync r => some (cmdCalSync, r)
  | .timeSchedule r => some (cmdSchedule, r)
  | .refConfig r => some (cmdRefConfig, r)
  | .refSelect r => some (cmdRefSelect, r)
  | .refQuery r => some (cmdRefQuery, r)
  | .refSynSet r => some (cmdSynSet, r)
  | .twinConfig r => some (cmdTwinConfig, r)
  | .twinSwitch r => some (cmdTwinSwitch, r)
  | .twinQuery r => some (cmdTwinQuery, r)
  | .twinClear r => some (cmdTwinClear, r)
  | .twinProofSet r => some (cmdProofSet, r)
  | .cascadeEnumerate r => some (cmdEnumerate, r)
  | .cascadeQuery r => some (cmdCascadeQuery, r)
  | .cascadeForward r => some (cmdForward, r)
  | .cascadeLegacySet r => some (cmdLegacy, r)
  | .powerToleranceSet r => some (cmdTolerance, r)
  | .powerQuery r => some (cmdPowerQuery, r)
  | .powerGateSet r => some (cmdGateSet, r)
  | .healthQuery r => some (cmdHealthQuery, r)
  | .healthPolicySet r => some (cmdHealthPolicy, r)
  | .lakebedStoreRead r => some (cmdStoreRead, r)
  | .lakebedStoreWrite r => some (cmdStoreWrite, r)
  | .healthLogRead r => some (cmdLogRead, r)
  | .healthSpareForce r => some (cmdSpareForce, r)
  | .firmwareLoad r => some (cmdFwLoad, r)
  | .firmwareActivate r => some (cmdFwActivate, r)
  | .firmwareCommit r => some (cmdFwCommit, r)
  | .firmwareStatus r => some (cmdFwStatus, r)
  | .i2cXfer r a b c d => some (cmdI2c (some ⟨a, b, c, d⟩), r)
  | _ => none

/-- The mailbox of a posted row once the row has been taken and started. -/
def rowMbx (k : Cmd) (r : Req) (s : State) : Mbx := (mbox s r.mb).posted (rowDesc k r)

/-- The descriptor of a posted row as firmware reads it from the ring. -/
def rowEntry (k : Cmd) (r : Req) (s : State) : Desc := entryDesc (rowMbx k r s) (mbox s r.mb).pi

/-- The state in which a posted row is checked and executed: its mailbox has had its turn. -/
def rowStart (k : Cmd) (r : Req) (s : State) : State := turnTaken r.mb { begun s with mbx := tset s.mbx r.mb (rowMbx k r s) }

/-- FENCE does not hold the row back (02 R29). -/
def fenceFree (k : Cmd) (r : Req) (s : State) : Bool := !(bit (rowEntry k r s).flags 1) || !(s.ctl.pend.any (·.mb == r.mb))

/-- The checks of a posted row (22 R398). -/
def rowCheck (k : Cmd) (r : Req) (s : State) : Verdict :=
  check k r.mb (rightsOf s r.mb) (rowEntry k r s) r.carried r.readFails false (rowStart k r s)

/-- Whether the row is a command that a serving mailbox takes at once, that passes every check and is to be applied, not only tried. -/
def passes (i : Instr) (s : State) : Bool :=
  match scsRow i with
  | some (k, r) => serves s r.mb && fenceFree k r s && (match rowCheck k r s with | .go _ c => !c.dry | .fail _ _ _ => false)
  | none => false

/-- A descriptor whose fields fit their widths (02 R28). -/
def descFits (d : Desc) : Bool :=
  decide (d.opcode < 2 ^ 16) && decide (d.flags < 2 ^ 16) && decide (d.tenant < 2 ^ 16) && decide (d.tag < 2 ^ 16) && decide (d.length < 2 ^ 32)
    && decide (d.rsvd < 2 ^ 32) && d.payload.length == 48

/-- Core `n` issues the instruction at its PC, no halt waits for its end, and the word there is neither lost nor undefined nor barred from
its place (07 R166, R168, 08 R180). -/
def ready (s : State) (n : Nat) (place : Place) : Bool :=
  s.clk.running && (core s n).issues && !(core s n).haltReq && !poisoned s (.tarnImem n (core s n).pc.toNat)
    && !noInstruction (mget 0 (core s n).imem (core s n).pc.toNat) && !(core s n).barred place

/-- The state in which an instruction of core `n` that leaves its registers as `c` and takes `used` memory ports has completed: issue goes
to the next instruction, and stores are written: through the ports left free, those a load waits for (`forced`), and those beyond the
fourth (07 R172, R173). -/
def retired (n used : Nat) (c : Core) (s : State) (forced : Nat := 0) : State :=
  drainK n (max (2 - used) (max forced (c.stores.length - 4))) (setCore (begun s) n c.complete)

/-- A core whose carry is set to a value an instruction gives, if it gives one. -/
def Core.withCarry (c : Core) (k : Option Bool) : Core := match k with | some b => c.setFlag 2 b | none => c

/-- The core that a Tarn instruction runs on; none for the other commands. -/
def tarnCore : Instr → Option Nat
  | .tNop n => some n
  | .tWait n _ => some n
  | .tB n _ _ _ => some n
  | .tCall n _ _ => some n
  | .tRet n _ => some n
  | .tRte n _ => some n
  | .tRti n _ => some n
  | .tTrap n _ _ => some n
  | .tBreak n _ => some n
  | .tSignal n _ _ => some n
  | .tLoop n _ _ _ _ => some n
  | .tRepeat n _ _ => some n
  | .tMvc n _ _ _ _ => some n
  | .tLd a => some a.core
  | .tSt a => some a.core
  | .tLdai n _ _ => some n
  | .tMovr n _ _ _ _ => some n
  | .tModp n _ _ => some n
  | .tMov a => some a.core
  | .tAdd a => some a.core
  | .tSub a => some a.core
  | .tAdc a => some a.core
  | .tSbc a => some a.core
  | .tNeg a => some a.core
  | .tAbs a => some a.core
  | .tMin a => some a.core
  | .tMax a => some a.core
  | .tAnd a => some a.core
  | .tOr a => some a.core
  | .tXor a => some a.core
  | .tNot a => some a.core
  | .tAsl a => some a.core
  | .tAsr a => some a.core
  | .tLsr a => some a.core
  | .tCmp a => some a.core
  | .tTst a => some a.core
  | .tLdi a => some a.core
  | .tAddi a => some a.core
  | .tSubi a => some a.core
  | .tAndi a => some a.core
  | .tOri a => some a.core
  | .tXori a => some a.core
  | .tCmpi a => some a.core
  | .tShi a => some a.core
  | .tAclr a => some a.core
  | .tAclrv a => some a.core
  | .tAmov a => some a.core
  | .tAadd a => some a.core
  | .tAsub a => some a.core
  | .tAneg a => some a.core
  | .tAabs a => some a.core
  | .tAsh a => some a.core
  | .tExt a => some a.core
  | .tExtv a => some a.core
  | .tExtw a => some a.core
  | .tMval a => some a.core
  | .tMvag a => some a.core
  | .tMvda a => some a.core
  | .tMvga a => some a.core
  | .tDeph a => some a.core
  | .tDivs n _ _ _ _ _ => some n
  | .tMac a => some a.core
  | .tMsu a => some a.core
  | .tMpy a => some a.core
  | .tMpyn a => some a.core
  | _ => none

end Sys2Proof.Machine
end

