-- ==== Sys2Proof/WellFormed.lean ====
section
/-! DEFINITION. Which commands are well formed: every operand in the range the spec gives it (mailboxes 02 and 22 R403, tenants 03, ports 10
to 12, time bases 13, candidates 15, lanes 17, cores 09). -/
namespace Sys2Proof

/-- A local port's code: SAI0 to SAI31, AESI0 to AESI7, AESO0 to AESO7 (12). -/
def lpCode (k : Nat) : Bool := decide (k < 0x30)

/-- A Tarn core: 16 clusters of 17 (09). -/
def coreWf (n : Nat) : Bool := decide (n < 272)

/-- The fields of a descriptor fit their widths, with 48 bytes of payload (02 R28). -/
def Desc.wf (d : Desc) : Bool :=
  decide (d.opcode < 2 ^ 16) && decide (d.flags < 2 ^ 16) && decide (d.tenant < 2 ^ 16) && decide (d.tag < 2 ^ 16) && decide (d.length < 2 ^ 32)
    && decide (d.rsvd < 2 ^ 32) && d.payload.length == 48

/-- A request of one of the 519 mailboxes (22 R403), with an indirect payload only where a mailbox carries one (02 R25). -/
def Req.wf (r : Req) : Bool := decide (r.mb < 519) && (r.carried.isEmpty || decide (514 ≤ r.mb)) && r.desc.wf

/-- A frame of at least its addresses and EtherType; the capture lies in an eighth of a Mere cycle (13 R273). -/
def RxFrame.wf (f : RxFrame) : Bool := decide (14 ≤ f.bytes.length) && decide (f.eighth < 8)

/-- A transmit opportunity is that of a node 0 to 254 (11 R231). -/
def FldRx.wf : FldRx → Bool
  | .beacon => true
  | .frame f o => f.wf && decide (o < 255)

/-- A function 1 to 512 (20 R382). -/
def Path.wf : Path → Bool
  | .pf => true
  | .vf n => decide (1 ≤ n ∧ n ≤ 512)
  | .chain => true
  | .causeway => true
  | .wellhead => true

/-- A role of 16 R317 and an EPOCH of 8 bits (16 R320). -/
def Heartbeat.wf (h : Heartbeat) : Bool := decide (h.state < 6) && decide (h.epoch < 256)

/-- Values of a frame of a tenant: receive streams, slips at an instant, keys of a port (16 R324). -/
def TwinStream.wf (v : TwinStream) : Bool := decide (v.stream < 65536) && decide (v.slip < 3)
def TwinVals.wf (v : TwinVals) : Bool :=
  decide (v.tenant < 512) && v.streams.all TwinStream.wf && v.rings.all (fun e => decide (e.1 < 2 ^ 20)) && v.acts.all (fun e => decide (e.entry < 64))
    && v.buses.all (fun b => decide (b < 2 ^ 18)) && v.queues.all (fun q => decide (q < 2 ^ 18)) && v.ports.all (fun e => lpCode e.1)

/-- An answer to enumeration: a lane, a hop count that counts its path, the codes of the straps (17 R336). -/
def EnumInfo.wf (i : EnumInfo) : Bool :=
  decide (i.ident < 2 ^ 64) && decide (i.lane < 4) && decide (i.hops < 64) && i.path.all (fun l => decide (l < 4)) && decide (i.twinId < 4) && decide (i.bootSel < 4)
    && decide (i.stage < 16)

/-- A pin frame: no more bits than BCLK periods; a word, a parity and a validity bit for each AES3 subframe (12 R249, R264). -/
def PinFrame.wf (f : PinFrame) : Bool :=
  decide (f.din.length ≤ f.bclks) && decide (f.din2.length ≤ f.bclks) && decide (f.words.length ≤ 2) && decide (f.parity.length ≤ 2) && decide (f.validity.length ≤ 2) && decide (f.watched.length ≤ 32)

/-- The owner of a word: a stream, a queue, a core (18 R351). -/
def MemOwner.wf : MemOwner → Bool
  | .jitter k _ => decide (k < 65536)
  | .queueCtx q => decide (q < 2 ^ 20)
  | .eddyState k => decide (k < 65536)
  | .eddyPort k _ => lpCode k
  | .poolState q => decide (q < 2 ^ 20)
  | .tarnLocal n _ => coreWf n
  | .tarnCluster c _ => decide (c < 16)
  | .tarnImem n a => coreWf n && decide (a < 16384)
  | .hbmWindow t _ => decide (t < 2 ^ 20)
  | .wellhead => true
  | .other => true

/-- Every operand is in its range. -/
def Instr.wf : Instr → Bool
  | .deviceReset r => r.wf
  | .deviceMailboxSet r => r.wf
  | .tenantCreate r => r.wf
  | .tenantDestroy r => r.wf
  | .tenantQuotaSet r => r.wf
  | .tenantBind r => r.wf
  | .tenantUnbind r => r.wf
  | .tenantQuery r => r.wf
  | .queueCreate r => r.wf
  | .queueDestroy r => r.wf
  | .queueQuery r => r.wf
  | .queueStats r => r.wf
  | .queueIntSet r => r.wf
  | .queueIntMode r => r.wf
  | .streamOpen r => r.wf
  | .streamClose r => r.wf
  | .streamModify r => r.wf
  | .streamQuery r => r.wf
  | .streamKeySet r => r.wf
  | .streamStats r => r.wf
  | .mclkBind r => r.wf
  | .mclkQuery r => r.wf
  | .mclkEstimatorSet r => r.wf
  | .mclkModeSet r => r.wf
  | .mclkStreamQuery r => r.wf
  | .mclkSynBind r => r.wf
  | .eddyQuery r => r.wf
  | .mixBusCreate r => r.wf
  | .mixBusDestroy r => r.wf
  | .mixBusSet r => r.wf
  | .mixKeyBind r => r.wf
  | .mixConfig r => r.wf
  | .mixStats r => r.wf
  | .tarnLoad r => r.wf
  | .tarnUnload r => r.wf
  | .tarnParam r => r.wf
  | .tarnQuery r => r.wf
  | .tarnRestart r => r.wf
  | .tarnStats r => r.wf
  | .netModeSet r => r.wf
  | .netPortConfig r => r.wf
  | .netFilterSet r => r.wf
  | .netStats r => r.wf
  | .netTxAllow r => r.wf
  | .fldPortConfig r => r.wf
  | .fldGpioKeySet r => r.wf
  | .fldKeyQuery r => r.wf
  | .fldStats r => r.wf
  | .lpAssign r => r.wf
  | .saiConfig r => r.wf
  | .aesConfig r => r.wf
  | .lpStart r => r.wf
  | .lpStop r => r.wf
  | .aesCsSet r => r.wf
  | .lpStats r => r.wf
  | .timeTbConfig r => r.wf
  | .timeAdjust r => r.wf
  | .timeQuery r => r.wf
  | .timeCalSync r => r.wf
  | .timeSchedule r => r.wf
  | .refConfig r => r.wf
  | .refSelect r => r.wf
  | .refQuery r => r.wf
  | .refSynSet r => r.wf
  | .twinConfig r => r.wf
  | .twinSwitch r => r.wf
  | .twinQuery r => r.wf
  | .twinClear r => r.wf
  | .twinProofSet r => r.wf
  | .cascadeEnumerate r => r.wf
  | .cascadeQuery r => r.wf
  | .cascadeForward r => r.wf
  | .cascadeLegacySet r => r.wf
  | .i2cXfer r sdaPulses result _ _ => r.wf && decide (sdaPulses < 11) && decide (result < 4)
  | .powerToleranceSet r => r.wf
  | .powerQuery r => r.wf
  | .powerGateSet r => r.wf
  | .healthQuery r => r.wf
  | .healthPolicySet r => r.wf
  | .lakebedStoreRead r => r.wf
  | .lakebedStoreWrite r => r.wf
  | .healthLogRead r => r.wf
  | .healthSpareForce r => r.wf
  | .firmwareLoad r => r.wf
  | .firmwareActivate r => r.wf
  | .firmwareCommit r => r.wf
  | .firmwareStatus r => r.wf
  | .mbxDoorbell mb _ => decide (mb < 519)
  | .mbxRspCiWrite mb _ => decide (mb < 519)
  | .cmdTake mb => decide (mb < 519)
  | .cmdStart _ _ => true
  | .netControlDatagram session seq _ tag srcAddr srcPort => decide (session < 4) && decide (seq < 2 ^ 64) && tag.length == 16 && (srcAddr.length == 4 || srcAddr.length == 16) && decide (srcPort < 65536)
  | .mgmtFailover phase _ _ => decide (phase < 3)
  | .mgmtDown => true
  | .fwLoaded _ => true
  | .fwHandoverTaken _ => true
  | .fwPauseTimeout => true
  | .queueDoorbell fn off size _ => decide (fn < 513) && decide (off < 2 ^ 23) && decide (size < 9)
  | .coalTimeExpiry q => decide (q < 2 ^ 20)
  | .hostTxFrame q => decide (q < 2 ^ 20)
  | .vfFlr n => decide (1 ≤ n ∧ n ≤ 512)
  | .pfFlr => true
  | .perst => true
  | .powerOnReset => true
  | .resetNLow => true
  | .supplyDrop rail => decide (rail < 6)
  | .thermalTrip _ => true
  | .thermalClear => true
  | .backupPowerLoss => true
  | .resetRelease _ => true
  | .soscRunning => true
  | .foscQualWindow osc _ => decide (osc < 2)
  | .xaQualWindow _ => true
  | .rootPllLock => true
  | .missingEdgeTrip src => decide (src < 5)
  | .clkRetry => true
  | .swTimeout domain => decide (domain < 338)
  | .foscSpareCheck _ => true
  | .lcPllFail k _ => decide (k < 4)
  | .secureBoot _ => true
  | .readiness _ => true
  | .frameBoundary t => decide (t < 512)
  | .mclkUpdate => true
  | .estimatorWindow stream => decide (stream < 65536)
  | .netRxFrame port f => decide (port < 8) && f.wf
  | .noPacketForL stream => decide (stream < 65536)
  | .legIdleTimeout stream leg => decide (stream < 65536) && decide (leg < 2)
  | .calendarSlot stream leg => decide (stream < 65536) && decide (leg < 2)
  | .netLinkChange port _ _ _ => decide (port < 8)
  | .netModeDone group => decide (group < 3)
  | .pllCalDone k => decide (k < 2)
  | .adaptDone port => decide (port < 8)
  | .txnrHoldExpiry port cls => decide (port < 8) && decide (cls < 8)
  | .pauseHoldExpiry port cls => decide (port < 8) && decide (cls < 8)
  | .pauseWdExpiry port cls => decide (port < 8) && decide (cls < 8)
  | .wdHoldExpiry port cls => decide (port < 8) && decide (cls < 8)
  | .lpiIdleExpiry port => decide (port < 8)
  | .fldRxFrame port f => decide (port < 16) && f.wf
  | .plcaBeaconTimeout port => decide (port < 16)
  | .beaconResume port => decide (port < 16)
  | .plcaCycle port _ => decide (port < 16)
  | .fldPacketDeadline port => decide (port < 16)
  | .collision port _ => decide (port < 16)
  | .backoffExpiry port => decide (port < 16)
  | .keyTimeout port node => decide (port < 16) && decide (node < 256)
  | .stuckTimeExpiry src port node key => decide (src < 2) && decide (port < 32) && decide (node < 256) && decide (key < 256)
  | .gpioDebounceAccept pin _ => decide (pin < 32)
  | .lpTrigger code => lpCode code
  | .lpPinFrame code f => lpCode code && f.wf
  | .unmuteCountDone code => lpCode code
  | .lpStopDone code _ => lpCode code
  | .lpClockLoss code => lpCode code
  | .rateMeasure code meas => lpCode code && decide (meas < 2 ^ 22)
  | .aesLock n => decide (n < 8)
  | .aesBlockEnd n csA csB _ => decide (n < 8) && csA.length == 24 && csB.length == 24
  | .aesSettleExpiry n => decide (n < 8)
  | .xbTick n => decide (1 ≤ n ∧ n ≤ 32768)
  | .xbStop => true
  | .calCommitWrite _ => true
  | .calLoad => true
  | .schedEntryFire e => decide (e < 64)
  | .tbSlewDone tb => decide (tb < 16)
  | .tbAnchorWrite tb sec ns => decide (tb < 16) && decide (sec < 2 ^ 48) && decide (ns < 1000000000)
  | .dpllUpdate => true
  | .refWindow cand _ _ => decide (cand < 66)
  | .refActivityLoss cand => decide (cand < 66)
  | .syncInEdge => true
  | .synRelockDone n => decide (n < 8)
  | .apllUnlock => true
  | .heartbeatSend => true
  | .heartbeatRx path hb => (path == 1 || path == 2) && hb.wf
  | .hbPathMiss path => (path == 1 || path == 2)
  | .leaseExpiry => true
  | .standbyClaim => true
  | .twinPeerOeLow => true
  | .soloWaitExpiry => true
  | .lineWatchClaim port slot => lpCode port && decide (slot < 32)
  | .holdoffTakeback => true
  | .twinValuesRx v => v.wf
  | .shadowCompareRx tenant _ _ _ => decide (tenant < 512)
  | .twinResyncDone => true
  | .cwLinkUp lane => decide (lane < 4)
  | .cwLaneDown lane lost _ => decide (lane < 4) && lost.all (fun d => decide (1 ≤ d ∧ d < 64))
  | .enumRequest lane => decide (lane < 4)
  | .enumResponse info => info.wf
  | .enumTimeout => true
  | .fwdResponseRx device rsp => decide (device < 64) && (rsp.length == 32 || rsp.length == 16)
  | .fwdTimeout device => decide (device < 64)
  | .chainAddrWrite via _ => decide (via < 128)
  | .chainPartialWrite => true
  | .chainBusTimeout => true
  | .weirWindow => true
  | .weirCommitWrite _ => true
  | .powerStateEntry => true
  | .wakeEvent _ => true
  | .telemetryTick margins _ => margins.all (fun m => decide (m.1 < 338))
  | .scrubRead owner _ _ _ => owner.wf
  | .residueCheckFail kind bank => (kind == 2 || kind == 3) && decide (bank < 13)
  | .rowReplaceDone _ _ => true
  | .lakebedWearPass weak failed => weak.all (fun n => decide (n < 2 ^ 20)) && failed.all (fun n => decide (n < 2 ^ 20))
  | .tarnRunStart task => decide (task < 2 ^ 20)
  | .tarnRunEnd task => decide (task < 2 ^ 20)
  | .tarnSpareTakeover cluster core => decide (cluster < 16) && decide (core < 17)
  | .tarnCoreFail cluster core => decide (cluster < 16) && decide (core < 17)
  | .interruptEntry core => coreWf core
  | .dmaDone core ch _ _ => coreWf core && decide (ch < 4)
  | .tNop core => coreWf core
  | .tWait core _ => coreWf core
  | .tB core _ _ _ => coreWf core
  | .tCall core _ _ => coreWf core
  | .tRet core _ => coreWf core
  | .tRte core _ => coreWf core
  | .tRti core _ => coreWf core
  | .tTrap core _ _ => coreWf core
  | .tBreak core _ => coreWf core
  | .tSignal core _ _ => coreWf core
  | .tLoop core _ _ _ _ => coreWf core
  | .tRepeat core _ _ => coreWf core
  | .tMvc core _ _ _ _ => coreWf core
  | .tLd a => coreWf a.core
  | .tSt a => coreWf a.core
  | .tLdai core _ _ => coreWf core
  | .tMovr core _ _ _ _ => coreWf core
  | .tModp core _ _ => coreWf core
  | .tMov a => coreWf a.core
  | .tAdd a => coreWf a.core
  | .tSub a => coreWf a.core
  | .tAdc a => coreWf a.core
  | .tSbc a => coreWf a.core
  | .tNeg a => coreWf a.core
  | .tAbs a => coreWf a.core
  | .tMin a => coreWf a.core
  | .tMax a => coreWf a.core
  | .tAnd a => coreWf a.core
  | .tOr a => coreWf a.core
  | .tXor a => coreWf a.core
  | .tNot a => coreWf a.core
  | .tAsl a => coreWf a.core
  | .tAsr a => coreWf a.core
  | .tLsr a => coreWf a.core
  | .tCmp a => coreWf a.core
  | .tTst a => coreWf a.core
  | .tLdi a => coreWf a.core
  | .tAddi a => coreWf a.core
  | .tSubi a => coreWf a.core
  | .tAndi a => coreWf a.core
  | .tOri a => coreWf a.core
  | .tXori a => coreWf a.core
  | .tCmpi a => coreWf a.core
  | .tShi a => coreWf a.core
  | .tAclr a => coreWf a.core
  | .tAclrv a => coreWf a.core
  | .tAmov a => coreWf a.core
  | .tAadd a => coreWf a.core
  | .tAsub a => coreWf a.core
  | .tAneg a => coreWf a.core
  | .tAabs a => coreWf a.core
  | .tAsh a => coreWf a.core
  | .tExt a => coreWf a.core
  | .tExtv a => coreWf a.core
  | .tExtw a => coreWf a.core
  | .tMval a => coreWf a.core
  | .tMvag a => coreWf a.core
  | .tMvda a => coreWf a.core
  | .tMvga a => coreWf a.core
  | .tDeph a => coreWf a.core
  | .tDivs core _ _ _ _ _ => coreWf core
  | .tMac a => coreWf a.core
  | .tMsu a => coreWf a.core
  | .tMpy a => coreWf a.core
  | .tMpyn a => coreWf a.core
  | .devRstKeyWrite path _ => path.wf
  | .armedLapse => true
  | .twinFenceWrite path _ => path.wf
  | .w1cWrite path _ size _ => path.wf && decide (size < 9)
  | .counterLowRead path _ => path.wf
  | .registerWrite path _ size _ => path.wf && decide (size < 9)
  | .voteSweep => true
  | .twinPeerOeHigh => true
  | .ptpMasterLoss tb => decide (tb < 16)
  | .aesLockLoss n => decide (n < 8)
  | .apllRelock => true
  | .lcPllRequalify k _ => decide (k < 4)
  | .timeTransferRx tb _ => decide (tb < 16)
  | .cascadeLegFrameRx lane dst streamId _ => decide (lane < 4) && decide (dst < 64) && streamId.length == 8
  | .configMirrorRx r choice => r.wf && decide (choice < 2 ^ 48)
  | .resetAfterResponse => true
  | .gpioInputChange pin _ => decide (pin < 32)
  | .mgmtFailoverDone _ _ => true
  | .powerStateEntryDone => true
  | .wakeDone => true
  | .receiveLpiChange port _ => decide (port < 8)
  | .lpiWakeTimeExpiry port => decide (port < 8)
  | .mirrorWrite t => decide (t < 512)

end Sys2Proof
end

