-- ==== Sys2Proof/Certificates/Slice0/Obligations.lean ====
section
/-! DEFINITION. The statements for the provers. -/
open Sys2Proof Sys2Proof.Machine

/-- A step runs the command at the front of the queue. 95_what_each_step_holds.md 19_power_and_start_up.md R372. -/
def Obligations.StepRunsTheFrontCommand : Prop :=
  ∀ (c : Instr) (rest : List Instr) (s : State), step { s with pending := c :: rest } = exec c { s with pending := rest }

/-- On an empty queue a step is one Mere cycle, while Mere runs, and changes no table (DESIGN CHOICE, log entry 6). 05_media_clocks_and_resampling.md R106 13_time_and_calendar.md R271. -/
def Obligations.EmptyQueueIsOneMereCycle : Prop :=
  ∀ s : State, s.pending = [] →
    ∃ t, step s = .next t ∧ t.pending = [] ∧ t.mere = s.mere + (if s.clk.running then 1 else 0) ∧ t.mbx = s.mbx ∧ t.tarn = s.tarn ∧ t.netPorts = s.netPorts ∧ t.lps = s.lps
      ∧ t.twin = s.twin ∧ t.votes = s.votes ∧ t.health = s.health

/-- Every step leaves no event unwritten, drives FAULT_N from DEV_FAULT and takes exactly its command. 20_register_file.md R376 14_clock_generation.md R296 23_pins_and_electrical.md R411 22_command_reference.md R404. -/
def Obligations.EveryStepEndsAtRest : Prop :=
  ∀ s t : State, step s = .next t → AtRest t ∧ t.pending = s.pending.tail

/-- The state after reset is at rest: no event waits and FAULT_N is low. 20_register_file.md 23_pins_and_electrical.md R411. -/
def Obligations.ResetIsAtRest : Prop :=
  AtRest State.reset ∧ State.reset.dev.faultN = false ∧ State.reset.pending = []

/-- A run of n steps takes the first n commands of the queue, one each, and ends at rest. 02_control_and_boot.md R36 95_what_each_step_holds.md. -/
def Obligations.RunsTakeTheirCommandsInOrder : Prop :=
  ∀ (n : Nat) (s t : State), Host.Core.run Sys2Proof.core n s = .next t → t.pending = s.pending.drop n ∧ (n ≠ 0 → AtRest t)

/-- What ends every step changes nothing but host memory, queues, functions, messages and the two driven bits. 03_tenants_and_queues.md R65 03_tenants_and_queues.md R66 03_tenants_and_queues.md R70. -/
def Obligations.DeliveringEventsTouchesOnlyQueues : Prop :=
  ∀ s u : State,
    let t := settled s u
    (t.free = u.free ∧ t.mere = u.mere ∧ t.grid = u.grid ∧ t.mbx = u.mbx ∧ t.tenants = u.tenants ∧ t.streams = u.streams ∧ t.tbs = u.tbs ∧ t.tsPorts = u.tsPorts
      ∧ t.cal = u.cal ∧ t.clk = u.clk ∧ t.cway = u.cway ∧ t.chain = u.chain ∧ t.health = u.health ∧ t.tarn = u.tarn ∧ t.sched = u.sched ∧ t.tasks = u.tasks
      ∧ t.netGroups = u.netGroups ∧ t.netPorts = u.netPorts ∧ t.inlet = u.inlet ∧ t.filters = u.filters ∧ t.fld = u.fld ∧ t.keys = u.keys ∧ t.gpioKeys = u.gpioKeys ∧ t.lps = u.lps
      ∧ t.refs = u.refs ∧ t.syns = u.syns ∧ t.twin = u.twin ∧ t.gpio = u.gpio ∧ t.i2c = u.i2c ∧ t.eddyBanks = u.eddyBanks ∧ t.poolBanks = u.poolBanks
      ∧ t.pwr = u.pwr ∧ t.votes = u.votes)
    ∧ (t.ctl = { u.ctl with paused := t.ctl.paused } ∧ t.dev = { u.dev with faultN := t.dev.faultN })
    ∧ (u.evs = [] → t.host = u.host ∧ t.queues = u.queues ∧ t.fns = u.fns ∧ t.out = u.out)

/-- Writing bytes to a memory keeps its canonical form; inside the write the bytes read as written, outside as before. 03_tenants_and_queues.md R57 07_tarn_core.md R155. -/
def Obligations.MemoryOperationsKeepTheForm : Prop :=
  ∀ (m : List Host.Cell) (a : Nat) (bs : List Byte), Memory.wf (0 : Byte) m = true →
    Memory.wf (0 : Byte) (mwrite m a bs) = true
    ∧ (∀ i, i < bs.length → mget 0 (mwrite m a bs) (a + i) = bs.getD i 0)
    ∧ (∀ b, b < a ∨ a + bs.length ≤ b → mget 0 (mwrite m a bs) b = mget 0 m b)

/-- A descriptor written to a command entry is read back whole. R28. -/
def Obligations.DescriptorRoundTrip : Prop :=
  (∀ d : Desc, descFits d = true → (descBytes d).length = 64 ∧ descOf (descBytes d) = d)
  ∧ (∀ (d : Desc) (m : Mbx) (i : Nat), descFits d = true → Memory.wf (0 : Byte) m.cmd = true →
      entryDesc { m with cmd := mwrite m.cmd ((i % 64) * 64) (descBytes d) } i = d)

/-- Every row of the command set, posted to a mailbox that serves, is taken, executed and answered in its step. 02_control_and_boot.md R32 02_control_and_boot.md R34 02_control_and_boot.md R36. -/
def Obligations.PostedCommandIsAnsweredInItsStep : Prop :=
  ∀ (i : Instr) (k : Cmd) (r : Req) (s : State), scsRow i = some (k, r) → serves s r.mb = true → fenceFree k r s = true →
    let x := execCmd k r.mb (rightsOf s r.mb) (rowEntry k r s) r.carried r.readFails false false (rowStart k r s)
    exec i s = .next (settled s (respond x.1 r.mb x.2 ([], 0)))

/-- Every row of the command set whose checks pass is applied and answered OK, or listed as pending and answered ACCEPTED_PENDING. 02_control_and_boot.md R31 02_control_and_boot.md R35 22_command_reference.md R398 16_twin_operation.md R323. -/
def Obligations.CommandThatPassesIsApplied : Prop :=
  ∀ (i : Instr) (k : Cmd) (r : Req) (s : State) (p : Plan) (c : Ctx),
    scsRow i = some (k, r) → serves s r.mb = true → fenceFree k r s = true → rowCheck k r s = .go p c → c.dry = false →
    let d := rowEntry k r s
    let v := rowStart k r s
    let m := mirrors k v
    let x := p.act (if m = true then { v with free := choicesOf v.twin.chosen } else v)
    let u := if m = true then
        emit { x.1 with free := v.free, twin := { x.1.twin with chosen := v.twin.chosen + 1 } } (.mirror ⟨r.mb, { d with opcode := k.opcode }, if c.ind then c.p else [], false⟩ v.twin.chosen)
      else x.1
    match x.2 with
    | .ok det => exec i s = .next (settled s (respond u r.mb (response d k.opcode 0 det) ([], 0)))
    | .pend w h =>
      exec i s = .next (settled s (respond
        (p.after { u with ctl := { u.ctl with pend := u.ctl.pend ++ [⟨r.mb, k.opcode, d.tag, d.tenant, w, h, false⟩] } })
        r.mb (response d k.opcode 1 []) ([], 0)))

/-- A row of the command set whose checks fail, or a DRY_RUN, changes nothing but its mailbox and what answering it sends. 02_control_and_boot.md R35 22_command_reference.md R398 02_control_and_boot.md R29 22_command_reference.md R396. -/
def Obligations.FailedOrDryRunChangesNothing : Prop :=
  (∀ (i : Instr) (k : Cmd) (r : Req) (s : State) (st : Nat) (det : List Byte) (f : State → State),
    scsRow i = some (k, r) → (∀ q, i ≠ .timeAdjust q) → serves s r.mb = true → fenceFree k r s = true → rowCheck k r s = .fail st det f →
    ∃ t, exec i s = .next t ∧ t = settled s (respond (rowStart k r s) r.mb (response (rowEntry k r s) k.opcode st det) ([], 0))
      ∧ t.tenants = s.tenants ∧ t.streams = s.streams ∧ t.tasks = s.tasks ∧ t.tarn = s.tarn ∧ t.netGroups = s.netGroups ∧ t.netPorts = s.netPorts
      ∧ t.filters = s.filters ∧ t.fld = s.fld ∧ t.keys = s.keys ∧ t.gpioKeys = s.gpioKeys ∧ t.lps = s.lps ∧ t.tbs = s.tbs ∧ t.cal = s.cal ∧ t.sched = s.sched
      ∧ t.refs = s.refs ∧ t.syns = s.syns ∧ t.twin = s.twin ∧ t.cway = s.cway ∧ t.health = s.health ∧ t.clk = s.clk ∧ t.pwr = s.pwr ∧ t.votes = s.votes)
  ∧ (∀ (i : Instr) (k : Cmd) (r : Req) (s : State) (p : Plan) (c : Ctx),
    scsRow i = some (k, r) → serves s r.mb = true → fenceFree k r s = true → rowCheck k r s = .go p c → c.dry = true →
    let det := if k.query then (match (p.act (rowStart k r s)).2 with | .ok x => x | .pend _ _ => []) else []
    ∃ t, exec i s = .next t ∧ t = settled s (respond (rowStart k r s) r.mb (response (rowEntry k r s) k.opcode 0 det) ([], 0))
      ∧ t.tenants = s.tenants ∧ t.streams = s.streams ∧ t.tasks = s.tasks ∧ t.lps = s.lps ∧ t.tbs = s.tbs ∧ t.refs = s.refs ∧ t.twin = s.twin ∧ t.votes = s.votes)

/-- MBX_DOORBELL: accepted, refused as BUSY or refused as BAD_FIELD, by the distance of the new index; reserved bits stop by name. 02_control_and_boot.md R32 19_power_and_start_up.md R368 20_register_file.md R375. -/
def Obligations.MailboxDoorbellIsHandledWhole : Prop :=
  (∀ (mb : Nat) (val : BitVec 64) (s : State), mb ≤ 518 → val.toNat < 128 → mbReady s mb = true → awake s = true → s.clk.started = true →
    let m := mbox s mb
    let d := (val.toNat + 128 - m.pi) % 128
    let n := (val.toNat + 128 - m.cmdCi) % 128
    ∃ t, exec (.mbxDoorbell mb val) s = .next t
      ∧ (1 ≤ d ∧ d ≤ 64 ∧ n ≤ 64 → mbox t mb = { m with dbResult := 0, pi := val.toNat })
      ∧ (1 ≤ d ∧ d ≤ 64 ∧ 64 < n → mbox t mb = { m with dbResult := 0x0401, busySeen := true })
      ∧ (d = 0 ∨ 65 ≤ d → mbox t mb = { m with dbResult := 0x0103, dbErr := true })
      ∧ (∀ j, j ≠ mb → mbox t j = mbox s j) ∧ t.ctl.pend = s.ctl.pend ∧ t.tenants = s.tenants ∧ t.streams = s.streams)
  ∧ ((∀ (mb : Nat) (val : BitVec 64) (s : State), (bits val.toNat 15 7 ≠ 0 ∨ bits val.toNat 63 32 ≠ 0) →
      exec (.mbxDoorbell mb val) s = .fault (.reservedTestControl 0x1800))
  ∧ (∀ (mb : Nat) (val : BitVec 32) (s : State), bits val.toNat 31 7 ≠ 0 → exec (.mbxRspCiWrite mb val) s = .fault (.reservedTestControl 0x1818)))

/-- MBX_RSP_CI_WRITE and CMD_TAKE move their index only as R34 allows. 02_control_and_boot.md R34. -/
def Obligations.ResponseConsumerIndex : Prop :=
  (∀ (mb : Nat) (val : BitVec 32) (s : State), mb ≤ 518 → val.toNat < 128 → s.clk.started = true →
      let m := mbox s mb
      let ok := (val.toNat + 128 - m.rspCi) % 128 ≤ (m.rspPi + 128 - m.rspCi) % 128
      ∃ t, exec (.mbxRspCiWrite mb val) s = .next t ∧ (ok → mbox t mb = { m with rspCi := val.toNat })
        ∧ (¬ ok → mbox t mb = { m with dbErr := true }) ∧ ∀ j, j ≠ mb → mbox t j = mbox s j)
  ∧ (∀ (mb : Nat) (s : State), mb ≤ 518 → s.clk.started = true →
      let m := mbox s mb
      (m.cmdCi ≠ m.pi → (m.cmdCi + 1 + 128 - m.rspCi) % 128 ≤ 64 → mbReady s mb = true → s.ctl.paused = false → s.ctl.handover = false →
        ∃ t, exec (.cmdTake mb) s = .next t
          ∧ mbox t mb = { m with cmdCi := (m.cmdCi + 1) % 128, side := tdel m.side (m.cmdCi % 64), taken := m.taken ++ [m.entry m.cmdCi (rightsOf s mb)] }
          ∧ (m.entry m.cmdCi (rightsOf s mb)).desc = entryDesc m m.cmdCi
          ∧ ∀ j, j ≠ mb → mbox t j = mbox s j)
      ∧ (m.cmdCi = m.pi → exec (.cmdTake mb) s = .next (settled s (begun s))))

/-- CMD_START runs the next taken command; a failover keeps its answer single; with both pairs down no mailbox is ready. 02_control_and_boot.md R34 22_command_reference.md R397 02_control_and_boot.md R39 02_control_and_boot.md R40. -/
def Obligations.ManagementPairs : Prop :=
  ((∀ (carried : List Byte) (rf : Bool) (mb : Nat) (c : Taken) (cs : List Taken) (s : State), s.clk.started = true → nextMailbox (begun s) = some mb →
      (mbox s mb).taken = c :: cs → c.quiet = false →
      let v := modMbx (turnTaken mb (begun s)) mb (fun m => { m with taken := cs })
      let x := executeOne mb c carried rf v
      exec (.cmdStart carried rf) s = .next (settled s (respond x.1 mb x.2 c.peer)) ∧ v.ctl.pf0Turn = (mb != 0))
  ∧ (∀ (carried : List Byte) (rf : Bool) (s : State), s.clk.started = true → s.ctl.mgmtDown = false → s.ctl.failover = false → 1 < s.ctl.pairs →
      exec (.mgmtFailover 0 carried rf) s = .next (settled s { begun s with ctl := { s.ctl with pairs := 1, failover := true, paused := true } }))
  ∧ (∀ (carried : List Byte) (rf : Bool) (s : State), s.clk.started = true → s.ctl.failover = true →
      let v := unpoison { begun s with ctl := { s.ctl with failover := false, paused := false, inFlight := none } } .wellhead
      (s.ctl.inFlight = none → exec (.mgmtFailoverDone carried rf) s = .next (settled s v))
      ∧ (∀ f : InFlight, s.ctl.inFlight = some f → f.committed = true → f.cmd.quiet = false →
          exec (.mgmtFailoverDone carried rf) s = .next (settled s (respond v f.mb f.response f.cmd.peer)))))
  ∧ ((∀ s : State, s.ctl.mgmtDown = false →
      ∃ t, exec .mgmtDown s = .next t ∧ t.ctl.mgmtDown = true ∧ t.dev.faultN = false ∧ t.ctl.paused = false ∧ t.ctl.inFlight = none ∧ ∀ mb, mbReady t mb = false)
  ∧ (∀ (mb : Nat) (val : BitVec 64) (s : State), mb ≤ 518 → val.toNat < 128 → s.ctl.mgmtDown = true → awake s = true → s.clk.started = true →
      ∃ t, exec (.mbxDoorbell mb val) s = .next t ∧ mbox t mb = { mbox s mb with dbResult := 0x0401, busySeen := true }))

/-- NET_CONTROL_DATAGRAM: accepted only if it authenticates with a sequence number above the last accepted; any other is counted. 02_control_and_boot.md R27. -/
def Obligations.ControlDatagram : Prop :=
  ∀ (n seq port : Nat) (body tag addr : List Byte) (s : State), n < 4 → s.clk.running = true → s.ctl.mgmtDown = false → s.ctl.stage = 4 →
    let ss := tgetD s.ctl.sessions n {}
    let m := mbox s (515 + n)
    let auth := tag == gcmTag (ctlKey ss) (ctlNonce false seq) (Config.ctlAad false seq) body
    let clear := gcmCrypt (ctlKey ss) (ctlNonce false seq) body
    let fresh := match ss.rxSeq with | none => true | some l => decide (l < seq)
    ∃ t, exec (.netControlDatagram n seq body tag addr port) s = .next t
      ∧ (ss.rights ≠ 0 → auth = true → fresh = true → (m.pi + 128 - m.cmdCi) % 128 < 64 → m.pi < 128 →
          (tgetD t.ctl.sessions n {}).rxSeq = some seq ∧ (mbox t (515 + n)).pi = (m.pi + 1) % 128
          ∧ (mbox t (515 + n)).cmd = mwrite m.cmd ((m.pi % 64) * 64) (descBytes (descOf (fit 64 clear)))
          ∧ tget (mbox t (515 + n)).side (m.pi % 64) = some (clear.drop 64, addr, port) ∧ t.ctl.authDrop = s.ctl.authDrop)
      ∧ (ss.rights = 0 ∨ auth = false ∨ fresh = false → mbox t (515 + n) = m ∧ t.ctl.authDrop = inc48 s.ctl.authDrop 1)

/-- FW_LOADED, FW_HANDOVER_TAKEN and FW_PAUSE_TIMEOUT end the pending firmware command with its status. 02_control_and_boot.md R43 02_control_and_boot.md R45 02_control_and_boot.md R46 18_memory_and_spares.md R357. -/
def Obligations.FirmwareReplacement : Prop :=
  (∀ (p : PendCmd) (k : Nat) (img : List Byte) (s : State), s.clk.started = true → s.ctl.pend = [p] → p.what = .fwLoad k img → regionReadOnly s 0 = false →
      ∃ t, exec (.fwLoaded true) s = .next t ∧ t.ctl.pend = []
        ∧ tget t.ctl.slots k = some { verified := true, svn := (Config.imgSvn img).toNat, version := (Config.imgVersion img).toNat, image := img })
  ∧ (∀ (p : PendCmd) (k : Nat) (img : List Byte) (s : State), s.clk.started = true → s.ctl.pend = [p] → p.what = .fwLoad k img →
      ∃ t, exec (.fwLoaded false) s = .next t ∧ t.ctl.pend = [] ∧ t.ctl.slots = s.ctl.slots)
  ∧ (∀ (p : PendCmd) (k : Nat) (s : State), s.clk.started = true → s.ctl.pend = [p] → p.what = .fwActivate k → s.ctl.paused = true → slotCheck s k = 0 →
      ∃ t, exec (.fwHandoverTaken true) s = .next t ∧ t.ctl.pend = [] ∧ t.ctl.slot = k ∧ t.ctl.trial = true ∧ t.ctl.paused = false ∧ t.ctl.preferred = s.ctl.preferred)
  ∧ (∀ (p : PendCmd) (k : Nat) (s : State), s.clk.started = true → s.ctl.pend = [p] → p.what = .fwActivate k → s.ctl.paused = true → s.ctl.failover = false →
      ∃ t, exec .fwPauseTimeout s = .next t ∧ exec (.fwHandoverTaken false) s = .next t ∧ t.ctl.pend = [] ∧ t.ctl.slot = s.ctl.slot ∧ t.ctl.trial = s.ctl.trial
        ∧ t.ctl.paused = false ∧ t.ctl.handover = false)

/-- tenant.create, quota_set, bind, unbind, destroy and query: what each leaves of the tenants, the quotas and the bindings. 03_tenants_and_queues.md R48 03_tenants_and_queues.md R51 03_tenants_and_queues.md R52 02_control_and_boot.md R35 05_media_clocks_and_resampling.md R107. -/
def Obligations.TenantsAndQuotas : Prop :=
  (∀ (r : Req) (s : State) (p : Plan) (c : Ctx), serves s r.mb = true →
    (∀ k, c.tenant < 512 → fenceFree k r s = true → rowCheck k r s = .go p c → c.dry = false →
      (k = cmdTenantCreate → ∃ u x, exec (.tenantCreate r) s = .next (settled s u) ∧ tget u.tenants c.tenant = some x
        ∧ x.rate96 = (c.u8 0 == 1) ∧ x.period = c.u8 1 ∧ x.perFn = (c.u8 2 == 1) ∧ x.use = {} ∧ x.frame = 0 ∧ x.mclk.acc = 0
        ∧ x.quota = ⟨c.u32 4, c.u32 8, c.u32 8, c.u32 12, c.u16 16, c.u32 20, c.u64 24⟩ ∧ bound u c.tenant = (c.u8 3 == 1)
        ∧ ∀ j, j ≠ c.tenant → tget u.tenants j = tget s.tenants j ∧ (j < 512 → bound u j = bound s j))
      ∧ (k = cmdQuotaSet → ∀ x, tget s.tenants c.tenant = some x → ∃ u, exec (.tenantQuotaSet r) s = .next (settled s u)
        ∧ tget u.tenants c.tenant = some { x with quota := ⟨c.u32 4, c.u32 8, c.u32 8, c.u32 12, c.u16 16, c.u32 20, c.u64 24⟩ }
        ∧ (∀ i, 1 ≤ i → i ≤ 6 → useOf x.use i ≤ useOf ⟨c.u32 4, c.u32 8, c.u32 8, c.u32 12, c.u16 16, c.u32 20, c.u64 24⟩ i)
        ∧ ∀ j, j ≠ c.tenant → tget u.tenants j = tget s.tenants j)
      ∧ (∀ b i, (k = cmdTenantBind ∧ b = true ∧ i = .tenantBind r) ∨ (k = cmdTenantUnbind ∧ b = false ∧ i = .tenantUnbind r) →
          ∃ u x, exec i s = .next (settled s u) ∧ tget s.tenants c.tenant = some x ∧ tget u.tenants c.tenant = some { x with nextBound := some b }
            ∧ (∀ j, j ≠ c.tenant → tget u.tenants j = tget s.tenants j) ∧ ∀ j, bound u j = bound s j)
      ∧ (k = cmdTenantDestroy → ∃ u w, exec (.tenantDestroy r) s = .next (settled s u) ∧ u.ctl.pend = s.ctl.pend ++ [w] ∧ w.what = .tenantDestroy c.tenant ∧ w.mb = r.mb
        ∧ ∀ j, j ≠ c.tenant → tget u.tenants j = tget s.tenants j)
      ∧ (k = cmdTenantQuery → exec (.tenantQuery r) s = .next (settled s (respond (rowStart k r s) r.mb (response (rowEntry k r s) 0x0206 0
          (le8 (useOf (tenant s c.tenant).quota (c.u8 0)) ++ le8 (useOf (tenant s c.tenant).use (c.u8 0))
            ++ (if c.u8 0 = 2 then le4 (tenant s c.tenant).use.rx ++ le4 (tenant s c.tenant).use.tx else []))) ([], 0))))))
  ∧ (∀ (t : Nat) (b : Bool) (s : State) (x : Tenant), t < 512 → tget s.tenants t = some x → x.nextBound = some b →
      bound (bindOpen t s) t = b ∧ (∀ j, j < 512 → j ≠ t → bound (bindOpen t s) j = bound s j)
      ∧ tget (bindOpen t s).tenants t = some { x with nextBound := none })

/-- QUEUE_DOORBELL, COAL_TIME_EXPIRY and HOST_TX_FRAME: the outcomes of a doorbell, the interrupt, and the entry taken. 03_tenants_and_queues.md R57 03_tenants_and_queues.md R61 03_tenants_and_queues.md R64 10_network_ports.md R223 20_register_file.md R375. -/
def Obligations.QueueDoorbellsAndInterrupts : Prop :=
  (∀ (fn off size : Nat) (val : BitVec 64) (s : State), awake s = true → s.clk.started = true →
      (size ≠ 8 ∨ off % 8 ≠ 0 ∨ bellSlot s fn off = none →
        ∃ u, exec (.queueDoorbell fn off size val) s = .next (settled s u) ∧ u.queues = s.queues
          ∧ (tgetD u.fns fn {}).strayCnt = inc48 (tgetD s.fns fn {}).strayCnt 1 ∧ (tgetD u.fns fn {}).dbStray = true)
      ∧ (size = 8 → off % 8 = 0 → bellSlot s fn off ≠ none → bits val.toNat 63 33 ≠ 0 → exec (.queueDoorbell fn off size val) s = .fault (.reservedTestControl off)))
  ∧ (∀ (k : Nat) (val : BitVec 64) (s : State) (q : Queue) (c : QCtx), awake s = true → s.clk.started = true → tget s.queues k = some q → q.next = none → q.ctx = some c → 5 ≤ q.typ → q.destroy = false →
      val.toNat < 2 ^ 21 →
      let m := 2 ^ (c.ringLog + 1)
      let i := val.toNat
      let go := fun (q' : Queue) => ∃ u, exec (.queueDoorbell 0 (8 * k) 8 val) s = .next (settled s u) ∧ tget u.queues k = some q' ∧ ∀ j, j ≠ k → tget u.queues j = tget s.queues j
      (q.typ = 5 → i < m → 0 < (i + m - q.pi) % m → occ q c + (i + m - q.pi) % m ≤ 2 ^ c.ringLog → go { q with pi := i, produced := inc48 q.produced ((i + m - q.pi) % m) })
      ∧ (q.typ = 5 → i < m → 0 < (i + m - q.pi) % m → 2 ^ c.ringLog < occ q c + (i + m - q.pi) % m → go { q with dbRef := inc48 q.dbRef 1, refAt := some (msecs s) })
      ∧ (q.typ = 6 → i < m → 0 < (i + m - q.ci) % m → (i + m - q.ci) % m ≤ occ q c → go { q with ci := i, consumed := inc48 q.consumed ((i + m - q.ci) % m) })
      ∧ (q.typ = 6 → i < m → occ q c < (i + m - q.ci) % m → go { q with dbRef := inc48 q.dbRef 1, refAt := some (msecs s) })
      ∧ (i < m → (i + m - (if q.typ = 5 then q.pi else q.ci)) % m = 0 → go q)
      ∧ (m ≤ i → go { q with dbRef := inc48 q.dbRef 1, refAt := some (msecs s) }))
  ∧ (∀ (k : Nat) (s : State) (q : Queue) (c : QCtx), s.clk.started = true → s.clk.running = true → tget s.queues k = some q → running q = some c →
      (c.coalTime ≠ 0 → q.unsig ≠ 0 → q.armed = true → q.destroy = false → c.vector ≠ 0xFFFF →
        ∃ u, exec (.coalTimeExpiry k) s = .next (settled s u) ∧ tget u.queues k = some { q with armed := false, unsig := 0, timeUp := false, irqs := inc48 q.irqs 1 })
      ∧ (c.coalTime = 0 ∨ q.unsig = 0 → exec (.coalTimeExpiry k) s = .next (settled s (begun s)))
      ∧ (q.typ = 5 → c.link = 0xFFFF → fnUp s (fnOf q.tenant) = true → q.pi ≠ q.ci →
        let a := entryAddr c q.ci
        let len := leNat (mread s.host a 4)
        let good := mget 0 s.host (a + 4) = 1 ∧ len + 16 ≤ 2 ^ c.entLog
        let u := addUnsig { begun s with queues := tset s.queues k { q with ci := nextIdx c q.ci, consumed := inc48 q.consumed 1, badEnt := if good then q.badEnt else inc48 q.badEnt 1 } } k 1
        exec (.hostTxFrame k) s = .next (settled s (if good then sendHost q.tenant (leNat (mread s.host (a + 6) 2)) (mread s.host (a + 16) len) u else u))
          ∧ (tget u.queues k).map (fun x => (x.ci, x.pi, x.consumed, x.badEnt)) = some (nextIdx c q.ci, q.pi, inc48 q.consumed 1, if good then q.badEnt else inc48 q.badEnt 1)
          ∧ ∀ j, j ≠ k → tget u.queues j = tget s.queues j)
      ∧ (q.pi = q.ci → exec (.hostTxFrame k) s = .next (settled s (begun s))))

/-- A stream without packets for L is silent, an idle leg is down; a packet that fails a receive check is counted there and passes no later one. 04_streams.md R94 04_streams.md R96 04_streams.md R88 04_streams.md R97. -/
def Obligations.ReceiveChecksAndSilence : Prop :=
  (∀ (n : Nat) (s : State) (st : Stream), n < 65536 → s.clk.running = true → tget s.streams n = some st →
    (st.rx.active = true → st.rx.silent = false → exec (.noPacketForL n) s =
      .next (settled s (evT { begun s with streams := tset s.streams n { st with rx := { st.rx with silent := true } } } st.tenant 0x402 n 0 0)))
    ∧ (st.rx.active = false ∨ st.rx.silent = true → exec (.noPacketForL n) s = .next (settled s (begun s)))
    ∧ (∀ g, g < 2 → (st.leg g).up = true → exec (.legIdleTimeout n g) s =
      .next (settled s (evT { begun s with streams := tset s.streams n (st.setLeg g { st.leg g with up := false }) } st.tenant 0x404 n 0 g)))
    ∧ (∀ g, g < 2 → (st.leg g).up = false → exec (.legIdleTimeout n g) s = .next (settled s (begun s))))
  ∧ (∀ (k g : Nat) (loop sumOk : Bool) (b : List Byte) (arr : Nat) (s : State) (st : Stream), tget s.streams k = some st →
    let s1 := count s k g
    let pl := police s1 st.cfg (st.leg g)
    let s2 := modStream s1 k (·.setLeg g (if loop then st.leg g else pl.1))
    (bit st.legEn g = false → rxPacket k g loop sumOk b arr s = count s1 k (2 + g))
    ∧ (bit st.legEn g = true → loop = false → pl.2 = false → rxPacket k g loop sumOk b arr s = count s2 k (4 + g))
    ∧ (bit st.legEn g = true → (loop = true ∨ pl.2 = true) → sumOk = false → rxPacket k g loop sumOk b arr s = count s2 k (6 + g))
    ∧ (∀ p, bit st.legEn g = true → (loop = true ∨ pl.2 = true) → sumOk = true → isAaf (cFormat st.cfg) = false → parseRtp st.cfg b = some p →
        (cKeyed st.cfg = true → st.key = none → st.nextKey = none → rxPacket k g loop sumOk b arr s =
          if keyedSizeOk s2 k none p.pad p.body.length then count s2 k 18 else count s2 k (6 + g))
        ∧ (cKeyed st.cfg = false → (∀ x, unpad p.pad p.body = some x → sizeOk s2 k x.length = false) → rxPacket k g loop sumOk b arr s = count s2 k (6 + g))))

/-- A calendar slot releases the packet of its leg once; a Causeway-lane leg sends it on its lane with the destination device in front. 04_streams.md R85 04_streams.md R98 04_streams.md R101 10_network_ports.md R224 04_streams.md R99 17_cascade_and_chain.md R339. -/
def Obligations.CalendarSlotAndLaneLeg : Prop :=
  (∀ (n g : Nat) (s : State) (st : Stream), g < 2 → s.clk.running = true → tget s.streams (65536 + n) = some st →
    let due := if g = 0 then st.tx.dueA else st.tx.dueB
    let p := legPort st.cfg (48 + 48 * g)
    let s0 := if (netPort s p).queue.any (fun x => x.leg == some (65536 + n, g))
      then netCount (modNet (begun s) p (fun q => { q with queue := q.queue.filter (fun x => x.leg != some (65536 + n, g)) })) p 47 1 else begun s
    let s1 := { s0 with streams := tset s.streams (65536 + n) { st with tx := if g = 0 then { st.tx with dueA := false } else { st.tx with dueB := false } } }
    (st.live = false ∨ due = false → exec (.calendarSlot n g) s = .next (settled s (begun s)))
    ∧ (st.live = true → due = true → bit st.legEn g = false → exec (.calendarSlot n g) s = .next (settled s s1))
    ∧ (st.live = true → due = true → bit st.legEn g = true → cKeyed st.cfg = true → st.key = none →
        exec (.calendarSlot n g) s = .next (settled s (count s1 (65536 + n) 18)))
    ∧ (st.live = true → due = true → bit st.legEn g = true → (cKeyed st.cfg = true → st.key ≠ none) →
        exec (.calendarSlot n g) s = .next (settled s (sendLeg (ringLanes s) (65536 + n) g s1))))
  ∧ (∀ (ring : List Nat) (k g l : Nat) (s : State) (st : Stream) (pkt : TxPkt), l < 4 → tget s.streams k = some st →
    st.tx.pkt = some pkt → legPort st.cfg (48 + 48 * g) = 0x20 + l →
    let p := if isAaf (cFormat st.cfg) then { pkt with header := patch pkt.header 4 (slice st.cfg (72 + 48 * g) 8) } else pkt
    let b := le1 (fld st.cfg (56 + 48 * g) 1) ++ protectPkt st p
    (ring.contains l = false → bit s.cway.link l = true → sendLeg ring k g s = emit (count s k (26 + g)) (.lane l 7 b))
    ∧ (ring.contains l = false → bit s.cway.link l = false → sendLeg ring k g s = s)
    ∧ (ring.contains l = true → let up := ring.filter (bit s.cway.link)
        sendLeg ring k g s = if up = [] then s else { count s k (26 + g) with out := s.out ++ up.map (fun m => .lane m 7 b) })
    ∧ (∀ j, j ≠ k → tget (sendLeg ring k g s).streams j = tget s.streams j))

/-- MCLK_UPDATE updates every media clock once; INC moves by at most 1 ppm within 500 ppm of nominal; the count never jumps. 05_media_clocks_and_resampling.md R108 05_media_clocks_and_resampling.md R112 05_media_clocks_and_resampling.md R129. -/
def Obligations.MediaClockUpdate : Prop :=
  (∀ s : State, s.clk.running = true → let u := gridStep 0 1200000 (begun s)
    exec .mclkUpdate s = .next (settled s (synUpdates (u.tenants.foldl (fun s e => mclkOne s e.1) u) (fun h => h == 1 || h == 3))))
  ∧ (∀ (s : State) (k : Nat) (x : Tenant), tget s.tenants k = some x →
      let y := tenant (mclkOne s k) k
      let w := x.nomInc * 500 / 1000000
      y.mclk.acc = x.mclk.acc ∧ y.nomInc = x.nomInc ∧ x.nomInc - w ≤ y.mclk.inc ∧ y.mclk.inc ≤ x.nomInc + w
      ∧ (x.nomInc - w ≤ x.mclk.inc → x.mclk.inc ≤ x.nomInc + w →
          y.mclk.inc ≤ x.mclk.inc + x.nomInc / 1000000 ∧ x.mclk.inc ≤ y.mclk.inc + x.nomInc / 1000000)
      ∧ ∀ j, j ≠ k → tget (mclkOne s k).tenants j = tget s.tenants j)

/-- ESTIMATOR_WINDOW feeds the loop of an arrival-mode stream; r stays within 2 % and holds over an empty window. 05_media_clocks_and_resampling.md R114 05_media_clocks_and_resampling.md R115. -/
def Obligations.EstimatorWindowEnds : Prop :=
  (∀ (n : Nat) (s : State) (st : Stream), n < 65536 → s.clk.running = true → tget s.streams n = some st →
      (cArrival st.cfg = true → st.rx.anchored = true →
        let x := estLoop (st.rx.est.rebase (cFs st.cfg) (tb s (cTb st.cfg)).now) st.rx.est.window
        let u := modStream (begun s) n (fun y => { y with rx := { y.rx with est := x.1 } })
        exec (.estimatorWindow n) s = .next (settled s (if x.2 then evT u st.tenant 0x40A n 0 0 else u)))
      ∧ (cArrival st.cfg = false ∨ st.rx.anchored = false → exec (.estimatorWindow n) s = .next (settled s (begun s))))
  ∧ (∀ (e : Est) (ms : Nat), let x := estLoop e ms
      (e.minErr = none → x.1.r = e.r ∧ x.1.integ = e.integ ∧ x.1.state = 3 ∧ x.1.limited = e.limited ∧ x.2 = false)
      ∧ (e.minErr ≠ none → rLow ≤ (x.1.r : Int) ∧ (x.1.r : Int) ≤ rHigh ∧ x.1.minErr = none ∧ (x.1.state = 4 → x.1.r = rLow.toNat ∨ x.1.r = rHigh.toNat)
          ∧ (x.2 = true → x.1.state = 4 ∧ e.limited = false))
      ∧ (e.rebase 48000 ms).r = e.r ∧ (e.rebase 48000 ms).minErr = e.minErr)

/-- A frame boundary comes when the media clock has reached it, closes the old frame, opens the next, and sorts its events. 01_sample_path.md R10 21_mode_combinations.md R391 22_command_reference.md R404. -/
def Obligations.FrameBoundaryOrder : Prop :=
  (∀ (k : Nat) (s : State), thas s.tenants k = true → mereRuns s = true →
      let x := tenant s k
      let m := x.frame + 1
      let b := modTenant (closeFrame k (advanceToCount k (m * x.n) (begun s))) k (fun y => { y with frame := m, skip := 0 })
      let u := if (tenant b k).destroying then dismantle k m b else openFrame k m b
      exec (.frameBoundary k) s = .next (settled s { u with evs := sortEvs u.evs }))
  ∧ (∀ (k : Nat) (s : State), thas s.tenants k = false ∨ mereRuns s = false → exec (.frameBoundary k) s = .next (settled s (begun s)))
  ∧ (∀ es : List EvOut, (sortEvs es).Perm es ∧ (sortEvs es).Pairwise (fun a b => b2n a.comp * 65536 + a.ev.typ ≤ b2n b.comp * 65536 + b.ev.typ))
  ∧ (∀ (k c : Nat) (s : State) (x : Tenant), tget s.tenants k = some x → mereRuns s = true → 0 < x.mclk.inc → x.mclk.inc < 2 ^ 103 → 0 < x.mclk.ahead c →
      let y := tenant (advanceToCount k c s) k
      y.mclk.ahead c ≤ 0 ∧ -(x.mclk.inc : Int) < y.mclk.ahead c)

/-- A gain ramp of RAMP samples ends exactly on its target, from wherever it starts, and then stays. 06_mixing.md R138 06_mixing.md R139. -/
def Obligations.RampEndsOnItsTarget : Prop :=
  ∀ (x : Xp) (target : F32) (len n : Nat),
    let r := rampStart x target len
    (len ≤ n → (Nat.repeat rampSample n r).g = target ∧ (Nat.repeat rampSample n r).left = 0)
    ∧ (0 < n → n < len → (Nat.repeat rampSample n r).g = fma (ofScaled n 0) (roundF false (fVal target - fVal x.g) len) x.g ∧ (Nat.repeat rampSample n r).left = len - n)
    ∧ r.input = x.input ∧ r.ch = x.ch ∧ (0 < len → r.g = x.g)

/-- Every bus output sample is finite and at most 2^24 in magnitude, whatever is summed. 06_mixing.md R140 06_mixing.md R141. -/
def Obligations.BusOutputsStayInRange : Prop :=
  ∀ (s : State) (g x : F32),
    let y := busOutput s g x
    isNaN y.1 = false ∧ isInf y.1 = false ∧ fMag y.1 ≤ 2 ^ (149 + 24)
    ∧ (isNaN (fMul g x) = false → isInf (fMul g x) = false → fMag (fMul g x) < 2 ^ (149 + 24) → y = (fMul g x, false, s))
    ∧ (fMag (fMul g x) ≥ 2 ^ (149 + 24) → isNaN (fMul g x) = false → y.2.1 = true)

/-- A key change gives every crosspoint bound to it its new target, momentary or latched, and no other crosspoint. 06_mixing.md R152. -/
def Obligations.KeysDriveTheirCrosspoints : Prop :=
  ∀ (src port node key : Nat) (held : Bool) (x : Xp),
    let y := keyedXp src port node key held x
    (x.bind = none → y = x)
    ∧ (∀ k, x.bind = some k → (k.src ≠ src ∨ k.port ≠ port ∨ k.node ≠ node ∨ k.key ≠ key) → y = x)
    ∧ (∀ k, x.bind = some k → k.src = src → k.port = port → k.node = node → k.key = key →
        (k.latch = false → y.next = some (if held then k.gainOn else k.gainOff, k.ramp, false) ∧ y.bind = some { k with on := held })
        ∧ (k.latch = true → held = true → y.next = some (if k.on then k.gainOff else k.gainOn, k.ramp, false) ∧ y.bind = some { k with on := !k.on })
        ∧ (k.latch = true → held = false → y = x))
    ∧ y.g = x.g ∧ y.left = x.left ∧ y.input = x.input ∧ y.ch = x.ch ∧ y.live = x.live

/-- Scalar ALU functions that cannot overflow, and the comparisons: value, flags, and nothing else. 08_tarn_instructions.md R186 08_tarn_instructions.md R187. -/
def Obligations.AluWithoutOverflow : Prop :=
  ∀ (a : AluArgs) (s : State), ready s a.core .any = true → a.rsv = 0 → a.vec = false →
    let c := Machine.core s a.core
    let x := c.dn a.da.toNat
    let y := c.dn a.db.toNat
    let n := min (y.toNat % 32) 16
    let done := fun (v : W16) (k : Option Bool) => settled s (retired a.core 0 ((((c.setD a.dd.toNat v).setZN (v == 0) v.msb).setV false false).withCarry k) s)
    exec (.tMov a) s = .next (done x none)
    ∧ exec (.tMin a) s = .next (done (if x.toInt ≤ y.toInt then x else y) none)
    ∧ exec (.tMax a) s = .next (done (if y.toInt ≤ x.toInt then x else y) none)
    ∧ exec (.tAnd a) s = .next (done (x &&& y) none) ∧ exec (.tOr a) s = .next (done (x ||| y) none)
    ∧ exec (.tXor a) s = .next (done (x ^^^ y) none) ∧ exec (.tNot a) s = .next (done (~~~x) none)
    ∧ exec (.tAsr a) s = .next (done (x.sshiftRight n) (some (n != 0 && x.getLsbD (n - 1))))
    ∧ exec (.tLsr a) s = .next (done (x >>> n) (some (n != 0 && x.getLsbD (n - 1))))
    ∧ exec (.tCmp a) s = .next (settled s (retired a.core 0
        (((c.setZN (x - y == 0) (x - y).msb).setV (decide ((x - y).toInt ≠ x.toInt - y.toInt)) false).setFlag 2 (decide (y.toNat ≤ x.toNat))) s))
    ∧ exec (.tTst a) s = .next (settled s (retired a.core 0 ((c.setZN (x &&& y == 0) (x &&& y).msb).setV false false) s))

/-- ADD, SUB, ADC, SBC, NEG, ABS, ASL: wrap with V, clamp with SAT, or raise OVF and change nothing. 08_tarn_instructions.md R186 08_tarn_instructions.md R187 07_tarn_core.md R163 07_tarn_core.md R174. -/
def Obligations.AluThatCanOverflow : Prop :=
  ∀ (a : AluArgs) (s : State), ready s a.core .any = true → a.rsv = 0 → a.vec = false →
    let c := Machine.core s a.core
    let x := c.dn a.da.toNat
    let y := c.dn a.db.toNat
    let n := min (y.toNat % 32) 16
    let k := b2n (c.flag 2)
    let done := fun (v : W16) (ov sat : Bool) (k : Option Bool) => settled s (retired a.core 0 ((((c.setD a.dd.toNat v).setZN (v == 0) v.msb).setV ov sat).withCarry k) s)
    let P := fun (o : Host.Outcome State Fault Refusal) (z : Int) (k : Option Bool) =>
      (a.s = false → c.trapv = false ∨ (BitVec.ofInt 16 z).toInt = z → o = .next (done (BitVec.ofInt 16 z) (decide ((BitVec.ofInt 16 z).toInt ≠ z)) false k))
      ∧ (a.s = false → c.trapv = true → (BitVec.ofInt 16 z).toInt ≠ z → o = .next (settled s (takeExc a.core ⟨4, some 1⟩ (begun s))))
      ∧ (a.s = true → o = .next (done (BitVec.ofInt 16 (clampI (-32768) 32767 z)) false (decide (z < -32768 ∨ 32767 < z)) k))
    P (exec (.tAdd a) s) (x.toInt + y.toInt) (some (decide (65536 ≤ x.toNat + y.toNat)))
    ∧ P (exec (.tSub a) s) (x.toInt - y.toInt) (some (decide (y.toNat ≤ x.toNat)))
    ∧ P (exec (.tAdc a) s) (x.toInt + y.toInt + k) (some (decide (65536 ≤ x.toNat + y.toNat + k)))
    ∧ P (exec (.tSbc a) s) (x.toInt - y.toInt - (1 - k : Nat)) (some (decide (y.toNat + (1 - k) ≤ x.toNat)))
    ∧ P (exec (.tNeg a) s) (-x.toInt) none ∧ P (exec (.tAbs a) s) x.toInt.natAbs none
    ∧ P (exec (.tAsl a) s) (x.toInt * 2 ^ n) (some (n != 0 && x.getLsbD (16 - n)))

/-- The vector form of every ALU function works on four lanes alone; immediate functions take DD and IMM. 08_tarn_instructions.md R186 08_tarn_instructions.md R187 07_tarn_core.md R153 08_tarn_instructions.md R188 08_tarn_instructions.md R180. -/
def Obligations.AluLanesAndImmediates : Prop :=
  (∀ (a : AluArgs) (s : State), ready s a.core .any = true → a.rsv = 0 → a.vec = true → a.s = false → a.dd.toNat < 4 → a.da.toNat < 4 → a.db.toNat < 4 →
    (Machine.core s a.core).trapv = false →
    let c := Machine.core s a.core
    let x := fun i => c.dn (4 * a.da.toNat + i)
    let y := fun i => c.dn (4 * a.db.toNat + i)
    let n := fun (v : W16) => min (v.toNat % 32) 16
    let P := fun (o : Host.Outcome State Fault Refusal) (f : W16 → W16 → W16) (z : W16 → W16 → Int) =>
      ∃ t, o = .next t ∧ (∀ i, i < 4 → (Machine.core t a.core).dn (4 * a.dd.toNat + i) = f (x i) (y i))
        ∧ (∀ j, j < 16 → j / 4 ≠ a.dd.toNat → (Machine.core t a.core).dn j = c.dn j)
        ∧ (∀ j, j < 3 → (Machine.core t a.core).flag j = c.flag j)
        ∧ ((Machine.core t a.core).flag 3 = true ↔ ∃ i, i < 4 ∧ (f (x i) (y i)).toInt ≠ z (x i) (y i))
    let same := fun (f : W16 → W16 → W16) => fun a b => (f a b).toInt
    P (exec (.tMov a) s) (fun a _ => a) (fun a _ => a.toInt) ∧ P (exec (.tAdd a) s) (· + ·) (fun a b => a.toInt + b.toInt)
    ∧ P (exec (.tSub a) s) (· - ·) (fun a b => a.toInt - b.toInt) ∧ P (exec (.tNeg a) s) (fun a _ => -a) (fun a _ => -a.toInt)
    ∧ P (exec (.tAbs a) s) (fun a _ => if a.msb then -a else a) (fun a _ => a.toInt.natAbs)
    ∧ P (exec (.tMin a) s) (fun a b => if a.toInt ≤ b.toInt then a else b) (same (fun a b => if a.toInt ≤ b.toInt then a else b))
    ∧ P (exec (.tMax a) s) (fun a b => if b.toInt ≤ a.toInt then a else b) (same (fun a b => if b.toInt ≤ a.toInt then a else b))
    ∧ P (exec (.tAnd a) s) (· &&& ·) (same (· &&& ·)) ∧ P (exec (.tOr a) s) (· ||| ·) (same (· ||| ·)) ∧ P (exec (.tXor a) s) (· ^^^ ·) (same (· ^^^ ·))
    ∧ P (exec (.tNot a) s) (fun a _ => ~~~a) (same (fun a _ => ~~~a)) ∧ P (exec (.tAsl a) s) (fun a b => a <<< n b) (fun a b => a.toInt * 2 ^ n b)
    ∧ P (exec (.tAsr a) s) (fun a b => a.sshiftRight (n b)) (same (fun a b => a.sshiftRight (n b))) ∧ P (exec (.tLsr a) s) (fun a b => a >>> n b) (same (fun a b => a >>> n b)))
  ∧ (∀ (a : ImmArgs) (s : State), ready s a.core .any = true → a.vec = false → a.s = false → (Machine.core s a.core).trapv = false →
    let c := Machine.core s a.core
    let x := c.dn a.dd.toNat
    let y := a.imm
    let n := y.toNat % 32
    let done := fun (v : W16) (ov : Bool) (k : Option Bool) => settled s (retired a.core 0 ((((c.setD a.dd.toNat v).setZN (v == 0) v.msb).setV ov false).withCarry k) s)
    (a.rsv = false →
      exec (.tLdi a) s = .next (done y false none)
      ∧ exec (.tAddi a) s = .next (done (x + y) (decide ((x + y).toInt ≠ x.toInt + y.toInt)) (some (decide (65536 ≤ x.toNat + y.toNat))))
      ∧ exec (.tSubi a) s = .next (done (x - y) (decide ((x - y).toInt ≠ x.toInt - y.toInt)) (some (decide (y.toNat ≤ x.toNat))))
      ∧ exec (.tAndi a) s = .next (done (x &&& y) false none) ∧ exec (.tOri a) s = .next (done (x ||| y) false none) ∧ exec (.tXori a) s = .next (done (x ^^^ y) false none)
      ∧ exec (.tCmpi a) s = .next (settled s (retired a.core 0
          (((c.setZN (x - y == 0) (x - y).msb).setV (decide ((x - y).toInt ≠ x.toInt - y.toInt)) false).setFlag 2 (decide (y.toNat ≤ x.toNat))) s))
      ∧ (n ≤ 16 → bits y.toNat 13 5 = 0 →
          (bits y.toNat 15 14 = 0 → exec (.tShi a) s = .next (done (x <<< n) (decide ((x <<< n).toInt ≠ x.toInt * 2 ^ n)) (some (n != 0 && x.getLsbD (16 - n)))))
          ∧ (bits y.toNat 15 14 = 1 → exec (.tShi a) s = .next (done (x.sshiftRight n) false (some (n != 0 && x.getLsbD (n - 1)))))
          ∧ (bits y.toNat 15 14 = 2 → exec (.tShi a) s = .next (done (x >>> n) false (some (n != 0 && x.getLsbD (n - 1)))))))
    ∧ (a.rsv = true → ∀ i ∈ [Instr.tLdi a, .tAddi a, .tSubi a, .tAndi a, .tOri a, .tXori a, .tCmpi a, .tShi a],
        exec i s = .next (settled s (takeExc a.core ⟨1, none⟩ (begun s)))))

/-- Accumulator functions: exact sums, shifts and extraction, wrapped with AV or clamped with SAT; moves write exactly their field. 08_tarn_instructions.md R189 07_tarn_core.md R163 07_tarn_core.md R164 07_tarn_core.md R154. -/
def Obligations.AccumulatorFunctions : Prop :=
  ((∀ (a : AccArgs) (s : State), ready s a.core .any = true →
    let c := Machine.core s a.core
    let src := (c.an a.as_.toNat).toInt
    let dst := (c.an a.ad.toNat).toInt
    let sh := sext 6 (a.imm.toNat % 64)
    let put := fun (v : BitVec 40) (ov sat : Bool) => ((c.setA a.ad.toNat v).setZN (v == 0) v.msb).setV ov sat
    let P := fun (o : Host.Outcome State Fault Refusal) (z : Int) =>
      let v := BitVec.ofInt 40 z
      (a.s = false → v.toInt = z → o = .next (settled s (retired a.core 0 (put v false false) s)))
      ∧ (a.s = false → v.toInt ≠ z → c.trapv = false → o = .next (settled s (retired a.core 0 ((put v true false).setFlag (6 + a.ad.toNat % 4) true) s)))
      ∧ (a.s = false → v.toInt ≠ z → c.trapv = true → o = .next (settled s (takeExc a.core ⟨4, some (2 ^ (a.ad.toNat % 4))⟩ (begun s))))
      ∧ (a.s = true → o = .next (settled s (retired a.core 0
          (put (BitVec.ofInt 40 (clampI (-2147483648) 2147483647 z)) false (decide (z < -2147483648 ∨ 2147483647 < z))) s)))
    (a.dr = 0 → a.imm = 0 → P (exec (.tAadd a) s) (dst + src) ∧ P (exec (.tAsub a) s) (dst - src) ∧ P (exec (.tAneg a) s) (-src) ∧ P (exec (.tAabs a) s) src.natAbs)
    ∧ (a.dr = 0 → a.imm.toNat < 64 → P (exec (.tAsh a) s) (if 0 ≤ sh then src * 2 ^ sh.toNat else src / 2 ^ sh.natAbs))
    ∧ (a.ad = 0 → a.imm = 0 → a.s = false → c.trapv = false →
        let z := divEvenI src 65536
        let v := BitVec.ofInt 16 z
        exec (.tExt a) s = .next (settled s (retired a.core 0 (((c.setD a.dr.toNat v).setZN (v == 0) v.msb).setV (decide (v.toInt ≠ z)) false) s)))
    ∧ (a.ad = 0 → a.imm = 0 → a.s = false → c.trapv = false → a.as_.toNat % 2 = 0 → a.dr.toNat < 8 →
        let z := divEvenI (c.wideA (a.as_.toNat / 2)).toInt (2 ^ 32)
        let v := BitVec.ofInt 32 z
        exec (.tExtw a) s = .next (settled s (retired a.core 0 (((c.setPair a.dr.toNat v).setZN (v == 0) v.msb).setV (decide (v.toInt ≠ z)) false) s)))
    ∧ (a.ad = 0 → a.imm = 0 → a.s = true → (a.as_ = 0 ∨ a.as_ = 4) → a.dr.toNat < 4 →
        ∃ t, exec (.tExtv a) s = .next t ∧ ∀ i, i < 4 → (Machine.core t a.core).dn (4 * a.dr.toNat + i)
          = BitVec.ofInt 16 (clampI (-32768) 32767 (divEvenI (c.an (a.as_.toNat + i)).toInt 65536))))
  ∧ (∀ (z : Int) (d : Nat), 0 < d → 2 * (z - d * divEvenI z d).natAbs ≤ d ∧ (2 * (z - d * divEvenI z d).natAbs = d → divEvenI z d % 2 = 0)))
  ∧ ((∀ (a : AccArgs) (s : State), ready s a.core .any = true → a.s = false → a.imm = 0 →
    let c := Machine.core s a.core
    let A := c.an a.as_.toNat
    let done := fun (c : Core) => settled s (retired a.core 0 c s)
    (a.as_ = 0 → a.dr = 0 → exec (.tAclr a) s = .next (done (c.setA a.ad.toNat 0)))
    ∧ (a.as_ = 0 → a.dr = 0 → (a.ad = 0 ∨ a.ad = 4) → ∃ t, exec (.tAclrv a) s = .next t
        ∧ ∀ i, i < 8 → (Machine.core t a.core).an i = if a.ad.toNat ≤ i ∧ i < a.ad.toNat + 4 then 0 else c.an i)
    ∧ (a.dr = 0 → exec (.tAmov a) s = .next (done (c.setA a.ad.toNat A)))
    ∧ (a.ad = 0 → a.dr.toNat < 8 → exec (.tMval a) s = .next (done (c.setPair a.dr.toNat (A.setWidth 32))))
    ∧ (a.ad = 0 → exec (.tMvag a) s = .next (done (c.setD a.dr.toNat ((A.extractLsb' 32 8).signExtend 16))))
    ∧ (a.as_ = 0 → a.dr.toNat < 8 → exec (.tMvda a) s = .next (done (c.setA a.ad.toNat ((c.pair a.dr.toNat).signExtend 40))))
    ∧ (a.as_ = 0 → exec (.tMvga a) s = .next (done (c.setA a.ad.toNat ((c.dn a.dr.toNat).extractLsb' 0 8 ++ (c.an a.ad.toNat).extractLsb' 0 32))))
    ∧ (a.as_ = 0 → exec (.tDeph a) s = .next (done (c.setA a.ad.toNat ((c.dn a.dr.toNat).signExtend 24 ++ (0 : BitVec 16))))))
  ∧ (∀ A : BitVec 40, (((A.extractLsb' 32 8).signExtend 16).extractLsb' 0 8 : BitVec 8) ++ (((A.setWidth 32).signExtend 40).extractLsb' 0 32 : BitVec 32) = A))

/-- Sixteen DIVS steps divide: first with F, fourteen plain, last with L, quotient and remainder exact. 08_tarn_instructions.md R190. -/
def Obligations.DivisionIsExact : Prop :=
  (∀ (N : BitVec 32) (dv : W16) (carry : Bool), dv ≠ 0 → N.toNat / 65536 < dv.toNat →
    let first := divStep (N.setWidth 40) dv true false carry
    let mid := Nat.repeat (fun (x : BitVec 40 × Bool) => divStep x.1 dv false false x.2) 14 first
    (divStep mid.1 dv false true mid.2).1 = BitVec.ofNat 40 (N.toNat % dv.toNat * 65536 + N.toNat / dv.toNat))
  ∧ (∀ (n : Nat) (f l : Bool) (a : BitVec 3) (dv : BitVec 4) (s : State), ready s n .any = true →
      let c := Machine.core s n
      let x := divStep (c.an a.toNat) (c.dn dv.toNat) f l (c.flag 2)
      exec (.tDivs n f l a dv 0) s = .next (settled s (retired n 0 ((c.setA a.toNat x.1).setFlag 2 x.2) s)))

/-- MAC, MSU, MPY, MPYN: four lanes or one wide product; slots load, store and step their pointers with the old operands. 07_tarn_core.md R162 07_tarn_core.md R163 08_tarn_instructions.md R184 08_tarn_instructions.md R185. -/
def Obligations.MultiplyAccumulate : Prop :=
  ∀ (a : MacArgs) (s : State), ready s a.core .any = true → a.rsv = 0 →
    let c := Machine.core s a.core
    let fr : Int := if c.frac then 2 else 1
    let ops := [(Instr.tMac a, fun (o p : Int) => o + p), (.tMsu a, fun o p => o - p), (.tMpy a, fun _ p => p), (.tMpyn a, fun _ p => -p)]
    (∀ i ∈ ops, a.m1 = 0 → a.m2 = 0 → a.s = false → c.trapv = false → c.wide = false →
      ∃ t, exec i.1 s = .next t ∧ (∀ k, k < 8 → (Machine.core t a.core).an k = if k / 4 = a.acc.toNat % 2 then
          BitVec.ofInt 40 (i.2 (c.an k).toInt ((c.dn (4 * a.x.toNat + k % 4)).toInt * (c.dn (4 * a.y.toNat + if a.b then 0 else k % 4)).toInt * fr)) else c.an k)
        ∧ (Machine.core t a.core).d = c.d ∧ (Machine.core t a.core).p = c.p ∧ ∀ j, j < 3 → (Machine.core t a.core).flag j = c.flag j)
    ∧ (∀ i ∈ ops, a.m1 = 0 → a.m2 = 0 → a.s = false → c.trapv = false → c.wide = true →
      ∃ t, exec i.1 s = .next t ∧ (Machine.core t a.core).wideA a.acc.toNat
          = BitVec.ofInt 80 (i.2 (c.wideA a.acc.toNat).toInt ((c.pair (2 * a.x.toNat)).toInt * (c.pair (2 * a.y.toNat)).toInt * fr))
        ∧ ∀ k, k < 8 → k / 2 ≠ a.acc.toNat → (Machine.core t a.core).an k = c.an k)
    ∧ (∀ i ∈ ops, ∀ ws, a.m1 = 1 → a.m2 = 1 → a.t2 = true → a.p1 ≠ a.p2 → a.s = true →
        c.accessFault (c.areg a.p1.toNat).toNat 4 = none → c.accessFault (c.areg a.p2.toNat).toNat 4 = none →
        loadWords (begun s) a.core (c.areg a.p1.toNat).toNat 4 = .ok ws →
        ∃ t, exec i.1 s = .next t ∧ (Machine.core t a.core).lanes a.r1.toNat = ws
          ∧ (Machine.core t a.core).stores = (c.stores ++ [((c.areg a.p2.toNat).toNat, c.lanes a.r2.toNat)]).drop
              (max (forcedBy c.stores (c.areg a.p1.toNat).toNat 4) (c.stores.length - 3))
          ∧ (Machine.core t a.core).p = ((c.postModify a.p1.toNat 4).postModify a.p2.toNat 4).p)
    ∧ (∀ i ∈ ops, ∀ e, a.m1 ≠ 0 → (a.m2 = 0 ∨ a.p1 ≠ a.p2) → (a.m2 = 0 ∨ a.t2 = true ∨ a.r1 ≠ a.r2) → c.accessFault (c.areg a.p1.toNat).toNat 4 = some e →
        exec i.1 s = .next (settled s (takeExc a.core e (begun s))))

/-- Flow: a branch waits for its delay slot, which commits it; LOOP and REPEAT set their counters. 07_tarn_core.md R166 07_tarn_core.md R167 07_tarn_core.md R168 07_tarn_core.md R170 08_tarn_instructions.md R192 08_tarn_instructions.md R193. -/
def Obligations.BranchesAndLoops : Prop :=
  ∀ (n : Nat) (s : State),
    let c := Machine.core s n
    (ready s n .any = true → exec (.tNop n) s = .next (settled s (retired n 0 c s))
      ∧ exec (.tWait n 0) s = .next (settled s (retired n 0 { c with waiting := (c.ipend &&& c.ien) == 0 } s)))
    ∧ (ready s n .branch = true →
      (∀ cc target, ∃ t, exec (.tB n cc 0 target) s = .next t ∧ (Machine.core t n).pc = c.pc + 1 ∧ (Machine.core t n).stack = c.stack
        ∧ ((Machine.core t n).branch.bind (·.target)) = if c.cond cc.toNat then some target else none)
      ∧ (∀ target, c.stack.length < 16 → ∃ t, exec (.tCall n 0 target) s = .next t ∧ (Machine.core t n).pc = c.pc + 1 ∧ (Machine.core t n).stack = c.stack
        ∧ ∃ b, (Machine.core t n).branch = some b ∧ b.target = some target ∧ b.push = true ∧ b.addr = c.pc)
      ∧ (∀ target, 16 ≤ c.stack.length → exec (.tCall n 0 target) s = .next (settled s (takeExc n ⟨5, none⟩ (begun s))))
      ∧ (∀ x rest, c.stack = x :: rest → ∃ t, exec (.tRet n 0) s = .next t ∧ (Machine.core t n).pc = c.pc + 1 ∧ (Machine.core t n).stack = c.stack
        ∧ ∃ b, (Machine.core t n).branch = some b ∧ b.target = some x ∧ b.pop = true)
      ∧ (c.stack = [] → exec (.tRet n 0) s = .next (settled s (takeExc n ⟨6, none⟩ (begun s)))))
    ∧ (∀ b target, ready s n .any = true → c.rep = false → c.branch = some b → b.target = some target → b.push = true →
        ∃ t, exec (.tNop n) s = .next t ∧ (Machine.core t n).pc = target ∧ (Machine.core t n).stack = (b.addr + 2) :: c.stack ∧ (Machine.core t n).branch = none)
    ∧ (ready s n .flow = true → ∀ (cnt : BitVec 10) (stop : BitVec 14), (c.pc + 1).toNat ≤ stop.toNat →
      (cnt ≠ 0 → exec (.tLoop n false false cnt stop) s = .next (settled s (retired n 0 { c with wf0 := c.pc + 1, wl0 := stop, wc0 := cnt.setWidth 16 } s)))
      ∧ (cnt ≠ 0 → c.wc0 = 0 ∨ stop.toNat ≤ c.wl0.toNat →
          exec (.tLoop n true false cnt stop) s = .next (settled s (retired n 0 { c with wf1 := c.pc + 1, wl1 := stop, wc1 := cnt.setWidth 16 } s)))
      ∧ ∃ t, exec (.tLoop n false false 0 stop) s = .next t ∧ (Machine.core t n).pc = stop + 1 ∧ (Machine.core t n).wc0 = 0)
    ∧ (∀ m : BitVec 12, ready s n .flow = true → unrepeatable (mget 0 c.imem c.nextPc.toNat) = false →
        ∃ t, exec (.tRepeat n 0 m) s = .next t ∧ (Machine.core t n).rc = m.toNat + 1 ∧ (Machine.core t n).rep = true ∧ (Machine.core t n).pc = c.nextPc)

/-- LD, ST, LDAI, MOVR, MODP, MVC: what they move, how the pointer steps, and when an access faults. 07_tarn_core.md R156 07_tarn_core.md R157 07_tarn_core.md R172 07_tarn_core.md R173 08_tarn_instructions.md R181 08_tarn_instructions.md R183 08_tarn_instructions.md R191. -/
def Obligations.LoadsStoresAndMoves : Prop :=
  ∀ s : State,
    (∀ a : LdArgs, ready s a.core .any = true → ldBad a = false →
      let c := Machine.core s a.core
      let k := sizeWords a.sz.toNat
      (∀ ws, c.accessFault (ldAddr a c) k = none → loadWords (begun s) a.core (ldAddr a c) k = .ok ws →
        exec (.tLd a) s = .next (settled s (retired a.core 1 (ldPut a (ldModify a c) ws) s (forced := forcedBy c.stores (ldAddr a c) k))))
      ∧ (∀ x, x ∈ c.stores.getLast? → x.1 ≤ ldAddr a c → ldAddr a c + k ≤ x.1 + x.2.length → 0 < k →
        loadWords (begun s) a.core (ldAddr a c) k = .ok ((x.2.drop (ldAddr a c - x.1)).take k) ∧ forcedBy c.stores (ldAddr a c) k = 0)
      ∧ (c.accessFault (ldAddr a c) k = none →
        exec (.tSt a) s = .next (settled s (retired a.core 1 (ldModify a { c with stores := c.stores ++ [(ldAddr a c, stData a c)] }) s)))
      ∧ (∀ e, c.accessFault (ldAddr a c) k = some e → exec (.tLd a) s = .next (settled s (takeExc a.core e (begun s)))
        ∧ exec (.tSt a) s = .next (settled s (takeExc a.core e (begun s)))))
    ∧ (∀ (c : Core) (x k : Nat), (x % k ≠ 0 → c.accessFault x k = some ⟨3, some x⟩)
        ∧ (x % k = 0 → 0 < k → 0x10000 ≤ x → x < 0x100000 → c.accessFault x k = some ⟨2, some x⟩)
        ∧ (x % k = 0 → 0 < k → x + k ≤ 0x10000 → c.accessFault x k = none))
    ∧ (∀ (n : Nat), ready s n .any = true →
      let c := Machine.core s n
      (∀ r imm, exec (.tLdai n r imm) s = .next (settled s (retired n 0 (c.setAreg r.toNat (if isM r.toNat then imm.signExtend 24 else imm.setWidth 24)) s)))
      ∧ (∀ r p, exec (.tMovr n false r p 0) s = .next (settled s (retired n 0 (c.setAreg r.toNat ((c.pair p.toNat).setWidth 24)) s))
          ∧ exec (.tMovr n true r p 0) s = .next (settled s (retired n 0 (c.setPair p.toNat (c.areg32 r.toNat)) s)))
      ∧ (∀ (k : BitVec 3) (m : BitVec 23), exec (.tModp n k m) s = .next (settled s (retired n 0 (c.postModify k.toNat m.toInt) s)))
      ∧ (∀ (cr : BitVec 6) (p : BitVec 3) v, c.crRead n cr.toNat = some v →
          exec (.tMvc n true cr p 0) s = .next (settled s (retired n 0 (c.setPair p.toNat (BitVec.ofNat 32 v)) s)))
      ∧ (∀ p : BitVec 3, exec (.tMvc n false 0x12 p 0) s = .next (settled s (retired n 0 { c with emode := c.pair p.toNat } s))
          ∧ exec (.tMvc n false 0x18 p 0) s = .next (settled s (retired n 0 { c with ien := (c.pair p.toNat).setWidth 7 } s))
          ∧ exec (.tMvc n false 0x19 p 0) s = .next (settled s (retired n 0 { c with ipend := c.ipend &&& ~~~((c.pair p.toNat).setWidth 7) } s))
          ∧ exec (.tMvc n false 0x08 p 0) s = .next (settled s (retired n 0 { c with rc := min (c.pair p.toNat).toNat 4096 } s)))
      ∧ (∀ (cr : BitVec 6) (p : BitVec 3), cr ∈ [(0x09 : BitVec 6), 0x0A, 0x0B, 0x0C, 0x0D, 0x0E, 0x0F, 0x17, 0x1B, 0x30] →
          exec (.tMvc n false cr p 0) s = .next (settled s (takeExc n ⟨1, none⟩ (begun s)))))

/-- Exception entry, TRAP, BREAK, returns and interrupt entry: what is saved and where issue goes. 07_tarn_core.md R174 07_tarn_core.md R175 07_tarn_core.md R176 08_tarn_instructions.md R194. -/
def Obligations.ExceptionsAndInterrupts : Prop :=
  (∀ (n : Nat) (e : Exc) (s : State), statActive (Machine.core s n).estat = false → e.cause ≠ 9 →
      let c := Machine.core s n
      let x := Machine.core (takeExc n e s) n
      x.pc = c.vbase + BitVec.ofNat 14 (4 * e.cause) ∧ x.epc = (match c.branch with | some b => b.addr | none => c.pc) ∧ x.mode = c.mode &&& 0xFFF7#16
        ∧ x.emode.setWidth 16 = c.mode ∧ x.d = c.d ∧ x.a = c.a ∧ x.p = c.p ∧ x.sr = c.sr ∧ x.rc = c.rc ∧ x.stack = c.stack ∧ x.stores = c.stores
        ∧ x.estat = statWord e.cause c.branch.isSome c.rep (match c.branch with | some b => b.shadow | none => c.shadow).length)
  ∧ (∀ (n : Nat) (e : Exc) (s : State) (k : Nat), statActive (Machine.core s n).estat = true → (Machine.core s n).run = some k →
      (Machine.core (takeExc n e s) n).halted = true ∧ (Machine.core (takeExc n e s) n).epc = (Machine.core s n).epc)
  ∧ (∀ (n : Nat) (s : State), let c := Machine.core s n
      (∀ code, ready s n .flow = true → statActive c.estat = false → ∃ t, exec (.tTrap n 0 code) s = .next t ∧ (Machine.core t n).pc = c.vbase + 36#14
        ∧ (Machine.core t n).epc = c.complete.pc ∧ (Machine.core t n).eaddr = code.setWidth 24)
      ∧ (ready s n .any = true → c.brk = true → exec (.tBreak n 0) s = .next (settled s (retired n 0 { c with brk := false } s)))
      ∧ (ready s n .any = true → c.brk = false → exec (.tBreak n 0) s = .next (settled s (takeExc n ⟨10, none⟩ (begun s))))
      ∧ (ready s n .flow = true → c.estat.getLsbD 6 = false → ∃ t, exec (.tRte n 0) s = .next t ∧ (Machine.core t n).pc = c.epc
        ∧ (Machine.core t n).mode = c.emode.setWidth 16 ∧ statActive (Machine.core t n).estat = false ∧ (Machine.core t n).d = c.d)
      ∧ (ready s n .flow = true → c.istat.getLsbD 6 = false → ∃ t, exec (.tRti n 0) s = .next t ∧ (Machine.core t n).pc = c.ipc
        ∧ (Machine.core t n).mode = c.imode.setWidth 16 ∧ statActive (Machine.core t n).istat = false ∧ (Machine.core t n).d = c.d)
      ∧ (∀ line, c.lineDue = some line →
        (s.clk.running = true → c.run ≠ none → c.halted = false → c.held = false → c.branch = none → c.rep = false ∨ c.fresh = false → c.inForce.getLsbD 3 = true →
          exec (.interruptEntry n) s = .next (settled s (setCore (begun s) n (c.interrupt line)))
          ∧ (c.interrupt line).pc = c.vbase + BitVec.ofNat 14 (0x40 + 4 * line) ∧ (c.interrupt line).ipc = c.pc ∧ (c.interrupt line).ipend.getLsbD line = false)
        ∧ (c.inForce.getLsbD 3 = false ∨ c.branch ≠ none → exec (.interruptEntry n) s = .next (settled s (begun s))))
      ∧ (s.clk.running = true → c.issues = true → c.haltReq = false → poisoned s (.tarnImem n c.pc.toNat) = false → noInstruction (mget 0 c.imem c.pc.toNat) = true →
          exec (.tNop n) s = .next (settled s (takeExc n ⟨1, none⟩ (begun s)))))

/-- No Tarn instruction changes another core but by a message, another cluster's memory, another task, or anything outside the array. 07_tarn_core.md R153 07_tarn_core.md R155 07_tarn_core.md R174 09_tarn_array.md R204. -/
def Obligations.CoresAreIsolated : Prop :=
  ∀ (i : Instr) (n : Nat) (s t : State), tarnCore i = some n → exec i s = .next t →
    (∀ m, m ≠ n → Machine.core t m = { Machine.core s m with ipend := (Machine.core t m).ipend, cmsgIn := (Machine.core t m).cmsgIn, waiting := (Machine.core t m).waiting })
    ∧ (∀ k, k ≠ homeOf s n → tget t.tarn.cmem k = tget s.tarn.cmem k)
    ∧ (∀ j, (Machine.core s n).run ≠ some j → tget t.tasks j = tget s.tasks j)
    ∧ (∀ j, tget t.tenants j = (tget s.tenants j).map (fun x => { x with faulted := (tenant t j).faulted }))
    ∧ t.streams = s.streams ∧ t.mbx = s.mbx ∧ t.netPorts = s.netPorts ∧ t.lps = s.lps ∧ t.tbs = s.tbs ∧ t.clk = s.clk ∧ t.pwr = s.pwr ∧ t.votes = s.votes

/-- Tasks: how a run starts and is ended, SIGNAL, DMA completion, a spare that takes over, and a core that fails without one. 09_tarn_array.md R201 09_tarn_array.md R203 09_tarn_array.md R205 09_tarn_array.md R206 09_tarn_array.md R207. -/
def Obligations.TaskRunsSignalsAndSpares : Prop :=
  ∀ s : State,
    (∀ (n : Nat) (k : BitVec 4), ready s n .any = true → exec (.tSignal n 0 k) s = .next (settled s (tarnSignal n k.toNat (retired n 0 (Machine.core s n) s))))
    ∧ (∀ (n k j : Nat) (w : Task), (Machine.core s n).run = some j → tget s.tasks j = some w → 0 < k →
        tget (tarnSignal n k s).tasks j = some (if w.signals.contains k then { w with sigDrop := inc48 w.sigDrop 1 } else { w with signals := k :: w.signals }))
    ∧ (∀ (n j : Nat) (w : Task), (Machine.core s n).run = some j → tget s.tasks j = some w → w.running = true →
        (∃ v, tget (tarnSignal n 0 s).tasks j = some v ∧ v.running = false ∧ v.signals = [] ∧ v.outs.length = w.k)
        ∧ (Machine.core (tarnSignal n 0 s) n).run = (if w.resident then some j else none) ∧ (w.resident = true → (Machine.core (tarnSignal n 0 s) n).held = true))
    ∧ (s.clk.running = true → ∀ (j : Nat) (w : Task), tget s.tasks j = some w →
      let d := 17 * w.cluster + w.core
      (w.pendRun = true → w.stopped = false → (Machine.core s d).haltReq = false → runWaits s j w = false →
        (w.library = false → (w.resident = false ∨ w.started = false) → ((Machine.core s d).run = none ∨ (Machine.core s d).run = some j) → Memory.wf 0 (Machine.core s d).lmem = true →
          ∃ t, exec (.tarnRunStart j) s = .next t ∧ (Machine.core t d).pc = BitVec.ofNat 14 (w.vbase + 0x60) ∧ (Machine.core t d).mode = 0
            ∧ (Machine.core t d).run = some j ∧ (Machine.core t d).stack = [] ∧ (Machine.core t d).p.toList.getD 7 0 = BitVec.ofNat 24 w.localBase
            ∧ mget 0 (Machine.core t d).lmem (w.localBase + 4) = BitVec.ofNat 16 w.blocks ∧ (∀ e, e ≠ d → Machine.core t e = Machine.core s e)
            ∧ (tget t.tasks j).map (·.running) = some true)
        ∧ (w.library = false → w.resident = true → w.started = true → (Machine.core s d).run = some j →
          ∃ t, exec (.tarnRunStart j) s = .next t ∧ (Machine.core t d).held = false ∧ (Machine.core t d).halted = false ∧ (Machine.core t d).run = some j
            ∧ (Machine.core t d).ipend.getLsbD 0 = true ∧ (Machine.core t d).pc = (Machine.core s d).pc ∧ (tget t.tasks j).map (·.running) = some true)
        ∧ (w.library = true → (Machine.core s d).run = none → ∃ t, exec (.tarnRunStart j) s = .next t ∧ t.tarn = s.tarn
            ∧ (tget t.tasks j).map (fun v => (v.blocks, v.outs.length)) = some (w.blocks + 1, w.k)))
      ∧ ((w.running = true ∨ w.pendRun = true) → follows s = false → ∃ t, exec (.tarnRunEnd j) s = .next t
          ∧ tget t.tasks j = some { w with running := false, pendRun := false, outs := [], coded := [], overran := true, overruns := inc48 w.overruns 1, overAt := some (secs s) }
          ∧ (w.running = false → t.tarn = s.tarn)
          ∧ (w.running = true → if (Machine.core s d).branch = none ∧ ((Machine.core s d).rep && (Machine.core s d).fresh) = false
              then (Machine.core t d).halted = true ∧ (Machine.core t d).haltReq = false else (Machine.core t d).haltReq = true))
      ∧ (follows s = true → exec (.tarnRunEnd j) s = .next (settled s (begun s)))
      ∧ (w.pendRun = false → exec (.tarnRunStart j) s = .next (settled s (begun s)))
      ∧ (w.running = false → w.pendRun = false → exec (.tarnRunEnd j) s = .next (settled s (begun s))))
    ∧ (∀ (n ch moved : Nat), let d := dmaOf (Machine.core s n) ch
        (d.busy = false ∨ s.clk.running = false → ∀ b, exec (.dmaDone n ch moved b) s = .next (settled s (begun s)))
        ∧ (d.busy = true → s.clk.running = true →
          (dmaStop s d moved false = none → ∃ t, exec (.dmaDone n ch moved false) s = .next t ∧ (dmaOf (Machine.core t n) ch).busy = false ∧ (dmaOf (Machine.core t n) ch).done = true
            ∧ (d.irq = true → (Machine.core t n).ipend.getLsbD (2 + ch) = true))
          ∧ (dmaStop s d moved false ≠ none → ∃ t, exec (.dmaDone n ch moved false) s = .next t ∧ (dmaOf (Machine.core t n) ch).busy = false
            ∧ (dmaOf (Machine.core t n) ch).err = true ∧ (dmaOf (Machine.core t n) ch).code = 3)
          ∧ ∃ t, exec (.dmaDone n ch moved true) s = .next t ∧ (dmaOf (Machine.core t n) ch).busy = false ∧ (dmaOf (Machine.core t n) ch).err = true
            ∧ (dmaOf (Machine.core t n) ch).code = 3 ∧ (Machine.core t n).ipend.getLsbD 1 = true))
    ∧ (s.clk.running = true → ∀ (cl k : Nat), let d := 17 * cl + k
        let spared := fun (t : State) => (∀ n, Machine.core t n = if n = d then { Machine.core s d with waiting := false } else Machine.core s n)
          ∧ t.tarn.cmem = s.tarn.cmem ∧ t.tarn.failed = s.tarn.failed ∧ t.tasks = s.tasks ∧ tget t.tarn.spares cl = some k
        (s.health.wear.contains d = true → tarnSpareLeft s cl = true → ∃ t, exec (.tarnSpareTakeover cl k) s = .next t ∧ spared t)
        ∧ (cl < 16 → k < 16 → s.tarn.failed.contains d = false →
          (tarnSpareLeft s cl = true → ∃ t, exec (.tarnCoreFail cl k) s = .next t ∧ spared t)
          ∧ (tarnSpareLeft s cl = false → tasksOn s cl k ≠ [] →
            ((∃ e, e < 272 ∧ e ≠ d ∧ coreFree s e = true) →
              ∃ t e, exec (.tarnCoreFail cl k) s = .next t ∧ e ≠ d ∧ coreFree s e = true ∧ (∀ f, f / 17 = cl → f ≠ d → coreFree s f = true → e / 17 = cl)
                ∧ Machine.core t e = { Machine.core s d with waiting := false } ∧ homeOf t e = homeOf s d
                ∧ ∀ j w, tget s.tasks j = some w → w.cluster = cl → w.core = k → tget t.tasks j = some { w with cluster := e / 17, core := e % 17 })
            ∧ ((∀ e, e < 272 → e ≠ d → coreFree s e = false) →
              ∃ t, exec (.tarnCoreFail cl k) s = .next t ∧ d ∈ t.tarn.failed
                ∧ ∀ j w, tget s.tasks j = some w → w.cluster = cl → w.core = k →
                  (tget t.tasks j).map (fun v => (v.stopped, v.running, v.pendRun, v.outs)) = some (true, false, false, [])))))

/-- A received frame leaves the path at the first step that takes it: length, FCS, MAC control, readiness, tag, stream, filter, fall-back. 10_network_ports.md R216 10_network_ports.md R218 10_network_ports.md R228. -/
def Obligations.ReceivePathCountsByKind : Prop :=
  ∀ (p : Nat) (f : RxFrame) (s : State), s.clk.running = true →
    let d := inletDrain (begun s) f.taken
    let n := netPort d p
    let len := f.bytes.length + 4
    let a := fecCount d p f.fec
    let good := netCount (netCount (netCount (netCount a p 0 len) p 1 1) p (2 + dstKind f.bytes) 1) p (sizeClass len) 1
    let fits := 64 ≤ len ∧ len ≤ n.maxFrame
    let outer := bit n.tagFlags 0
    let mine := fldBe f.bytes 12 2 = (if bit n.tagFlags 1 then 0x8100 else 0x88A8) ∧ fldBe f.bytes 14 2 % 4096 = n.outerTci % 4096
    let b := if outer then f.bytes.take 12 ++ f.bytes.drop 16 else f.bytes
    let k := if outer then 1 else 2
    let past := fits ∧ f.fcsOk = true ∧ fldBe f.bytes 12 2 ≠ 0x8808 ∧ d.ctl.stage = 4 ∧ (outer = true → mine) ∧ isPtp b k = false
    (portExists d p = false ∨ n.link = false → exec (.netRxFrame p f) s = .next (settled s d))
    ∧ (portExists d p = true → n.link = true →
      (len < 64 → exec (.netRxFrame p f) s = .next (settled s (netCount a p (if f.fcsOk then 6 else 7) 1)))
      ∧ (64 ≤ len → n.maxFrame < len → exec (.netRxFrame p f) s = .next (settled s (netCount a p (if f.fcsOk then 8 else 9) 1)))
      ∧ (fits → f.fcsOk = false → exec (.netRxFrame p f) s = .next (settled s (netCount a p 5 1)))
      ∧ (fits → f.fcsOk = true → fldBe f.bytes 12 2 = 0x8808 → fldBe f.bytes 14 2 ≠ 1 → fldBe f.bytes 14 2 ≠ 0x101 →
          exec (.netRxFrame p f) s = .next (settled s (netCount good p 29 1)))
      ∧ (fits → f.fcsOk = true → fldBe f.bytes 12 2 ≠ 0x8808 → d.ctl.stage ≠ 4 → exec (.netRxFrame p f) s = .next (settled s (netCount good p 20 1)))
      ∧ (fits → f.fcsOk = true → fldBe f.bytes 12 2 ≠ 0x8808 → d.ctl.stage = 4 → outer = true → ¬ mine →
          exec (.netRxFrame p f) s = .next (settled s (netCount good p 21 1)))
      ∧ (∀ u, past → streamFrame good p p f.eighth k b = some u → exec (.netRxFrame p f) s = .next (settled s u))
      ∧ (∀ i w, past → streamFrame good p p f.eighth k b = none → filterOf good p b = some (i, w) → bit (fld w 1 1) 2 = true →
          (bit (fld w 1 1) 1 && macAsleep good p) = false → exec (.netRxFrame p f) s = .next (settled s (netCount good p 23 1)))
      ∧ (past → streamFrame good p p f.eighth k b = none → filterOf good p b = none → sundiqueFrame good b k = false →
          (n.defRing = 0xFFFFFFFF ∨ (b.take 6 ≠ n.mac ∧ (dstKind b = 2 → bit n.rxFlags 0 = false) ∧ (dstKind b = 1 → bit n.rxFlags 1 = false) ∧ bit n.rxFlags 2 = false)) →
          exec (.netRxFrame p f) s = .next (settled s (netCount good p 22 1))))

/-- Pause holds, the pause watchdog and WD_HOLD of a class; transmit and receive LPI of a port. 10_network_ports.md R225 10_network_ports.md R226 10_network_ports.md R227. -/
def Obligations.PauseAndLowPowerIdle : Prop :=
  ((∀ (p c : Nat) (s : State), p < 8 → c < 8 → s.clk.running = true →
      (∃ t, exec (.pauseHoldExpiry p c) s = .next t ∧ bit (netPort t p).held c = false ∧ (netPort t p).wdMask = (netPort s p).wdMask
        ∧ ∀ q, q ≠ p → netPort t q = netPort s q)
      ∧ exec (.wdHoldExpiry p c) s = .next (settled s { begun s with netPorts := tset s.netPorts p { netPort s p with wdMask := setBit (netPort s p).wdMask c false } })
      ∧ (bit (netPort s p).held c = true → ∃ t, exec (.pauseWdExpiry p c) s = .next t ∧ bit (netPort t p).held c = false ∧ bit (netPort t p).wdMask c = true
          ∧ tgetD (netPort t p).ctr 50 0 = inc48 (tgetD (netPort s p).ctr 50 0) 1 ∧ ∀ q, q ≠ p → netPort t q = netPort s q)
      ∧ (bit (netPort s p).held c = false → exec (.pauseWdExpiry p c) s = .next (settled s (begun s))))
  ∧ (∀ (p m c : Nat) (q : Nat → Nat) (s : State), bit (netPort s p).wdMask c = true → bit (netPort (pauseClasses s p m q) p).held c = bit (netPort s p).held c))
  ∧ (∀ (p : Nat) (s : State), s.clk.running = true →
    let n := netPort s p
    let may := lpiPort s p = true ∧ n.lpiEn = 1 ∧ n.link = true ∧ n.txLpi = false ∧ n.queue = [] ∧ portTxLegs s p = false
    (may → exec (.lpiIdleExpiry p) s = .next (settled s (emit (netCount { begun s with netPorts := tset s.netPorts p { n with txLpi := true } } p 52 1) (.linkSignal p 4))))
    ∧ (¬ may → exec (.lpiIdleExpiry p) s = .next (settled s (begun s)))
    ∧ (n.txLpi = true → ∃ t, exec (.lpiWakeTimeExpiry p) s = .next t ∧ (netPort t p).txLpi = false ∧ ∀ q, q ≠ p → netPort t q = netPort s q)
    ∧ (p < 8 → lpiPort s p = true → ∀ on : Bool, ∃ t, exec (.receiveLpiChange p on) s = .next t ∧ (netPort t p).rxLpi = on
        ∧ (on = true → n.rxLpi = false → tgetD (netPort t p).ctr 28 0 = inc48 (tgetD (netPort s p).ctr 28 0) 1) ∧ ∀ q, q ≠ p → netPort t q = netPort s q))

/-- Links, calibration and adaptation: what each event leaves. 10_network_ports.md R212 10_network_ports.md R213 10_network_ports.md R214 10_network_ports.md R215 13_time_and_calendar.md R281. -/
def Obligations.LinkModeAndCalibration : Prop :=
  (∀ (p : Nat) (lf rf : Bool) (s : State), portExists s p = true →
      ((netPort s p).link = false → calibrating s p = false → s.dev.safe = false → bit s.clk.sds (p / 4) = true →
        ∃ t, exec (.netLinkChange p true lf rf) s = .next t ∧ (netPort t p).link = true ∧ (netPort t p).localFault = lf ∧ (netPort t p).remoteFault = rf
          ∧ (∃ d, d < 2 ^ 20 ∧ (3 < groupMode s (p / 4) → d = 0)
              ∧ (tgetD t.tsPorts p {}).corrIn = (netCorr (groupMode s (p / 4)) (tgetD s.netGroups (p / 4) {}).fec).1 + d
              ∧ (tgetD t.tsPorts p {}).corrOut = (netCorr (groupMode s (p / 4)) (tgetD s.netGroups (p / 4) {}).fec).2 + d)
          ∧ ∀ q, q ≠ p → netPort t q = netPort s q)
      ∧ ((netPort s p).link = true → ∃ t, exec (.netLinkChange p false lf rf) s = .next t ∧ (netPort t p).link = false
          ∧ (netPort t p).queue = (netPort s p).queue.filter (·.calib) ∧ tgetD (netPort t p).ctr 53 0 = inc48 (tgetD (netPort s p).ctr 53 0) 1
          ∧ ∀ q, q ≠ p → netPort t q = netPort s q))
  ∧ (∀ (g : Nat) (s : State), s.clk.started = true →
      (pendingFor s (fun w => w == .netMode g) = [] → exec (.netModeDone g) s = .next (settled s (begun s)))
      ∧ (∀ c, pendingFor s (fun w => w == .netMode g) = [c] → ∃ t, exec (.netModeDone g) s = .next t ∧ c ∉ t.ctl.pend
          ∧ ∀ h, h < 2 → groupMode t h = groupMode s h
            ∧ (tgetD t.netGroups h {}).pending = ((tgetD s.netGroups h {}).pending && !c.holds.contains (.group h))))
  ∧ (∀ (k : Nat) (s : State), k < 2 → s.clk.started = true → thas s.netGroups k = true → ∃ t, exec (.pllCalDone k) s = .next t ∧ (tgetD t.netGroups k {}).pllCal = false
      ∧ groupMode t k = groupMode s k ∧ ∀ j, j ≠ k → tget t.netGroups j = tget s.netGroups j)
  ∧ (∀ (p : Nat) (s : State), s.clk.started = true → (netPort s p).adapting = true → ∃ t, exec (.adaptDone p) s = .next t ∧ (netPort t p).adapting = false ∧ bit (netPort t p).int 5 = true
      ∧ ∀ q, q ≠ p → netPort t q = netPort s q)
  ∧ (∀ (p c : Nat) (s : State), s.clk.running = true → match (netPort s p).queue.find? (fun h => h.cls == c && h.calib) with
      | some h => ∃ t, exec (.txnrHoldExpiry p c) s = .next t ∧ (netPort t p).queue = (netPort s p).queue.erase h
          ∧ tgetD (netPort t p).ctr 45 0 = inc48 (tgetD (netPort s p).ctr 45 0) 1 ∧ bit (netPort t p).int 4 = true
      | none => exec (.txnrHoldExpiry p c) s = .next (settled s (begun s)))

/-- A field port: what it counts of the frames it receives, PLCA fall-back and resumption, cycles, collisions and back-off. 11_field_ports.md R231 11_field_ports.md R232 11_field_ports.md R233 11_field_ports.md R236 11_field_ports.md R237 11_field_ports.md R239. -/
def Obligations.FieldFramesAndAccess : Prop :=
  ∀ (p : Nat) (s : State), p < 16 → s.clk.running = true →
    let x := fldPort s p
    let ctr := fun (t : State) (i : Nat) => tgetD (fldPort t p).ctr i 0
    let up := fun (t : State) (i : Nat) => ctr t i = inc48 (ctr s i) 1
    let alone := fun (t : State) => ∀ q, q ≠ p → fldPort t q = fldPort s q
    (∀ (f : RxFrame) (opp : Nat),
      let len := f.bytes.length + 4
      let fill := x.rxFill - f.taken
      let e := modFld (begun s) p (fun y => { y with rxFill := fill })
      let a := fldCount (fldCount (modFld (begun s) p (fun y => { y with rxFill := fill + len })) p 0 len) p 1 1
      let d := f.bytes.drop 14
      let n := fld d 2 1
      let k := tgetD s.keys (256 * p + n) {}
      (f.fcsOk = false ∨ len < 64 ∨ 1522 < len → exec (.fldRxFrame p (.frame f opp)) s = .next (settled s (fldCount e p 2 1)))
      ∧ (f.fcsOk = true → 64 ≤ len → len ≤ 1522 → 32768 < fill + len → exec (.fldRxFrame p (.frame f opp)) s = .next (settled s (fldCount e p 3 1)))
      ∧ (f.fcsOk = true → 64 ≤ len → len ≤ 1522 → fill + len ≤ 32768 →
        (s.ctl.stage ≠ 4 ∨ x.configured = false → exec (.fldRxFrame p (.frame f opp)) s = .next (settled s (fldCount a p 5 1)))
        ∧ (s.ctl.stage = 4 → x.configured = true →
          (fldAsleep s p = true → fldBe f.bytes 12 2 ≠ x.keyEtype → exec (.fldRxFrame p (.frame f opp)) s = .next (settled s (fldCount a p 19 1)))
          ∧ (fldAsleep s p = false → isPtp f.bytes 2 = false → fldBe f.bytes 12 2 ≠ x.keyEtype → streamFrame a (16 + p) (16 + p) f.eighth 2 f.bytes = none →
              (x.defRing = 0xFFFFFFFF ∨ toRing a x.tenant x.defRing 0xFFFF (ringStamp a (16 + p) f.eighth) f.bytes = none) → exec (.fldRxFrame p (.frame f opp)) s = .next (settled s (fldCount a p 4 1)))
          ∧ (isPtp f.bytes 2 = false → fldBe f.bytes 12 2 = x.keyEtype →
            (fld d 0 1 ≠ 1 ∨ fld d 1 1 ≠ 1 ∨ allZero (slice d 6 2) = false →
              exec (.fldRxFrame p (.frame f opp)) s = .next (settled s (fldCount (fldCount a p 13 1) p 14 1)))
            ∧ (fld d 0 1 = 1 → fld d 1 1 = 1 → allZero (slice d 6 2) = true →
              (x.plca = true → opp ≠ n → exec (.fldRxFrame p (.frame f opp)) s = .next (settled s (fldCount (fldCount a p 13 1) p 16 1)))
              ∧ (x.plca = false ∨ opp = n → thas s.keys (256 * p + n) = true → k.absent = false → nearest 256 k.seq (fld d 3 1) ≤ k.seq →
                  exec (.fldRxFrame p (.frame f opp)) s = .next (settled s (fldCount (fldCount a p 13 1) p 15 1)))
              ∧ (x.plca = false ∨ opp = n → k.first = true → (thas s.keys (256 * p + n) = false ∨ k.absent = true ∨ (k.seq : Int) < nearest 256 k.seq (fld d 3 1)) → ∃ t, exec (.fldRxFrame p (.frame f opp)) s = .next t
                  ∧ (tget t.keys (256 * p + n)).map (fun m => (m.seq, m.raw, m.blocked, m.latched, m.absent, m.first))
                      = some (fld d 3 1, fldBe d 4 2, fldBe d 4 2, 0, false, false)))))))
    ∧ (x.role = 2 ∧ x.plca = true → ∃ t, exec (.plcaBeaconTimeout p) s = .next t ∧ (fldPort t p).plca = false ∧ (fldPort t p).lost = true ∧ up t 18 ∧ alone t)
    ∧ (¬ (x.role = 2 ∧ x.plca = true) → exec (.plcaBeaconTimeout p) s = .next (settled s (begun s)))
    ∧ (x.role = 1 ∧ x.plca = false ∧ x.lost = true → ∃ t, exec (.beaconResume p) s = .next t ∧ (fldPort t p).plca = true ∧ (fldPort t p).lost = false ∧ alone t)
    ∧ (¬ (x.role = 1 ∧ x.plca = false ∧ x.lost = true) → exec (.beaconResume p) s = .next (settled s (begun s)))
    ∧ (x.role = 2 → x.plca = false → ∃ t, exec (.fldRxFrame p .beacon) s = .next t ∧ (fldPort t p).plca = true ∧ alone t)
    ∧ (x.role = 1 → x.plca = true →
        ∃ t, exec (.fldRxFrame p .beacon) s = .next t ∧ (fldPort t p).plca = false ∧ (fldPort t p).lost = true ∧ up t 17 ∧ up t 18 ∧ alone t)
    ∧ (x.staged = none → x.plca = true → fldMaySend s p = true → ∀ b : Bool, ∃ t, exec (.plcaCycle p b) s = .next t ∧ (fldPort t p).legPkts = x.legPkts.drop (1 + x.burstCount)
        ∧ (∃ l, (fldPort t p).queue = x.queue.drop (1 + x.burstCount - x.legPkts.length) ++ l ∧ ((∀ h ∈ x.legPkts ++ x.queue, h.ptp = none) → l = []))
        ∧ (b = true → up t 11) ∧ alone t)
    ∧ (x.staged = none → x.plca = false ∨ fldMaySend s p = false → exec (.plcaCycle p false) s = .next (settled s (begun s)))
    ∧ (x.legPkts ≠ [] → ∃ t, exec (.fldPacketDeadline p) s = .next t ∧ (fldPort t p).legPkts = x.legPkts.drop 1 ∧ up t 12 ∧ alone t)
    ∧ (x.legPkts = [] → exec (.fldPacketDeadline p) s = .next (settled s (begun s)))
    ∧ (x.cur = none ∨ fldMaySend s p = false → ∀ b : Bool, exec (.collision p b) s = .next (settled s (begun s)) ∧ exec (.backoffExpiry p) s = .next (settled s (begun s)))
    ∧ (∀ b, x.cur = some b → fldMaySend s p = true →
      (∃ t, exec (.collision p true) s = .next t ∧ (fldPort t p).cur = (x.behind.filter (!·.follow)).head? ∧ up t 8 ∧ up t 10 ∧ alone t)
      ∧ (15 ≤ x.attempts → ∃ t, exec (.collision p false) s = .next t ∧ (fldPort t p).cur = (x.behind.filter (!·.follow)).head? ∧ up t 8 ∧ up t 9 ∧ alone t)
      ∧ (x.attempts < 15 → ∃ t, exec (.collision p false) s = .next t ∧ (fldPort t p).cur = some b ∧ (fldPort t p).attempts = x.attempts + 1
          ∧ (fldPort t p).backing = true ∧ up t 8 ∧ alone t)
      ∧ (x.backing = true → ∃ t, exec (.backoffExpiry p) s = .next t ∧ (fldPort t p).backing = false
          ∧ (fldPort t p).cur = some b ∧ (fldPort t p).attempts = x.attempts ∧ (∃ l, (fldPort t p).queue = (if x.plca then x.queue else []) ++ l ∧ (x.plca = false ∨ b.ptp = none → l = [])) ∧ alone t)
      ∧ (x.backing = false → exec (.backoffExpiry p) s = .next (settled s (begun s))))

/-- Keys: absence releases every key of a node, a stuck key is latched off, a debounced level is delivered unless blocked. 11_field_ports.md R240 11_field_ports.md R241 11_field_ports.md R242 11_field_ports.md R244 20_register_file.md R376. -/
def Obligations.KeysAbsentStuckAndDebounced : Prop :=
  ∀ s : State, s.clk.started = true → s.clk.running = true →
    (∀ (p n : Nat), p < 16 → n < 256 →
      (∀ k, tget s.keys (256 * p + n) = some k → k.absent = false → ∃ t, exec (.keyTimeout p n) s = .next t
          ∧ (tget t.keys (256 * p + n)).map (fun m => (m.delivered, m.latched, m.absent, m.first)) = some (0, 0, true, true)
          ∧ ∀ j, j ≠ 256 * p + n → tget t.keys j = tget s.keys j)
      ∧ ((tget s.keys (256 * p + n) = none ∨ (tgetD s.keys (256 * p + n) {}).absent = true) → exec (.keyTimeout p n) s = .next (settled s (begun s)))
      ∧ (∀ key, key < 16 → let k := tgetD s.keys (256 * p + n) {}
          (bit k.delivered key = true → ∃ t, exec (.stuckTimeExpiry 0 p n key) s = .next t
            ∧ bit (tgetD t.keys (256 * p + n) {}).latched key = true ∧ bit (tgetD t.keys (256 * p + n) {}).delivered key = false
            ∧ ∀ j, j ≠ 256 * p + n → tget t.keys j = tget s.keys j)
          ∧ (bit k.delivered key = false → exec (.stuckTimeExpiry 0 p n key) s = .next (settled s (begun s)))))
    ∧ (∀ (pin : Nat),
      (tget s.gpioKeys pin = none → ∀ l : Bool, exec (.gpioDebounceAccept pin l) s = .next (settled s (begun s)))
      ∧ (∀ k, tget s.gpioKeys pin = some k →
        (k.delivered = true → ∀ n i, ∃ t, exec (.stuckTimeExpiry 1 pin n i) s = .next t ∧ tget t.gpioKeys pin = some { k with latched := true, delivered := false })
        ∧ (k.delivered = false → ∀ n i, exec (.stuckTimeExpiry 1 pin n i) s = .next (settled s (begun s)))
        ∧ (∀ l : Bool, let held := l == (k.polarity == 1)
            (k.first = true → ∃ t, exec (.gpioDebounceAccept pin l) s = .next t
              ∧ tget t.gpioKeys pin = some { k with raw := held, blocked := held, first := false, delivered := false })
            ∧ (k.first = false → ∃ t, exec (.gpioDebounceAccept pin l) s = .next t ∧ tget t.gpioKeys pin = some { k with
                raw := held, blocked := k.blocked && held, latched := k.latched && held, delivered := held && !k.blocked && !k.latched }))))
    ∧ (∀ (pin : Nat) (l : Bool),
      (pin < 32 → bit s.gpio.inp pin ≠ l → ∃ t, exec (.gpioInputChange pin l) s = .next t ∧ bit t.gpio.inp pin = l ∧ bit t.gpio.edge pin = true)
      ∧ (32 ≤ pin ∨ bit s.gpio.inp pin = l → exec (.gpioInputChange pin l) s = .next (settled s (begun s))))

/-- A local port's states: triggers, counting, data frames, faults, stop and rate measurement. 12_local_audio_ports.md R252 12_local_audio_ports.md R253 12_local_audio_ports.md R254 12_local_audio_ports.md R255 12_local_audio_ports.md R256 12_local_audio_ports.md R257. -/
def Obligations.LocalPortStates : Prop :=
  ∀ (k : Nat) (s : State), s.clk.running = true →
    let l := lp s k
    let up := fun (t : State) (i : Nat) => tgetD (lp t k).ctr i 0 = inc48 (tgetD l.ctr i 0) 1
    let alone := fun (t : State) => ∀ j, j ≠ k → lp t j = lp s j
    let idle := settled s (begun s)
    (k < 0x20 → l.cfg ≠ [] → ∀ f : PinFrame, f.classOk = true →
      (l.stopReq = false → minFrame l.cfg ≤ f.bclks →
        (l.state = 3 → ∃ t, exec (.lpPinFrame k f) s = .next t ∧ (lp t k).state = 3 ∧ up t 0 ∧ (lp t k).frames = l.frames + 1 ∧ alone t)
        ∧ (l.state = 2 → l.mid = false → l.cnt < lpUnmute k l.cfg → ∃ t, exec (.lpPinFrame k f) s = .next t ∧ (lp t k).state = 2 ∧ (lp t k).cnt = l.cnt + 1 ∧ alone t)
        ∧ (l.state = 2 → l.mid = true → ∃ t, exec (.lpPinFrame k f) s = .next t ∧ (lp t k).state = 2 ∧ (lp t k).cnt = l.cnt ∧ (lp t k).mid = false ∧ alone t)
        ∧ (l.state = 2 → l.mid = false → lpUnmute k l.cfg ≤ l.cnt → ∃ t, exec (.lpPinFrame k f) s = .next t ∧ (lp t k).state = 3 ∧ up t 0 ∧ bit (lp t k).int 2 = true ∧ alone t)
        ∧ (l.state = 6 → l.mid = false → ∃ t, exec (.lpPinFrame k f) s = .next t ∧ (lp t k).state = 2 ∧ (lp t k).cnt = 1 ∧ alone t))
      ∧ (l.stopReq = false → f.bclks < minFrame l.cfg → l.state = 3 → ∃ t, exec (.lpPinFrame k f) s = .next t ∧ (lp t k).state = 6 ∧ up t 3 ∧ bit (lp t k).int 1 = true ∧ alone t)
      ∧ (l.stopReq = true → l.state = 3 → ∃ t, exec (.lpPinFrame k f) s = .next t ∧ (lp t k).state = 4 ∧ (lp t k).cnt = 0 ∧ alone t)
      ∧ (l.state = 4 → ∃ t, exec (.lpPinFrame k f) s = .next t ∧ alone t
          ∧ (if lpUnmute k l.cfg ≤ l.cnt + 1 then (lp t k).state = 5 ∧ bit (lp t k).int 3 = true else (lp t k).state = 4 ∧ (lp t k).cnt = l.cnt + 1)))
    ∧ (0x30 ≤ k → ∀ f, exec (.lpPinFrame k f) s = .next idle)
    ∧ (l.state = 2 → lpUnmute k l.cfg ≤ l.cnt → l.cfg ≠ [] → ∃ t, exec (.unmuteCountDone k) s = .next t ∧ (lp t k).state = 3 ∧ (lp t k).fadeIn = 0 ∧ alone t)
    ∧ (l.state ≠ 2 ∨ l.cnt < lpUnmute k l.cfg → exec (.unmuteCountDone k) s = .next idle)
    ∧ (l.state = 4 ∨ l.stopReq = true → ∀ early : Bool, ∃ t, exec (.lpStopDone k early) s = .next t ∧ (lp t k).state = 5 ∧ (lp t k).stopReq = false
        ∧ (early = true → up t 6) ∧ bit (lp t k).int 3 = true ∧ alone t)
    ∧ (l.state ≠ 4 → l.stopReq = false → ∀ early : Bool, exec (.lpStopDone k early) s = .next idle)
    ∧ (thas s.lps k = true → l.stopReq = false → l.state = 3 → ∃ t, exec (.lpClockLoss k) s = .next t ∧ (lp t k).state = 6 ∧ (lp t k).clk = false ∧ up t 1 ∧ alone t)
    ∧ (thas s.lps k = true → l.state = 4 → ∃ t, exec (.lpClockLoss k) s = .next t ∧ (lp t k).state = 5 ∧ up t 6 ∧ alone t)
    ∧ (l.startLive = true → (l.start.map (·.1)) = some 1 → ∃ t, exec (.lpTrigger k) s = .next t
        ∧ ∀ j, (lp s j).startLive = true → ((lp s j).start.map (·.1)) = some 1 → (lp t j).state = 2 ∧ (lp t j).cnt = 0 ∧ (lp t j).start = none ∧ (lp t j).mid = (lp s j).clk)
    ∧ (l.start = none ∨ l.startLive = false → exec (.lpTrigger k) s = .next idle)
    ∧ (k < 0x30 → ∀ meas, ∃ t, exec (.rateMeasure k meas) s = .next t ∧ (lp t k).meas = meas % 2 ^ 22 ∧ (lp t k).cls = rateClass meas
        ∧ (l.cls ≠ rateClass meas → bit (lp t k).int 0 = true)
        ∧ (l.state = 3 → l.cfg ≠ [] → rateClass meas ≠ lpRate k l.cfg + 1 → (lp t k).state = 6 ∧ up t 2) ∧ alone t)
    ∧ (0x30 ≤ k → ∀ meas, exec (.rateMeasure k meas) s = .next idle)

/-- AES3: lock, loss of lock, the end of a block, and the settling of an output. 12_local_audio_ports.md R263 12_local_audio_ports.md R265 12_local_audio_ports.md R267 12_local_audio_ports.md R270. -/
def Obligations.AesInputsAndOutputs : Prop :=
  ∀ (n : Nat) (s : State), n < 8 → s.clk.running = true →
    let i := 0x20 + n
    let o := 0x28 + n
    let l := lp s i
    let serves := (tgetD s.syns (lpSyn (lp s o).cfg) {}).locked && synServes s (lp s o).owner (lpMode o (lp s o).cfg) (lpSyn (lp s o).cfg)
    let alone := fun (t : State) (k : Nat) => ∀ j, j ≠ k → lp t j = lp s j
    (exec (.aesLock n) s = .next (settled s { begun s with lps := tset s.lps i { l with clk := true, sync := false } }))
    ∧ (l.clk = true → l.state = 3 → l.stopReq = false → ∃ t, exec (.aesLockLoss n) s = .next t ∧ (lp t i).state = 6 ∧ (lp t i).clk = false ∧ (lp t i).sync = false
        ∧ tgetD (lp t i).ctr 11 0 = inc48 (tgetD l.ctr 11 0) 1 ∧ alone t i)
    ∧ (l.clk = false → exec (.aesLockLoss n) s = .next (settled s (begun s)))
    ∧ (l.sync = true → ∀ (a b : List Byte) (missing : Bool), ∃ t, exec (.aesBlockEnd n a b missing) s = .next t
        ∧ (lp t i).csA = (if csGood (fit 24 a) then fit 24 a else l.csA) ∧ (lp t i).csB = (if csGood (fit 24 b) then fit 24 b else l.csB)
        ∧ ((lp t i).csA ≠ l.csA ∨ (lp t i).csB ≠ l.csB → bit (lp t i).int 5 = true)
        ∧ (missing = true → (lp t i).sync = false ∧ tgetD (lp t i).ctr 10 0 = inc48 (tgetD l.ctr 10 0) 1) ∧ (missing = false → (lp t i).sync = true) ∧ alone t i)
    ∧ (l.sync = false → ∀ a b missing, exec (.aesBlockEnd n a b missing) s = .next (settled s (begun s)))
    ∧ ((lp s o).cfg ≠ [] → serves = true →
        exec (.aesSettleExpiry n) s = .next (settled s { begun s with lps := tset s.lps o { lp s o with settled := true, clk := true, cnt := 0, mid := !(lp s o).settled } }))
    ∧ ((lp s o).cfg = [] ∨ serves = false → exec (.aesSettleExpiry n) s = .next (settled s (begun s)))

/-- The calendar: a tick is the next second of a Gregorian calendar, a commit is checked whole and loaded, and an entry that is due fires. 13_time_and_calendar.md R282 13_time_and_calendar.md R283 13_time_and_calendar.md R284. -/
def Obligations.CalendarAndSchedule : Prop :=
  (∀ c : CalTime, c.ok = true → (c ≠ ⟨59, 59, 23, 31, 12, 999⟩ → c.next.ok = true ∧ c.next.secs = c.secs + 1)
      ∧ (c = ⟨59, 59, 23, 31, 12, 999⟩ → c.next = ⟨0, 0, 0, 1, 1, 0⟩))
  ∧ ∀ s : State,
    let secs := fun (n : Nat) (c : CalTime) => (List.range n).foldl (fun c _ => c.next) c
    (∀ n, s.cal.pending = false ∨ s.cal.syncAt ≠ none → let k := s.cal.counted n
      ∃ t, exec (.xbTick n) s = .next t ∧ t.cal.now = secs (k / 32768) s.cal.now ∧ t.cal.sub = k % 32768 ∧ (32768 ≤ k → t.cal.wday = weekday t.cal.now.secs)
        ∧ t.cal.valid = s.cal.valid ∧ (k / 32768 = 1 → t.cal.now.secs = 0 → t.cal.wrap = true))
    ∧ (∀ n, 0 < n → s.cal.pending = true → s.cal.syncAt = none → (calOf s.cal.set).ok = true → let k := { s.cal with sub := 0 }.counted (n - 1)
      ∃ t, exec (.xbTick n) s = .next t ∧ t.cal.now = secs (k / 32768) (calOf s.cal.set) ∧ t.cal.sub = k % 32768 ∧ t.cal.valid = true ∧ t.cal.pending = false)
    ∧ (s.cal.trim = 0 → 0 ≤ s.cal.trimAcc → s.cal.trimAcc < 2 ^ 20 → s.cal.counted 32768 = s.cal.sub + 32768)
    ∧ exec .xbStop s = .next (settled s { begun s with cal := { s.cal with xbStop := true, valid := false } })
    ∧ (s.clk.started = true → ∀ v : BitVec 32, v.toNat / 2 % 2 ^ 15 = 0 → v.toNat / 2 ^ 26 = 0 → ∃ t, exec (.calCommitWrite v) s = .next t ∧ t.cal.trim = v.toNat / 2 ^ 16 % 2 ^ 10
        ∧ t.cal.pending = (s.cal.pending || v.getLsbD 0) ∧ t.cal.now = s.cal.now ∧ t.cal.set = s.cal.set)
    ∧ (s.cal.pending = false → exec .calLoad s = .next (settled s (begun s)))
    ∧ (s.cal.pending = true → s.cal.syncAt = none →
        ((calOf s.cal.set).ok = true → ∃ t, exec .calLoad s = .next t ∧ t.cal.now = calOf s.cal.set ∧ t.cal.sub = 0 ∧ t.cal.valid = true ∧ t.cal.pending = false ∧ t.cal.dateErr = s.cal.dateErr)
        ∧ ((calOf s.cal.set).ok = false → exec .calLoad s = .next (settled s (xbPass 1 { begun s with cal := { s.cal with pending := false, syncAt := none, dateErr := true } }))))
    ∧ (∀ (i : Nat) (e : Sched), s.clk.started = true → s.sched.Pairwise (fun p q => p.1 < q.1) → tget s.sched i = some e → e.trigger = 0 → e.due = true → follows s = false →
        ∃ t, exec (.schedEntryFire i) s = .next t ∧ (e.rep = 0 → tget t.sched i = none)
          ∧ (e.rep ≠ 0 → tget t.sched i = some { e with due := false, last := some s.cal.now.secs })
          ∧ (e.action = 2 → thas s.gpioKeys (fld e.p 17 1 % 32) = false → bit t.gpio.out (fld e.p 17 1 % 32) = bit (fld e.p 17 1) 7))
    ∧ (∀ i, (tget s.sched i = none ∨ (∃ e, tget s.sched i = some e ∧ e.trigger = 0 ∧ (e.due = false ∨ follows s = true))) →
        exec (.schedEntryFire i) s = .next (settled s (begun s)))

/-- Time bases: a slew ends when its offset is applied exactly, a step sets VALID and cancels it, an anchor, loss of the master, time transfer. 13_time_and_calendar.md R271 13_time_and_calendar.md R274 13_time_and_calendar.md R276 13_time_and_calendar.md R279 13_time_and_calendar.md R280 15_references_and_synthesis.md R310. -/
def Obligations.TimeBasesAreSteered : Prop :=
  ∀ (k : Nat) (s : State),
    let b := tb s k
    (b.slew = 0 → exec (.tbSlewDone k) s = .next (settled s (begun s)))
    ∧ (b.slew ≠ 0 → b.inc ≠ effInc b.adj → mereRuns s = true → ∃ t, exec (.tbSlewDone k) s = .next t ∧ s.mere < t.mere
        ∧ tb t k = { b with slew := 0, val := ((b.val + (t.mere - s.mere) * effInc b.adj : Nat) + b.slew).toNat % 2 ^ 80 })
    ∧ (∀ off : Int, let u := tbStep s k off
        (tb u k).val = (((b.val : Int) + off * 2 ^ 32) % 2 ^ 80).toNat ∧ (tb u k).slew = 0 ∧ (tb u k).valid = true ∧ (tb u k).stepped = true
        ∧ ∀ j, j ≠ k → tb u j = tb s j)
    ∧ (k < 16 → s.clk.started = true → ∀ sec ns, exec (.tbAnchorWrite k sec ns) s = .next (settled s { begun s with tbs := tset s.tbs k { b with
        sec := sec % 2 ^ 48, ns := ns % 1000000000, gen := (b.gen + 1) % 256, low := b.val / 2 ^ 48, anchorAt := some s.mere } }))
    ∧ (b.mode = 1 → s.clk.started = true → ∃ t, exec (.ptpMasterLoss k) s = .next t ∧ (tb t k).holdover = true ∧ (tb t k).locked = false ∧ (tb t k).slew = 0
        ∧ (tb t k).adj = meanAdj b.hist s.refs.hoAvg b.adj ∧ (tb t k).valid = b.valid ∧ (tb t k).val = b.val ∧ (∀ j, j ≠ k → tb t j = tb s j)
        ∧ ∀ p q, tget b.ptp p = some q → q.state = 3 → (tget (tb t k).ptp p).map (·.best) = some none)
    ∧ (b.mode ≠ 1 → exec (.ptpMasterLoss k) s = .next (settled s (begun s)))
    ∧ (s.clk.running = true → ∀ off : Int,
      (k < 16 → b.mode = 1 → s.cway.numbered = true → s.cway.manager = false → ∃ t, exec (.timeTransferRx k off) s = .next t ∧ (tb t k).holdover = false
        ∧ (b.valid = true → (tb t k).valid = true) ∧ ∀ j, j ≠ k → tb t j = tb s j)
      ∧ (k < 16 → follows s = true → ∃ t, exec (.timeTransferRx k off) s = .next t ∧ (tb t k).holdover = false ∧ ∀ j, j ≠ k → tb t j = tb s j)
      ∧ (16 ≤ k ∨ (follows s = false ∧ (b.mode ≠ 1 ∨ s.cway.numbered = false ∨ s.cway.manager = true)) →
        exec (.timeTransferRx k off) s = .next (settled s (begun s))))

/-- Start-up of the clocks and recovery: SOSC, the fast oscillators, XA and the root PLL. 14_clock_generation.md R290 14_clock_generation.md R294 14_clock_generation.md R296 14_clock_generation.md R297. -/
def Obligations.ClocksStartAndQualify : Prop :=
  ∀ s : State,
    let idle := settled s (begun s)
    (s.dev.held = true ∨ s.clk.sosc = true → exec .soscRunning s = .next idle)
    ∧ (s.dev.held = false → s.clk.sosc = false → ∃ t, exec .soscRunning s = .next t ∧ t.clk.sosc = true ∧ 0 ∉ t.clk.failed
        ∧ (s.clk.root = false → t.clk.enA = true ∧ t.clk.enX = true))
    ∧ (∀ (o : Nat) (dev : Int),
      (2 ≤ o ∨ foscEnabled s.clk o = false ∨ (s.clk.sosc = false ∧ s.clk.xa = false) → exec (.foscQualWindow o dev) s = .next idle)
      ∧ (o < 2 → foscEnabled s.clk o = true → s.clk.sosc = true → s.clk.started = false → s.clk.xa = false →
        (dev.natAbs ≤ 8000 → ∃ t, exec (.foscQualWindow o dev) s = .next t ∧ t.clk.started = true ∧ tripGet t .foscSel = o
            ∧ srcOk t.clk (1 + o) = true ∧ t.clk.sds = 7 ∧ ((∀ k ∈ s.clk.failed, k < 3) → t.dev.safe = false ∧ t.clk.failed = []))
        ∧ (12000 < dev.natAbs → o = 0 → ∃ t, exec (.foscQualWindow o dev) s = .next t ∧ t.clk.started = false ∧ t.clk.enA = false ∧ t.clk.enB = true
            ∧ (1 ∉ s.clk.failed → bit t.clk.fault 1 = true))
        ∧ (12000 < dev.natAbs → o = 1 → ∃ t, exec (.foscQualWindow o dev) s = .next t ∧ t.clk.started = false ∧ t.clk.enB = false ∧ 2 ∈ t.clk.failed
            ∧ (2 ∉ s.clk.failed → bit t.clk.fault 2 = true ∧ t.dev.safe = true))))
    ∧ (∀ dev : Int,
      (s.clk.started = false ∨ s.clk.enX = false ∨ srcOk s.clk (1 + foscSel s) = false → exec (.xaQualWindow dev) s = .next idle)
      ∧ (s.clk.started = true → s.clk.enX = true → srcOk s.clk (1 + foscSel s) = true →
        (dev.natAbs ≤ 5000 → exec (.xaQualWindow dev) s = .next (settled s { begun s with clk := { s.clk with xa := true, tries := tdel s.clk.tries 3 } }))
        ∧ (8000 < dev.natAbs → 3 ∉ s.clk.failed → ∃ t, exec (.xaQualWindow dev) s = .next t ∧ t.clk.xa = false ∧ t.clk.root = false ∧ t.clk.running = false
            ∧ tripGet t .coreSrc = 0 ∧ t.dev.safe = true ∧ t.clk.failed = s.clk.failed ++ [3] ∧ bit t.clk.fault 3 = true)))
    ∧ (s.clk.xa = true → s.clk.started = true → s.clk.root = false → ∃ t, exec .rootPllLock s = .next t ∧ t.clk.root = true ∧ t.clk.running = true ∧ tripGet t .coreSrc = 1
        ∧ 3 ∉ t.clk.failed ∧ 4 ∉ t.clk.failed ∧ ((∀ k ∈ s.clk.failed, k = 3 ∨ k = 4) → t.clk.failed = [] ∧ t.dev.safe = false)
        ∧ (3 ∈ s.clk.failed ∨ 4 ∈ s.clk.failed → ∀ k b, tget t.tbs k = some b → b.valid = false))
    ∧ (s.clk.xa = false ∨ s.clk.started = false ∨ s.clk.root = true → exec .rootPllLock s = .next idle)

/-- Failures of clock sources: monitor trips, retries, a switch that times out, the spare check, and the LC PLLs. 14_clock_generation.md R290 14_clock_generation.md R292 14_clock_generation.md R293 14_clock_generation.md R294 14_clock_generation.md R295 14_clock_generation.md R298. -/
def Obligations.ClocksFailAndRetry : Prop :=
  ∀ s : State,
    let idle := settled s (begun s)
    (∀ k, (match k with | 0 => s.clk.sosc | 1 => s.clk.enA | 2 => s.clk.enB | 3 => s.clk.enX | 4 => s.clk.root | _ => false) = false →
        exec (.missingEdgeTrip k) s = .next idle)
    ∧ (∀ k, (k = 3 ∧ s.clk.enX = true) ∨ (k = 4 ∧ s.clk.root = true) → k ∉ s.clk.failed → ∃ t, exec (.missingEdgeTrip k) s = .next t ∧ t.clk.root = false ∧ t.clk.running = false
        ∧ tripGet t .coreSrc = 0 ∧ t.dev.safe = true ∧ t.clk.failed = s.clk.failed ++ [k] ∧ bit t.clk.fault k = true ∧ t.dev.faultN = false)
    ∧ (s.clk.sosc = true → 0 ∉ s.clk.failed → ∃ t, exec (.missingEdgeTrip 0) s = .next t ∧ t.clk.sosc = false ∧ t.clk.root = s.clk.root
        ∧ t.dev.safe = true ∧ t.clk.failed = s.clk.failed ++ [0] ∧ (s.clk.root = true → t.clk.running = s.clk.running ∧ t.clk.started = s.clk.started)
        ∧ (s.clk.root = false → t.clk.running = false ∧ t.clk.started = false ∧ t.clk.enA = false ∧ t.clk.enB = false ∧ t.clk.enX = false))
    ∧ (s.clk.failed = [] ∨ s.clk.sosc = false → exec .clkRetry s = .next idle)
    ∧ (s.clk.failed ≠ [] → s.clk.sosc = true → ∃ t, exec .clkRetry s = .next t ∧ t.clk.retries = inc48 s.clk.retries 1 ∧ t.clk.tried = s.clk.tried + 1 ∧ t.clk.enX = true
        ∧ t.clk.failed = s.clk.failed ∧ t.dev.safe = s.dev.safe ∧ (s.clk.started = false → t.clk.enA = true ∧ t.clk.enB = false))
    ∧ (∀ d, ¬ ((319 ≤ d ∧ d ≤ 326) ∨ d = 337) → exec (.swTimeout d) s = .next (settled s { begun s with clk := { s.clk with fault := setBit s.clk.fault 8 true } }))
    ∧ (∀ d, (319 ≤ d ∧ d ≤ 326) ∨ d = 337 → ∃ t, exec (.swTimeout d) s = .next t ∧ bit t.clk.fault 8 = true
        ∧ (tripGet s .coreSrc = 1 → tripGet t .coreSrc = 0 ∧ t.clk.running = false) ∧ (tripGet s .coreSrc ≠ 1 → s.clk.root = true → tripGet t .coreSrc = 1 ∧ t.clk.running = true))
    ∧ (∀ dev : Int,
      (s.clk.xa = false → exec (.foscSpareCheck dev) s = .next idle)
      ∧ (s.clk.xa = true → foscSel s = 0 → ∃ t, exec (.foscSpareCheck dev) s = .next t ∧ t.clk.devB = toBits 16 (clampI (-32768) 32767 dev)
          ∧ (3000 < dev.natAbs → bit t.clk.fault 2 = true ∧ t.clk.foscB = false)))
    ∧ (∀ (k : Nat) (x : Option Int), let bad := ∀ d, x = some d → 500 < d.natAbs
      (¬ bad ∨ 4 ≤ k ∨ (k < 3 ∧ bit s.clk.sds k = false) → exec (.lcPllFail k x) s = .next idle)
      ∧ (bad → k = 3 → ∃ t, exec (.lcPllFail k x) s = .next t ∧ (∀ j, j < 3 → bit t.clk.sds j = false) ∧ t.dev.safe = s.dev.safe)
      ∧ (bad → k < 3 → bit s.clk.sds k = true → ∃ t, exec (.lcPllFail k x) s = .next t ∧ bit t.clk.sds k = false ∧ bit t.clk.fault (5 + k) = true ∧ t.dev.safe = s.dev.safe
          ∧ (k = 2 → t.cway.link = 0 ∧ t.netPorts = s.netPorts)
          ∧ (k < 2 → ∀ p, (4 * k ≤ p ∧ p < 4 * k + 4 → (netPort t p).link = false)
              ∧ (groupMode s 0 ≠ 1 → ¬ (4 * k ≤ p ∧ p < 4 * k + 4) → netPort t p = netPort s p))))
    ∧ (∀ (k : Nat) (dev : Int),
      (k < 4 → dev.natAbs ≤ 200 → s.clk.xa = true → ∃ t, exec (.lcPllRequalify k dev) s = .next t ∧ (∀ j, (k = 3 ∧ j < 3) ∨ j = k ∧ k < 3 → bit t.clk.sds j = true)
          ∧ t.clk.failed = s.clk.failed)
      ∧ (4 ≤ k ∨ s.clk.xa = false ∨ (200 < dev.natAbs ∧ dev.natAbs ≤ 500) ∨ (k < 3 ∧ bit s.clk.sds k = true ∧ dev.natAbs ≤ 200) →
          exec (.lcPllRequalify k dev) s = .next idle)
      ∧ (500 < dev.natAbs → s.clk.xa = true → exec (.lcPllRequalify k dev) s = exec (.lcPllFail k (some dev)) s))

/-- Reference candidates: windows count towards qualification, a wide window or lost activity fails a qualified candidate. 15_references_and_synthesis.md R303 15_references_and_synthesis.md R304 15_references_and_synthesis.md R305 15_references_and_synthesis.md R309. -/
def Obligations.CandidatesQualifyAndFail : Prop :=
  ∀ (n : Nat) (s : State), s.clk.running = true →
    let c := cand s n
    let r := s.refs
    let alone := fun (t : State) => ∀ m, m ≠ n → cand t m = cand s m
    let fails := fun (i : Instr) => ∃ t, exec i s = .next t ∧ (cand t n).state = 3 ∧ (cand t n).left = r.qualTime ∧ bit t.refs.fault 0 = true ∧ alone t
    (66 ≤ n → ∀ e f, exec (.refWindow n e f) s = .next (settled s (begun s)))
    ∧ (n < 66 → ∀ (e : Bool) (m : Int),
      (candEnabled s n = false → ∃ t, exec (.refWindow n e m) s = .next t ∧ (cand t n).state = 0 ∧ alone t)
      ∧ (candEnabled s n = true →
        (candActive s n e = false → c.state = 2 → fails (.refWindow n e m))
        ∧ (candActive s n e = true →
          (c.state = 2 → r.reject * 100 < (candFreq s n m).natAbs → fails (.refWindow n e m))
          ∧ (c.state = 2 → (candFreq s n m).natAbs ≤ r.reject * 100 → ∃ t, exec (.refWindow n e m) s = .next t ∧ cand t n = { c with freq := candFreq s n m } ∧ alone t)
          ∧ (c.state ≠ 2 → 9200 < (candFreq s n m).natAbs → ∃ t, exec (.refWindow n e m) s = .next t ∧ (cand t n).state = 1 ∧ (cand t n).left = r.qualTime ∧ alone t)
          ∧ (c.state = 1 → c.left ≤ r.qualTime → (candFreq s n m).natAbs ≤ 9200 →
              (1 < c.left → ∃ t, exec (.refWindow n e m) s = .next t ∧ (cand t n).state = 1 ∧ (cand t n).left = c.left - 1 ∧ alone t)
              ∧ (c.left = 1 → ∃ t, exec (.refWindow n e m) s = .next t ∧ (cand t n).state = 2 ∧ (cand t n).qualAt = s.mere ∧ alone t)))))
    ∧ (c.state = 2 → candActive s n false = false → fails (.refActivityLoss n))
    ∧ (candActive s n false = false → c.state = 1 → ∃ t, exec (.refActivityLoss n) s = .next t ∧ cand t n = { c with left := r.qualTime } ∧ alone t)
    ∧ (candActive s n false = true ∨ (c.state ≠ 1 ∧ c.state ≠ 2) → exec (.refActivityLoss n) s = .next (settled s (begun s)))
    ∧ (r.force = 0 → firstCand s = none → refSel s ≠ 0x7F → refSel (reselect s false) = 0x7F ∧ ((reselect s false).refs.state = 4 ∨ (reselect s false).refs.state = 0))

/-- Each DPLL update moves the output by at most 0.1 ppm and every mode-3 time base follows; synthesisers relock, unlock and are phased. 15_references_and_synthesis.md R307 15_references_and_synthesis.md R310 15_references_and_synthesis.md R311 15_references_and_synthesis.md R312 15_references_and_synthesis.md R313. -/
def Obligations.OutputMovesSlowly : Prop :=
  ∀ s : State,
    (s.clk.running = true → ∃ t, exec .dpllUpdate s = .next t ∧ s.refs.freq - 25600 ≤ t.refs.freq ∧ t.refs.freq ≤ s.refs.freq + 25600 ∧ t.refs.staged = none
        ∧ ∀ k b, tget t.tbs k = some b → b.mode = 3 → b.adj = t.refs.freq - t.refs.xaCal * 2560)
    ∧ (∀ n, (n < 8 → (syn s n).holder ≠ 0 → (syn s n).relock = true → s.refs.apll = true → ∃ t, exec (.synRelockDone n) s = .next t ∧ (syn t n).locked = true
          ∧ (syn t n).relock = false ∧ (syn t n).gliding = false ∧ (syn t n).freq = synTarget s n ∧ ∀ m, m ≠ n → syn t m = syn s m)
        ∧ (8 ≤ n ∨ (syn s n).holder = 0 ∨ (syn s n).relock = false ∨ s.refs.apll = false → exec (.synRelockDone n) s = .next (settled s (begun s))))
    ∧ (s.refs.apll = true → ∃ t, exec .apllUnlock s = .next t ∧ t.refs.apll = false ∧ bit t.refs.fault 3 = true
        ∧ ∀ n, n < 8 → (syn t n).locked = false ∧ (syn t n).relock = ((syn s n).holder != 0) ∧ (syn t n).holder = (syn s n).holder)
    ∧ (s.refs.apll = false → exec .apllUnlock s = .next (settled s (begun s)))
    ∧ (∃ t, exec .apllRelock s = .next t ∧ t.refs.apll = true ∧ ∀ n, (syn s n).holder ≠ 0 → (syn s n).locked = false → (syn t n).relock = true)
    ∧ ((∃ a, s.refs.syncAt = some a ∧ s.mere - a < 1200000) → ∃ t, exec .syncInEdge s = .next t ∧ bit t.refs.fault 4 = true ∧ t.syns = s.syns ∧ t.refs.syncAt = s.refs.syncAt)
    ∧ ((s.refs.syncAt = none ∨ ∃ a, s.refs.syncAt = some a ∧ 1200000 ≤ s.mere - a) → ∃ t, exec .syncInEdge s = .next t ∧ t.refs.syncAt = some s.mere
        ∧ ∀ n, n < 8 → bit s.refs.syncMask n = true → (syn s n).holder ≠ 0 →
            ((syn s n).locked = true → (syn s n).gliding = false → (syn t n).phased = some s.mere) ∧ ((syn s n).locked = false → (syn t n).phaseTo = some s.mere))

/-- Twin roles: heartbeats, the lease, claims and displacement, for every role and epoch. 16_twin_operation.md R316 16_twin_operation.md R318 16_twin_operation.md R319 16_twin_operation.md R321 16_twin_operation.md R322 16_twin_operation.md R327 16_twin_operation.md R328 16_twin_operation.md R330. -/
def Obligations.TwinRolesAndClaims : Prop :=
  ∀ s : State,
    let idle := settled s (begun s)
    let w := s.twin
    let claimed := fun (t : State) (e : Nat) => role t = 2 ∧ tripGet t .own = 1 ∧ t.twin.epoch = (e + 1) % 256 ∧ bit t.twin.alarm 5 = true ∧ t.twin.leaseAt = some t.mere
    let fenced := fun (t : State) => role t = 5 ∧ tripGet t .own = 0
    let hb : Heartbeat := ⟨role s, w.epoch, role s == 4, false, lastT0 s⟩
    (beats s = true → role s = 2 → exec .heartbeatSend s = .next (settled s { emit (emit (begun s) (.heartbeat 1 hb)) (.heartbeat 2 hb) with twin := { w with leaseAt := some s.mere } }))
    ∧ (beats s = true → role s ≠ 2 → exec .heartbeatSend s = .next (settled s (emit (emit (begun s) (.heartbeat 1 hb)) (.heartbeat 2 hb))))
    ∧ (beats s = false → exec .heartbeatSend s = .next idle)
    ∧ (∀ (p : Nat) (h : Heartbeat),
      (role s = 0 ∨ (p ≠ 1 ∧ p ≠ 2) → exec (.heartbeatRx p h) s = .next idle)
      ∧ (p = 1 ∨ p = 2 →
        let d := (h.epoch % 256 + 256 - w.epoch) % 256
        (role s = 1 → ∃ t, exec (.heartbeatRx p h) s = .next t ∧ (beats s = true → twinId s = 1 → claimed t w.epoch) ∧ (beats s = true → twinId s ≠ 1 → role t = 3)
            ∧ (beats s = false → role t = 1))
        ∧ (role s = 2 → ∃ t, exec (.heartbeatRx p h) s = .next t
            ∧ (h.state ≠ 2 → role t = 2)
            ∧ (h.state = 2 → (0 < d ∧ d < 128) ∨ ((d = 0 ∨ d = 128) ∧ twinId s = 2) → fenced t)
            ∧ (h.state = 2 → 128 < d ∨ ((d = 0 ∨ d = 128) ∧ twinId s ≠ 2) → role t = 2))
        ∧ (role s = 3 ∨ role s = 4 → h.state = 2 → ∃ t, exec (.heartbeatRx p h) s = .next t ∧ (h.yld = true → claimed t (h.epoch % 256))
            ∧ (h.yld = false → role t = role s ∧ t.twin.epoch = h.epoch % 256))
        ∧ (role s = 5 → ∃ t, exec (.heartbeatRx p h) s = .next t ∧ role t = 5 ∧ (h.state = 2 → beats s = true → t.twin.resync = true))))
    ∧ (∀ p, (p = 1 ∨ p = 2 → role s ≠ 0 → (if p = 1 then w.down1 else w.down2) = false → ∃ t, exec (.hbPathMiss p) s = .next t
          ∧ (if p = 1 then t.twin.down1 else t.twin.down2) = true ∧ bit t.twin.alarm (p - 1) = true ∧ role t = role s)
        ∧ ((p ≠ 1 ∧ p ≠ 2) ∨ role s = 0 ∨ (if p = 1 then w.down1 else w.down2) = true → exec (.hbPathMiss p) s = .next idle))
    ∧ (role s = 2 → w.leaseAt ≠ none → ∃ t, exec .leaseExpiry s = .next t ∧ fenced t)
    ∧ (role s ≠ 2 ∨ w.leaseAt = none → exec .leaseExpiry s = .next idle)
    ∧ (role s = 3 ∨ role s = 4 → w.leaseAt ≠ none → ∃ t, exec .standbyClaim s = .next t ∧ claimed t w.epoch ∧ t.twin.down1 = true ∧ t.twin.down2 = true)
    ∧ ((role s ≠ 3 ∧ role s ≠ 4) ∨ w.leaseAt = none → exec .standbyClaim s = .next idle)
    ∧ (∃ t, exec .twinPeerOeLow s = .next t ∧ t.twin.peerOe = true ∧ (role s = 2 → w.seenHigh = true → fenced t) ∧ (role s ≠ 2 ∨ w.seenHigh = false → role t = role s))
    ∧ exec .twinPeerOeHigh s = .next (settled s { begun s with twin := { w with peerOe := false, seenHigh := w.seenHigh || role s == 2 } })
    ∧ (role s = 1 → twinId s = 1 → s.ctl.stage = 4 → w.heard = false → ∃ t, exec .soloWaitExpiry s = .next t ∧ claimed t w.epoch)
    ∧ (role s ≠ 1 ∨ twinId s ≠ 1 ∨ s.ctl.stage ≠ 4 ∨ w.heard = true → exec .soloWaitExpiry s = .next idle)
    ∧ (∀ k slot, (role s = 3 → w.displaced = none → w.watchN ≤ tgetD w.misses k 0 → ∃ t, exec (.lineWatchClaim k slot) s = .next t ∧ claimed t w.epoch)
        ∧ (role s ≠ 3 ∨ (∃ a, w.displaced = some a ∧ s.mere < a + secCycles w.holdoff) ∨ tgetD w.misses k 0 < w.watchN → exec (.lineWatchClaim k slot) s = .next idle))
    ∧ (w.holdoff ≠ 0 → w.down1 = false → w.down2 = false → w.standbyAt ≠ none → twinId s = 1 → role s = 3 → thas s.tenants 0 = false →
        ∃ t, exec .holdoffTakeback s = .next t ∧ claimed t w.epoch)
    ∧ (w.holdoff ≠ 0 → w.down1 = false → w.down2 = false → twinId s = 2 → role s = 2 → w.peerState = 3 → thas s.tenants 0 = false →
        ∃ t, exec .holdoffTakeback s = .next t ∧ role t = 3 ∧ tripGet t .own = 0)
    ∧ (thas s.tenants 0 = true → w.holdoff = 0 ∨ w.down1 = true ∨ w.down2 = true → exec .holdoffTakeback s = .next idle)

/-- The pair's values, comparisons, mirrored commands, rejoining, and the mirrors of a tenant. 16_twin_operation.md R323 16_twin_operation.md R324 16_twin_operation.md R325 16_twin_operation.md R329 20_register_file.md R385. -/
def Obligations.TwinsCompareAndFollow : Prop :=
  ∀ s : State, s.clk.running = true →
    let idle := settled s (begun s)
    let w := s.twin
    (∀ v : TwinVals,
      (follows s = false ∨ thas s.tenants v.tenant = false → exec (.twinValuesRx v) s = .next idle)
      ∧ (follows s = true → thas s.tenants v.tenant = true →
        (v.onTime = true → ∃ t, exec (.twinValuesRx v) s = .next t ∧ (tget t.tenants v.tenant).map (fun x => if v.ahead then x.ratios else x.vals) = some (some v) ∧ role t = role s
            ∧ ∀ k, k ≠ v.tenant → tget t.tenants k = tget s.tenants k)
        ∧ (v.onTime = false → ∃ t, exec (.twinValuesRx v) s = .next t ∧ role t = 4 ∧ t.twin.valMiss = inc48 w.valMiss 1 ∧ bit t.twin.alarm 4 = true ∧ t.tenants = s.tenants)))
    ∧ (role s ≠ 0 → ∀ (n m : Nat) (crcs : List (Nat × Nat)) (late : Bool),
      match w.crcs.find? (fun e => e.1 == n && e.2.1 == m) with
      | none => ∃ t, exec (.shadowCompareRx n m crcs late) s = .next t ∧ t.twin.scMiss = inc48 w.scMiss 1 ∧ t.twin.divFrames = w.divFrames ∧ role t = role s
      | some (_, _, mine) =>
        (late = true → ∃ t, exec (.shadowCompareRx n m crcs late) s = .next t ∧ t.twin.scMiss = inc48 w.scMiss 1 ∧ t.twin.divFrames = w.divFrames ∧ role t = role s)
        ∧ (late = false → firstDiff mine crcs = none → ∃ t, exec (.shadowCompareRx n m crcs late) s = .next t ∧ t.twin.scMiss = w.scMiss ∧ t.twin.divFrames = w.divFrames ∧ role t = role s)
        ∧ (late = false → firstDiff mine crcs ≠ none → ∃ t, exec (.shadowCompareRx n m crcs late) s = .next t ∧ t.twin.divFrames = inc48 w.divFrames 1
            ∧ bit t.twin.alarm 2 = true ∧ (role s ≠ 3 ∨ w.diverged < 2 → role t = role s) ∧ (role s = 3 → 2 ≤ w.diverged → role t = 4)))
    ∧ (role s = 0 → ∀ n m crcs late, exec (.shadowCompareRx n m crcs late) s = .next idle)
    ∧ (role s = 5 → w.resync = true → ∃ t, exec .twinResyncDone s = .next t ∧ role t = 3 ∧ t.twin.epoch = w.peerEpoch ∧ t.twin.standbyAt = some s.mere)
    ∧ (role s ≠ 5 ∨ w.resync = false → exec .twinResyncDone s = .next idle)
    ∧ (∀ (r : Req) (c : Nat), (follows s = false → exec (.configMirrorRx r c) s = .next idle)
        ∧ (∀ k, follows s = true → commandOf r.desc.opcode = some k →
            let u := (execCmd k r.mb (true, none) r.desc r.carried false true true { begun s with free := choicesOf c }).1
            exec (.configMirrorRx r c) s = .next (settled s { u with free := s.free, twin := { u.twin with chosen := max w.chosen (c + 1) } })))
    ∧ (∀ n, n < 512 → s.clk.started = true → s.ctl.paused = false → s.ctl.failover = false → s.ctl.mgmtDown = false → s.ctl.stage = 4 →
        ∃ t, exec (.mirrorWrite n) s = .next t ∧ (tgetD t.fns (n + 1) {}).seq = ((tgetD s.fns (n + 1) {}).seq + 2) % 2 ^ 32
          ∧ (tgetD t.fns (n + 1) {}).mirrorAt = some s.mere ∧ (tgetD t.fns (n + 1) {}).tmQuota = (range 1 7).map (useOf (tenant s n).quota)
          ∧ (tgetD t.fns (n + 1) {}).tmUse = (range 1 7).map (useOf (tenant s n).use))
    ∧ (∀ n, 512 ≤ n ∨ s.ctl.paused = true ∨ s.ctl.failover = true ∨ s.ctl.mgmtDown = true ∨ s.ctl.stage ≠ 4 → exec (.mirrorWrite n) s = .next idle)

/-- Causeway: links, enumeration from both ends, lost devices, forwarded commands and cascade audio frames. 17_cascade_and_chain.md R332 17_cascade_and_chain.md R333 17_cascade_and_chain.md R336 17_cascade_and_chain.md R337 17_cascade_and_chain.md R338 17_cascade_and_chain.md R340 17_cascade_and_chain.md R342. -/
def Obligations.CausewayAndWorkers : Prop :=
  ∀ s : State,
    let idle := settled s (begun s)
    let w := s.cway
    (∀ lane, lane < 4 → s.clk.started = true → s.dev.safe = false → bit s.clk.sds 2 = true → ∃ t, exec (.cwLinkUp lane) s = .next t ∧ t.cway = { w with
        link := setBit w.link lane true, twinLink := setBit w.twinLink lane (role s != 0 && lane == s.twin.hbLane) } ∧ (s.pwr.state < 3 → t.pwr = s.pwr))
    ∧ (∀ lane, 4 ≤ lane ∨ s.clk.started = false ∨ s.dev.safe = true ∨ bit s.clk.sds 2 = false → exec (.cwLinkUp lane) s = .next idle)
    ∧ (∀ lane, (4 ≤ lane ∨ bit w.link lane = false → ∀ lost mgr, exec (.cwLaneDown lane lost mgr) s = .next idle)
        ∧ (lane < 4 → bit w.link lane = true →
          (w.manager = false → w.numbered = true → ∀ lost mgr, ∃ t, exec (.cwLaneDown lane lost mgr) s = .next t ∧ bit t.cway.link lane = false
              ∧ t.cway.lostMgr = (w.lostMgr || mgr) ∧ t.cway.devs = w.devs)
          ∧ (w.manager = true → w.devs.Pairwise (fun p q => p.1 < q.1) → ∀ lost mgr, ∃ t, exec (.cwLaneDown lane lost mgr) s = .next t ∧ bit t.cway.link lane = false
              ∧ ∀ d, thas t.cway.devs d = (thas w.devs d && !lost.contains d))))
    ∧ (s.clk.started = true → ∀ lane, (lane < 4 → bit w.link lane = true → bit w.twinLink lane = false → w.manager = false → twinId s = 0 →
          ∃ t, exec (.enumRequest lane) s = .next t ∧ t.cway.numbered = true ∧ t.cway.upLane = lane ∧ (w.numbered = true → t.cway.devNum = w.devNum)
            ∧ (w.numbered = false → 1 ≤ t.cway.devNum ∧ t.cway.devNum ≤ 63) ∧ Out.lane lane 2 (le1 0 ++ le1 (bootSel s) ++ le1 s.ctl.stage) ∈ t.out)
        ∧ (4 ≤ lane ∨ bit w.link lane = false ∨ bit w.twinLink lane = true ∨ w.manager = true ∨ twinId s ≠ 0 → exec (.enumRequest lane) s = .next idle))
    ∧ (s.clk.started = true → ∀ i : EnumInfo,
      (w.manager = false ∨ i.twinId ≠ 0 ∨ 4 ≤ i.lane ∨ bit w.lanes i.lane = false → exec (.enumResponse i) s = .next idle)
      ∧ (w.manager = true → i.twinId = 0 → i.lane < 4 → bit w.lanes i.lane = true →
        (i.broken = true → exec (.enumResponse i) s = .next (settled s (evD (begun s) 0xC04 i.lane 0 0)))
        ∧ (i.broken = false → ∃ t, exec (.enumResponse i) s = .next t ∧ t.cway.found = w.found ++ [i]
            ∧ t.cway.devs = numbered w.topo w.devs ⟨i.ident, true, hopOrder w.topo i, true, i.hops, i.lane, i.path, i.bootSel, i.stage⟩)))
    ∧ (∀ (topo : Nat) (devs : Tbl CwDev) (d : CwDev), d.fresh = true →
      (∀ e, (devs.filter (fun e => !e.2.fresh)).find? (fun e => e.2.ident == d.ident) = some e → devs.Pairwise (fun p q => p.1 < q.1) →
        tget (numbered topo devs d) e.1 = some { d with fresh := false } ∧ ∀ m, m ≠ e.1 → tget (numbered topo devs d) m = tget devs m)
      ∧ ((devs.filter (fun e => !e.2.fresh)).find? (fun e => e.2.ident == d.ident) = none → (devs.filter (·.2.fresh)).Pairwise (fun p q => ¬ q.2.order < p.2.order) →
        ∀ p q, p ∈ numbered topo devs d → q ∈ numbered topo devs d → p.2.fresh = true → q.2.fresh = true → p.1 < q.1 → 1 ≤ p.1 ∧ q.1 ≤ 63 ∧ ¬ q.2.order < p.2.order))
    ∧ (w.found ≠ [] ∨ s.clk.started = false → exec .enumTimeout s = .next idle)
    ∧ (w.found = [] → s.clk.started = true → exec .enumTimeout s = .next (settled s ((pendingFor (begun s) (fun x => x == .enumerate)).foldl (fun s p => finish s p 0x0402 0) (begun s))))
    ∧ (s.clk.started = true → ∀ (d : Nat) (rsp : List Byte),
      (forwards s d = [] → (rsp.length ≠ 16 → exec (.fwdResponseRx d rsp) s = .next idle) ∧ exec (.fwdTimeout d) s = .next idle)
      ∧ (∀ p ps a, forwards s d = p :: ps → p.what = .forward d a →
          (∀ l b, rsp.length ≠ 16 → w.fwds.find? (·.dev == d) = some ⟨d, some l, b⟩ →
            exec (.fwdResponseRx d rsp) s = .next (settled s (vcSend (finish { begun s with host := mwrite s.host a (fit 32 rsp), cway := { w with
              fwds := dropFirst d w.fwds, owed := if fld rsp 2 2 = 1 then w.owed ++ [(d, l)] else w.owed } } p 0 0))))
          ∧ exec (.fwdTimeout d) s = .next (settled s (vcSend (finish { begun s with cway := { w with fwds := dropFirst d w.fwds } } p 0x0402 0))))
      ∧ (rsp.length = 16 → exec (.fwdResponseRx d rsp) s = .next (settled s (vcSend (raiseEv { begun s with cway := { w with owed := dropOwed d w.owed } }
          0 true ⟨1, fld rsp 4 2, fld rsp 6 2, fld rsp 8 4, fld rsp 12 2, d⟩)))))
    ∧ (∀ l, vc0Used w l ≤ 64 → vc1Held w l ≤ 64 → vc0Used (vcSend s).cway l ≤ 64 ∧ vc1Held (vcSend s).cway l ≤ 64)
    ∧ (s.clk.running = true → ∀ (lane dst : Nat) (sid b : List Byte),
      (4 ≤ lane ∨ bit w.link lane = false ∨ s.ctl.stage ≠ 4 → exec (.cascadeLegFrameRx lane dst sid b) s = .next idle)
      ∧ (lane < 4 → bit w.link lane = true → s.ctl.stage = 4 →
        (∀ n, dst ≠ w.devNum ∨ w.numbered = false → (cwLanes s).filter (· != lane) = [n] →
          exec (.cascadeLegFrameRx lane dst sid b) s = .next (settled s (emit (begun s) (.lane n 7 (le1 dst ++ b)))))
        ∧ (dst = w.devNum → w.numbered = true →
          match rxLegs s (fun c o => isAaf (cFormat c) && (isLane (legPort c o) && (legRoute s (legPort c o)).contains lane) && slice c (o + 24) 8 == sid) with
          | none => exec (.cascadeLegFrameRx lane dst sid b) s = .next idle
          | some (k, g) => exec (.cascadeLegFrameRx lane dst sid b) s
              = .next (settled s (rxPacket k g false true b (tb s (cTb ((tget s.streams k).getD default).cfg)).now (begun s))))))

/-- COUNTER_LOW_READ, REGISTER_WRITE, W1C_WRITE and CHAIN_ADDR: latches, widths, paths, reserved bits, key pins, W1C bits, the address. 20_register_file.md R374 20_register_file.md R375 20_register_file.md R376 20_register_file.md R380 20_register_file.md R382 20_register_file.md R387 17_cascade_and_chain.md R344 17_cascade_and_chain.md R345 20_register_file.md R379. -/
def Obligations.RegisterAccesses : Prop :=
  ((∀ (p : Path) (o : Nat) (s : State),
      let u := compareAt p (o / 8 * 8) (begun s)
      let key := latchOf p
      ∀ w : RegWord, s.clk.started = true → o < 2 ^ 32 → pathWord u p (o / 8 * 8) = some w → w.counter = true →
      (o % 8 = 0 → ∃ v, exec (.counterLowRead p o) s = .next (settled s v) ∧ v.out = u.out ++ [.read p o (w.val % 2 ^ 32)]
        ∧ tget (tgetD v.fns key.1 {}).latch key.2 = some (o, w.val / 2 ^ 32) ∧ ∀ g, g ≠ key.1 → tget v.fns g = tget u.fns g)
      ∧ (∀ h, o % 8 = 4 → tget (tgetD u.fns key.1 {}).latch key.2 = some (o / 8 * 8, h) → exec (.counterLowRead p o) s = .next (settled s (emit u (.read p o h))))
      ∧ (o % 8 = 4 → (∀ h, tget (tgetD u.fns key.1 {}).latch key.2 ≠ some (o / 8 * 8, h)) →
          exec (.counterLowRead p o) s = .next (settled s (emit u (.read p o (w.val / 2 ^ 32))))))
  ∧ (∀ (p : Path) (o : Nat) (s : State), s.clk.started = true → 4 < o % 8 →
      exec (.counterLowRead p o) s = .next (settled s (emit { begun s with dev := { s.dev with badAccess := inc48 s.dev.badAccess 1 } } (.read p o 0))))
  ∧ (∀ (o size : Nat) (v : BitVec 64) (s : State), s.clk.started = true → o < 2 ^ 32 →
      let bad := .next (settled s { begun s with dev := { s.dev with badAccess := inc48 s.dev.badAccess 1 } })
      (¬ ((size = 4 ∨ size = 8) ∧ o % size = 0) → exec (.registerWrite .pf o size v) s = bad)
      ∧ (size = 4 ∨ size = 8 → o % size = 0 → pathWord s .pf (o / 8 * 8) = none → exec (.registerWrite .pf o size v) s = bad)
      ∧ ((o < 0xFF0000 ∨ 0xFF1830 ≤ o) → exec (.registerWrite .causeway o size v) s = bad)
      ∧ ((o < 0xFF0000 ∨ 0xFF1830 ≤ o) → o / 8 ≠ 0x98000 / 8 →
          exec (.registerWrite .chain o size v) s = .next (settled s { begun s with chain := { s.chain with denied := inc48 s.chain.denied 1 } }))
      ∧ (∀ w, o % 8 = 0 → pathWord s .pf o = some w → (v.toNat ^^^ w.val) &&& w.rv &&& (2 ^ 64 - 1) ≠ 0 → exec (.registerWrite .pf o 8 v) s = .fault (.reservedTestControl o)))
  ∧ (∀ (v : BitVec 64) (s : State), s.clk.started = true → v.toNat < 2 ^ 32 →
      (keyPins s < 2 ^ 32 → ∃ t, exec (.registerWrite .pf 0x0F0008 4 v) s = .next t
        ∧ ∀ n, n < 32 → bit t.gpio.out n = if bit (keyPins s) n then bit s.gpio.out n else bit v.toNat n)
      ∧ (∃ t, exec (.w1cWrite .pf 0x0F0028 4 v) s = .next t ∧ ∀ n, n < 32 → bit t.gpio.edge n = (bit s.gpio.edge n && !bit v.toNat n))
      ∧ (v.toNat < 2 ^ 24 → bootStatus s < 2 ^ 24 → ∃ t, exec (.w1cWrite .pf 0x40 4 v) s = .next t ∧ t.ctl.failCode = if bits v.toNat 23 20 = 15 then 0 else s.ctl.failCode)))
  ∧ (∀ s : State,
    let c := s.chain
    let here := if c.assigned then c.addr else 0x4C
    (∀ (via : Nat) (v : BitVec 32),
      (256 ≤ v.toNat → exec (.chainAddrWrite via v) s = .fault (.reservedTestControl 0x098000))
      ∧ (s.clk.started = true → v.toNat < 256 →
        (via ≠ here → exec (.chainAddrWrite via v) s = .next (settled s (begun s)))
        ∧ (via = here → chainReserved (v.toNat % 128) = false → exec (.chainAddrWrite via v) s = .next (settled s { begun s with chain := { c with
            addr := v.toNat % 128, assigned := true, addrOut := true, addrIn := c.addrIn || !c.assigned } }))
        ∧ (via = here → chainReserved (v.toNat % 128) = true → exec (.chainAddrWrite via v) s = .next (settled s { begun s with chain := { c with
            addrErr := true, addrIn := c.addrIn || !c.assigned } }))))
    ∧ (s.clk.started = true → ∃ t, exec .chainPartialWrite s = .next t ∧ t.chain.partials = min 0xFFFF (c.partials + 1) ∧ t.chain.addr = c.addr)
    ∧ (s.clk.started = true → exec .chainBusTimeout s = .next (settled s { begun s with chain := { c with busTmo := true } })))

/-- Memory errors, margins and failed banks: what is counted, what is poisoned, and when a spare takes over. 18_memory_and_spares.md R351 18_memory_and_spares.md R353 18_memory_and_spares.md R356 18_memory_and_spares.md R357 18_memory_and_spares.md R359 18_memory_and_spares.md R360 18_memory_and_spares.md R361. -/
def Obligations.MemoryErrorsAndSpares : Prop :=
  ∀ s : State, s.clk.started = true → s.clk.running = true →
    let idle := settled s (begun s)
    let h := s.health
    (∀ (o : MemOwner) (loc : Nat) (raced : Bool),
      (∃ t, exec (.scrubRead o loc false raced) s = .next t ∧ t.health.poison = h.poison
        ∧ t.health.hbmCe = (if ownerHbm o then inc48 h.hbmCe 1 else h.hbmCe) ∧ t.health.sramCe = (if ownerHbm o then h.sramCe else inc48 h.sramCe 1)
        ∧ bit t.health.memErr (if ownerHbm o then 2 else 0) = true)
      ∧ (h.poison.contains (o, loc) = true → exec (.scrubRead o loc true raced) s = .next idle)
      ∧ (h.poison.contains (o, loc) = false → ∃ t, exec (.scrubRead o loc true raced) s = .next t ∧ t.health.poison = h.poison ++ [(o, loc)]
          ∧ t.health.hbmUe = (if ownerHbm o then inc48 h.hbmUe 1 else h.hbmUe) ∧ t.health.sramUe = (if ownerHbm o then h.sramUe else inc48 h.sramUe 1)
          ∧ bit t.health.memErr (if ownerHbm o then 3 else 1) = true))
    ∧ (∀ (q : Nat) (x : Queue) (c : QCtx) (loc : Nat), tget s.queues q = some x → x.ctx = some c → h.poison.contains (.queueCtx q, loc) = false →
        ∃ t y, exec (.scrubRead (.queueCtx q) loc true false) s = .next t ∧ tget t.queues q = some y ∧ y.ctx.map (·.state) = some 4)
    ∧ (∀ (d ps : Nat) (temps : List Int), ∃ t, exec (.telemetryTick [(d, ps)] temps) s = .next t ∧ t.health.temps = temps ∧ tgetD t.health.margins d 0 = ps
        ∧ (ps < h.marginMin → tgetD t.health.low d 0 = tgetD h.low d 0 + 1)
        ∧ (ps < h.marginMin → 9 ≤ tgetD h.low d 0 → d < 272 → d % 17 < 16 → tarnSpareLeft s (d / 17) = true → s.tarn.failed.contains d = false →
            h.wear.any (fun x => x / 17 == d / 17) = false → t.health.wear = h.wear ++ [d]))
    ∧ (∀ b, (eddyServes s b = false → exec (.residueCheckFail 2 b) s = .next idle) ∧ (poolServes s b = false → exec (.residueCheckFail 3 b) s = .next idle)
        ∧ (eddyServes s b = true → bankBusy s true = true → exec (.residueCheckFail 2 b) s = .next (settled s { begun s with health := { h with trigs := h.trigs ++ [(2, b)] } }))
        ∧ (poolServes s b = true → bankBusy s false = true → exec (.residueCheckFail 3 b) s = .next (settled s { begun s with health := { h with trigs := h.trigs ++ [(3, b)] } }))
        ∧ (eddyServes s b = true → bankBusy s true = false →
          (h.eddyRep = none → s.pwr.resUsed + 3 ≤ tripGet s .reserve → ∃ t, exec (.residueCheckFail 2 b) s = .next t
            ∧ t.health.eddyRep = some b ∧ eddyServes t b = false ∧ t.eddyBanks = s.eddyBanks ∧ (2, b) ∈ t.health.repair)
          ∧ (h.eddyRep = none → tripGet s .reserve < s.pwr.resUsed + 3 → ∃ t, exec (.residueCheckFail 2 b) s = .next t ∧ ⟨0, 3, .eddyFault b⟩ ∈ t.pwr.weirQ)
          ∧ (h.eddyRep ≠ none → ∃ t, exec (.residueCheckFail 2 b) s = .next t ∧ t.eddyBanks = s.eddyBanks - 1 ∧ eddyServes t b = false))
        ∧ (poolServes s b = true → bankBusy s false = false →
          (h.poolRep = none → s.pwr.resUsed + 2 ≤ tripGet s .reserve → ∃ t, exec (.residueCheckFail 3 b) s = .next t
            ∧ t.health.poolRep = some b ∧ poolServes t b = false ∧ t.poolBanks = s.poolBanks ∧ (3, b) ∈ t.health.repair)
          ∧ (h.poolRep = none → tripGet s .reserve < s.pwr.resUsed + 2 → ∃ t, exec (.residueCheckFail 3 b) s = .next t ∧ ⟨0, 2, .poolFault b⟩ ∈ t.pwr.weirQ)
          ∧ (h.poolRep ≠ none → ∃ t, exec (.residueCheckFail 3 b) s = .next t ∧ t.poolBanks = s.poolBanks - 1 ∧ poolServes t b = false)))
    ∧ (∀ (hbm : Bool) (row : Nat),
      ((h.rowWait.find? (fun w => w.1 == hbm)).map (·.2.1) ≠ some row → exec (.rowReplaceDone hbm row) s = .next idle)
      ∧ ((h.rowWait.find? (fun w => w.1 == hbm)).map (·.2.1) = some row → ∃ t, exec (.rowReplaceDone hbm row) s = .next t
          ∧ t.health.repair = h.repair ++ [(if hbm then 5 else 4, row)] ∧ t.health.rowWait.find? (fun w => w.1 == hbm && w.2.1 == row) = none ∧ bit t.health.memErr 6 = true))
    ∧ (∀ weak failed : List Nat, ∃ t, exec (.lakebedWearPass weak failed) s = .next t ∧ t.health.lkbCe = weak.foldl (fun n _ => inc48 n 1) h.lkbCe ∧ t.health.store = h.store
        ∧ (weak ≠ [] → bit t.health.memErr 4 = true) ∧ (failed ≠ [] → bit t.health.memErr 5 = true))
    ∧ (∀ l, let u := (retireBlock l s).health
        (h.lkbSpares ≠ 0 → u.lkbSpares = h.lkbSpares - 1 ∧ physBlock u l = 16384 - h.lkbSpares ∧ ∀ m, m ≠ l → physBlock u m = physBlock h m)
        ∧ (h.lkbSpares = 0 → u.exhausted = h.exhausted ++ [regionOf l] ∧ ∀ m, physBlock u m = physBlock h m))

/-- Weir admits a prefix of its queue within BUDGET, and a power state is entered only within the tolerance in force and left by a wake. 19_power_and_start_up.md R363 19_power_and_start_up.md R364 19_power_and_start_up.md R367 19_power_and_start_up.md R368 19_power_and_start_up.md R369. -/
def Obligations.PowerStatesAndCredits : Prop :=
  (∀ (b r used : Nat) (q : List WeirReq), used ≤ b →
      let x := weirAdmit b r used q
      used ≤ x.2.1 ∧ x.2.1 ≤ b ∧ q.map (·.what) = x.2.2 ++ x.1.map (·.what) ∧ (q.all (fun e => e.cls != 0) = true → x.2.1 ≤ max used (b - r))
        ∧ (∀ h, x.1.head? = some h → (if h.cls = 0 then b else b - r) < x.2.1 + h.credits))
  ∧ ∀ s : State,
    let idle := settled s (begun s)
    let p := s.pwr
    (s.clk.running = true → ∃ t, exec .weirWindow s = .next t ∧ (tripGet s .reserve ≤ tripGet s .budget → t.pwr.credits ≤ tripGet t .budget) ∧ t.pwr.commit = false
        ∧ (p.commit = true → weirPairOk (tripGet s .budgetSt) (tripGet s .reserveSt) = true → tripGet t .budget = tripGet s .budgetSt ∧ tripGet t .reserve = tripGet s .reserveSt)
        ∧ (p.commit = true → weirPairOk (tripGet s .budgetSt) (tripGet s .reserveSt) = false → t.pwr.commitErr = true ∧ tripGet t .budget = tripGet s .budget)
        ∧ (p.commit = false → tripGet t .budget = tripGet s .budget ∧ t.pwr.commitErr = p.commitErr))
    ∧ (∀ v : BitVec 64,
      let stray := v.toNat / 2 ^ 6 % 4 ≠ 0 ∨ v.toNat / 2 ^ 14 % 4 ≠ 0 ∨ v.toNat / 2 ^ 18 ≠ 0
      (stray → exec (.weirCommitWrite v) s = .fault (.reservedTestControl 0x070008))
      ∧ (¬ stray → s.clk.started = true → ∃ t, exec (.weirCommitWrite v) s = .next t ∧ tripGet t .budgetSt = v.toNat % 64 ∧ tripGet t .reserveSt = v.toNat / 2 ^ 8 % 64
          ∧ t.pwr.commit = (p.commit || v.getLsbD 16) ∧ tripGet t .budget = tripGet s .budget ∧ tripGet t .reserve = tripGet s .reserve))
    ∧ (s.ctl.stage ≠ 4 ∨ p.waking = true ∨ p.entering ≠ none → exec .powerStateEntry s = .next idle)
    ∧ (s.clk.started = true → s.ctl.stage = 4 → p.waking = false → p.entering = none → ∃ t, exec .powerStateEntry s = .next t ∧ t.pwr.state = p.state
        ∧ ∀ n, t.pwr.entering = some n → p.state < n ∧ n ≤ 4 ∧ latency n ≤ (tolInForce s).1)
    ∧ (p.entering = none → exec .powerStateEntryDone s = .next idle)
    ∧ (∀ n, s.clk.started = true → p.entering = some n → ∃ t, exec .powerStateEntryDone s = .next t ∧ t.pwr.state = n ∧ t.pwr.entering = none)
    ∧ (∀ k, ((p.state = 0 ∧ p.entering = none) ∨ p.waking = true → exec (.wakeEvent k) s = .next idle)
        ∧ (p.state ≠ 0 ∨ p.entering ≠ none → p.waking = false → ∃ t, exec (.wakeEvent k) s = .next t ∧ t.pwr.waking = true ∧ t.pwr.entering = none
            ∧ (3 ≤ p.state → t.pwr.weirQ.any (fun r => r.what == .hbmExit) = true)))
    ∧ (p.waking = false ∨ p.weirQ.any (fun r => r.cls == 1) = true → exec .wakeDone s = .next idle)
    ∧ (s.clk.started = true → p.waking = true → p.weirQ.any (fun r => r.cls == 1) = false → ∃ t, exec .wakeDone s = .next t ∧ t.pwr.state = 0 ∧ t.pwr.waking = false
        ∧ (p.state = 4 → t.refs.hist = [] ∧ ∀ k b, tget t.tbs k = some b → b.valid = false))

/-- DEV_RST_KEY_WRITE and ARMED_LAPSE: 0xD1 arms, 0x5E while armed resets as RESET_N does, anything else disarms, PF0 alone may write. R386. -/
def Obligations.ResetKeySequence : Prop :=
  ∀ (key : BitVec 8) (s : State), s.clk.started = true →
    (∀ path ∈ [Path.pf, Path.wellhead],
      (key = 0xD1 → exec (.devRstKeyWrite path key) s = .next (settled s (tripSet (begun s) .armed 1)))
      ∧ (key = 0x5E → tripGet s .armed = 1 → s.dev.held = false → s.dev.thermal = false →
          let u := resetRelease s.dev.straps (holdReset 1 (begun s))
          exec (.devRstKeyWrite path key) s = .next (settled s { u with dev := { u.dev with rstCause := 2 ^ 2 } }))
      ∧ (key ≠ 0xD1 → (key ≠ 0x5E ∨ tripGet s .armed ≠ 1) → exec (.devRstKeyWrite path key) s = .next (settled s (tripSet (begun s) .armed 0))))
    ∧ exec .armedLapse s = .next (settled s (tripSet (begun s) .armed 0))
    ∧ (∀ n, exec (.devRstKeyWrite (.vf n) key) s = .next (settled s { begun s with dev := { s.dev with badAccess := inc48 s.dev.badAccess 1 } }))
    ∧ exec (.devRstKeyWrite .causeway key) s = .next (settled s { begun s with dev := { s.dev with badAccess := inc48 s.dev.badAccess 1 } })
    ∧ exec (.devRstKeyWrite .chain key) s = .next (settled s { begun s with chain := { s.chain with denied := inc48 s.chain.denied 1 } })

/-- VOTE_SWEEP leaves the three copies of every triplicated field equal; TWIN_FENCE_WRITE sets the fence. 20_register_file.md R376 20_register_file.md R377 16_twin_operation.md R320. -/
def Obligations.VoteSweepAndFence : Prop :=
  (∀ s : State, s.clk.started = true → ∃ t, exec .voteSweep s = .next t ∧ (∀ f, let tr := tripCopies t.votes f; tr.a = tr.b ∧ tr.b = tr.c)
      ∧ tgetD t.grid 3 0 = tgetD s.grid 3 0 + 1 ∧ (s.clk.running = true → (tgetD s.grid 3 0 + 1) * 1200 ≤ t.mere))
  ∧ (∀ (f : TripField) (tr : Trip) (s : State), tripCopies s.votes f = tr →
      (tr.a = tr.b → tr.b = tr.c → voteOne s (f, tr) = s)
      ∧ (∀ x, (tr.a = x ∧ tr.b = x) ∨ (tr.a = x ∧ tr.c = x) ∨ (tr.b = x ∧ tr.c = x) → ¬ (tr.a = tr.b ∧ tr.b = tr.c) →
          voteOne s (f, tr) = evD { tripSet s f x with dev := { s.dev with voteFixCnt := inc48 s.dev.voteFixCnt 1 } } 0x102 (tripOffset f) 0 0)
      ∧ (tr.a ≠ tr.b → tr.a ≠ tr.c → tr.b ≠ tr.c →
          (∀ g ∈ [TripField.foscSel, .coreSrc], f = g → tripGet (voteOne s (f, tr)) f = tr.a) ∧ (f = .refSel → tripGet (voteOne s (f, tr)) f = 0x7F ∧ ((voteOne s (f, tr)).refs.state = 4 ∨ (voteOne s (f, tr)).refs.state = 0))
          ∧ (f = .role → tripGet (voteOne s (f, tr)) f = 5) ∧ (f = .own → tripGet (voteOne s (f, tr)) f = 0) ∧ (f = .fence → tripGet (voteOne s (f, tr)) f = 1)
          ∧ (f = .budget ∨ f = .budgetSt → tripGet (voteOne s (f, tr)) f = 12) ∧ (f = .reserve ∨ f = .reserveSt → tripGet (voteOne s (f, tr)) f = 3)
          ∧ (f = .armed ∨ f = .mclkOe ∨ f = .gpioOe ∨ (∃ n, f = .bind n ∨ f = .netTxEn n ∨ f = .fldTxEn n ∨ f = .lpTxEn n) → tripGet (voteOne s (f, tr)) f = 0)
          ∧ (voteOne s (f, tr)).dev.voteFail = true ∧ (voteOne s (f, tr)).dev.voteFailCnt = inc48 s.dev.voteFailCnt 1))
  ∧ (∀ (b : BitVec 32) (s : State), s.clk.started = true → b.toNat < 2 →
      (∃ u, exec (.twinFenceWrite .pf b) s = .next (settled s u) ∧ tripGet u .fence = b.toNat ∧ tripGet u .role = tripGet s .role ∧ u.twin = s.twin
        ∧ (b = 0 → u.out = []))
      ∧ (∀ n, exec (.twinFenceWrite (.vf n) b) s = .next (settled s { begun s with dev := { s.dev with badAccess := inc48 s.dev.badAccess 1 } })))

/-- The resets: what each clears, what it keeps, its bit of DEV_RST_CAUSE, and how reset is released. 19_power_and_start_up.md R370 20_register_file.md R384 13_time_and_calendar.md R282 02_control_and_boot.md R38 03_tenants_and_queues.md R67 23_pins_and_electrical.md R410 23_pins_and_electrical.md R411 23_pins_and_electrical.md R413 23_pins_and_electrical.md R419. -/
def Obligations.ResetsKeepWhatTheyKeep : Prop :=
  ∀ s : State,
    (∀ i ∈ [(Instr.powerOnReset, 0), (.resetNLow, 1), (.thermalTrip 0, 0), (.supplyDrop 0, 0), (.supplyDrop 5, 0)], ∃ t, exec i.1 s = .next t ∧ t.dev.held = true ∧ t.dev.rstCause = 2 ^ i.2
      ∧ t.tenants = [] ∧ t.streams = [] ∧ t.queues = State.reset.queues ∧ t.mbx = [] ∧ t.votes = State.reset.votes ∧ t.tarn.cores = [] ∧ t.ctl.stage = 0
      ∧ t.cal = s.cal ∧ t.health.store = s.health.store ∧ t.ctl.slots = s.ctl.slots ∧ t.ctl.preferred = s.ctl.preferred ∧ t.ctl.rollback = s.ctl.rollback)
    ∧ (∀ n, ∃ t, exec (.thermalTrip n) s = .next t ∧ t.dev.thermal = true ∧ t.dev.tripped = true)
    ∧ (∀ n, 6 ≤ n → exec (.supplyDrop n) s = .next (settled s (begun s)))
    ∧ exec .thermalClear s = .next (settled s { begun s with dev := { s.dev with thermal := false } })
    ∧ (∀ v : BitVec 9, (s.dev.held = false ∨ s.dev.thermal = true → exec (.resetRelease v) s = .next (settled s (begun s)))
      ∧ (s.dev.held = true → s.dev.thermal = false → ∃ t, exec (.resetRelease v) s = .next t ∧ t.dev.straps = v.toNat ∧ t.dev.held = false ∧ t.clk.auto = bit v.toNat 2
        ∧ (bits v.toNat 4 3 = 0 → t.votes = s.votes) ∧ (bits v.toNat 4 3 = 1 ∨ bits v.toNat 4 3 = 2 → tripGet t .role = 1)
        ∧ (bits v.toNat 4 3 = 3 → t.dev.bootHalt = true ∧ t.dev.faultN = false)))
    ∧ exec .backupPowerLoss s = .next (settled s { begun s with cal := {}, dev := { s.dev with rstCause := setBit s.dev.rstCause 0 true } })
    ∧ (∀ i ∈ [(Instr.perst, 3), (.pfFlr, 4)], (i.2 = 3 → bit s.dev.straps 7 = false) → (i.2 = 4 → s.clk.started = true) → ∃ u, exec i.1 s = .next (settled s u) ∧ u.fns = [] ∧ u.ctl.hostUp = false
      ∧ u.dev.rstCause = setBit s.dev.rstCause i.2 true ∧ u.streams = s.streams ∧ u.netPorts = s.netPorts ∧ u.lps = s.lps ∧ u.votes = s.votes ∧ u.cal = s.cal)
    ∧ (bit s.dev.straps 7 = true → ∃ t, exec .perst s = .next t ∧ t.dev.rstCause = 2 ^ 3 ∧ t.tenants = [] ∧ t.streams = [] ∧ t.cal = s.cal ∧ t.dev.straps = s.dev.straps)
    ∧ (∀ n, s.clk.started = true → 1 ≤ n → n ≤ 512 → ∃ u, exec (.vfFlr n) s = .next (settled s u) ∧ (∀ j, j ≠ n → tget u.mbx j = tget s.mbx j)
      ∧ (mbox u n).pi = 0 ∧ (mbox u n).cmdCi = 0 ∧ (mbox u n).rspPi = 0 ∧ (mbox u n).rspCi = 0 ∧ u.streams = s.streams ∧ u.votes = s.votes
      ∧ (∀ k, (∀ e ∈ s.queues, e.1 = k → e.2.tenant ≠ n - 1 ∨ e.2.typ ≤ 4) → tget u.queues k = tget s.queues k))
    ∧ (s.dev.resetDue = false → exec .resetAfterResponse s = .next (settled s (begun s)))
    ∧ (s.clk.started = true → s.dev.resetDue = true → ∃ t, exec .resetAfterResponse s = .next t ∧ t.dev.rstCause = 2 ^ 2 ∧ t.tenants = [] ∧ t.cal = s.cal ∧ t.health.store = s.health.store)

/-- SECURE_BOOT and READINESS: which image starts, what a failed check leaves, and the one instant of readiness. 02_control_and_boot.md R41 02_control_and_boot.md R42 02_control_and_boot.md R43 19_power_and_start_up.md R370 19_power_and_start_up.md R372. -/
def Obligations.BootAndReadiness : Prop :=
  ∀ (img : List Byte) (s : State),
    (s.clk.started = true → s.dev.held = false → s.dev.bootHalt = false → s.ctl.stage = 0 →
      (∀ k, bootSel s % 3 = 0 → (s.ctl.preferred = k ∨ (slotCheck s s.ctl.preferred ≠ 0 ∧ 1 - s.ctl.preferred = k)) → slotCheck s k = 0 →
        ∃ t, exec (.secureBoot img) s = .next t ∧ t.ctl.stage = 3 ∧ t.ctl.slot = k ∧ t.ctl.svn = (tgetD s.ctl.slots k {}).svn ∧ t.ctl.trial = false ∧ t.tenants = s.tenants)
      ∧ (slotCheck s s.ctl.preferred ≠ 0 → slotCheck s (1 - s.ctl.preferred) ≠ 0 →
        (bootSel s = 0 → ∃ t, exec (.secureBoot img) s = .next t ∧ t.ctl.stage = 15 ∧ t.dev.bootHalt = true ∧ t.dev.faultN = false
          ∧ t.ctl.failCode = slotCheck s (1 - s.ctl.preferred))
        ∧ (bootSel s = 3 → ∃ t, exec (.secureBoot img) s = .next t ∧ t.ctl.stage = 1 ∧ t.dev.bootHalt = false))
      ∧ (bootSel s = 1 → ∃ t, exec (.secureBoot img) s = .next t ∧ t.ctl.stage = 1 ∧ mbReady t 1 = false)
      ∧ (bootSel s = 2 → img ≠ [] → ∃ t, exec (.secureBoot img) s = .next t ∧
          (imageCheck s img = 0 → t.ctl.stage = 3 ∧ t.ctl.source = 2 ∧ t.ctl.svn = (Config.imgSvn img).toNat)
          ∧ (imageCheck s img ≠ 0 → t.ctl.stage = 1 ∧ t.ctl.failCode = imageCheck s img)))
    ∧ (s.clk.started = false ∨ s.dev.held = true ∨ s.dev.bootHalt = true → exec (.secureBoot img) s = .next (settled s (begun s)))
    ∧ (s.clk.started = true → s.ctl.stage = 3 → s.dev.safe = false → s.health.config = [] → ∃ t, exec (.readiness true) s = .next t ∧ t.ctl.stage = 4 ∧ t.ctl.hostUp = true ∧ .pcieReady ∈ t.out
        ∧ t.twin.leaseAt = some s.mere ∧ t.clk.report = [] ∧ t.tenants = s.tenants ∧ t.votes = s.votes)
    ∧ (s.clk.started = true → s.ctl.stage = 4 → exec (.readiness true) s = .next (settled s { begun s with ctl := { s.ctl with hostUp := true } })
        ∧ exec (.readiness false) s = .next (settled s (begun s)))
    ∧ (s.clk.started = true → s.ctl.stage ≠ 4 → ∃ t, exec (.readiness false) s = .next t ∧ t.dev.bootHalt = true ∧ t.ctl.stage = 15 ∧ t.dev.faultN = false)
    ∧ (s.ctl.stage ≠ 4 → (s.ctl.stage ≠ 3 ∨ s.dev.safe = true) → exec (.readiness true) s = .next (settled s (begun s)))
end

