-- ==== Sys2Proof/Laws/State.lean ====
section
/-! SUPPORT. One lemma per field per named update of the state, true by unfolding, so that no proof unfolds a record update. -/
namespace Sys2Proof.Machine

/-! ### `emit` -/

@[simp] theorem emit_pending (s : State) (o : Out) : (emit s o).pending = s.pending := rfl
@[simp] theorem emit_free (s : State) (o : Out) : (emit s o).free = s.free := rfl
@[simp] theorem emit_mere (s : State) (o : Out) : (emit s o).mere = s.mere := rfl
@[simp] theorem emit_grid (s : State) (o : Out) : (emit s o).grid = s.grid := rfl
@[simp] theorem emit_evs (s : State) (o : Out) : (emit s o).evs = s.evs := rfl
@[simp] theorem emit_host (s : State) (o : Out) : (emit s o).host = s.host := rfl
@[simp] theorem emit_mbx (s : State) (o : Out) : (emit s o).mbx = s.mbx := rfl
@[simp] theorem emit_ctl (s : State) (o : Out) : (emit s o).ctl = s.ctl := rfl
@[simp] theorem emit_fns (s : State) (o : Out) : (emit s o).fns = s.fns := rfl
@[simp] theorem emit_queues (s : State) (o : Out) : (emit s o).queues = s.queues := rfl
@[simp] theorem emit_tenants (s : State) (o : Out) : (emit s o).tenants = s.tenants := rfl
@[simp] theorem emit_streams (s : State) (o : Out) : (emit s o).streams = s.streams := rfl
@[simp] theorem emit_tbs (s : State) (o : Out) : (emit s o).tbs = s.tbs := rfl
@[simp] theorem emit_tsPorts (s : State) (o : Out) : (emit s o).tsPorts = s.tsPorts := rfl
@[simp] theorem emit_cal (s : State) (o : Out) : (emit s o).cal = s.cal := rfl
@[simp] theorem emit_clk (s : State) (o : Out) : (emit s o).clk = s.clk := rfl
@[simp] theorem emit_cway (s : State) (o : Out) : (emit s o).cway = s.cway := rfl
@[simp] theorem emit_chain (s : State) (o : Out) : (emit s o).chain = s.chain := rfl
@[simp] theorem emit_health (s : State) (o : Out) : (emit s o).health = s.health := rfl
@[simp] theorem emit_tarn (s : State) (o : Out) : (emit s o).tarn = s.tarn := rfl
@[simp] theorem emit_sched (s : State) (o : Out) : (emit s o).sched = s.sched := rfl
@[simp] theorem emit_tasks (s : State) (o : Out) : (emit s o).tasks = s.tasks := rfl
@[simp] theorem emit_netGroups (s : State) (o : Out) : (emit s o).netGroups = s.netGroups := rfl
@[simp] theorem emit_netPorts (s : State) (o : Out) : (emit s o).netPorts = s.netPorts := rfl
@[simp] theorem emit_inlet (s : State) (o : Out) : (emit s o).inlet = s.inlet := rfl
@[simp] theorem emit_filters (s : State) (o : Out) : (emit s o).filters = s.filters := rfl
@[simp] theorem emit_fld (s : State) (o : Out) : (emit s o).fld = s.fld := rfl
@[simp] theorem emit_keys (s : State) (o : Out) : (emit s o).keys = s.keys := rfl
@[simp] theorem emit_gpioKeys (s : State) (o : Out) : (emit s o).gpioKeys = s.gpioKeys := rfl
@[simp] theorem emit_lps (s : State) (o : Out) : (emit s o).lps = s.lps := rfl
@[simp] theorem emit_refs (s : State) (o : Out) : (emit s o).refs = s.refs := rfl
@[simp] theorem emit_syns (s : State) (o : Out) : (emit s o).syns = s.syns := rfl
@[simp] theorem emit_twin (s : State) (o : Out) : (emit s o).twin = s.twin := rfl
@[simp] theorem emit_gpio (s : State) (o : Out) : (emit s o).gpio = s.gpio := rfl
@[simp] theorem emit_i2c (s : State) (o : Out) : (emit s o).i2c = s.i2c := rfl
@[simp] theorem emit_eddyBanks (s : State) (o : Out) : (emit s o).eddyBanks = s.eddyBanks := rfl
@[simp] theorem emit_poolBanks (s : State) (o : Out) : (emit s o).poolBanks = s.poolBanks := rfl
@[simp] theorem emit_dev (s : State) (o : Out) : (emit s o).dev = s.dev := rfl
@[simp] theorem emit_pwr (s : State) (o : Out) : (emit s o).pwr = s.pwr := rfl
@[simp] theorem emit_votes (s : State) (o : Out) : (emit s o).votes = s.votes := rfl

@[simp] theorem emit_out (s : State) (o : Out) : (emit s o).out = s.out ++ [o] := rfl

/-! ### `raiseEv` -/

@[simp] theorem raiseEv_pending (s : State) (f : Nat) (c : Bool) (e : Ev) : (raiseEv s f c e).pending = s.pending := rfl
@[simp] theorem raiseEv_free (s : State) (f : Nat) (c : Bool) (e : Ev) : (raiseEv s f c e).free = s.free := rfl
@[simp] theorem raiseEv_mere (s : State) (f : Nat) (c : Bool) (e : Ev) : (raiseEv s f c e).mere = s.mere := rfl
@[simp] theorem raiseEv_grid (s : State) (f : Nat) (c : Bool) (e : Ev) : (raiseEv s f c e).grid = s.grid := rfl
@[simp] theorem raiseEv_out (s : State) (f : Nat) (c : Bool) (e : Ev) : (raiseEv s f c e).out = s.out := rfl
@[simp] theorem raiseEv_host (s : State) (f : Nat) (c : Bool) (e : Ev) : (raiseEv s f c e).host = s.host := rfl
@[simp] theorem raiseEv_mbx (s : State) (f : Nat) (c : Bool) (e : Ev) : (raiseEv s f c e).mbx = s.mbx := rfl
@[simp] theorem raiseEv_ctl (s : State) (f : Nat) (c : Bool) (e : Ev) : (raiseEv s f c e).ctl = s.ctl := rfl
@[simp] theorem raiseEv_fns (s : State) (f : Nat) (c : Bool) (e : Ev) : (raiseEv s f c e).fns = s.fns := rfl
@[simp] theorem raiseEv_queues (s : State) (f : Nat) (c : Bool) (e : Ev) : (raiseEv s f c e).queues = s.queues := rfl
@[simp] theorem raiseEv_tenants (s : State) (f : Nat) (c : Bool) (e : Ev) : (raiseEv s f c e).tenants = s.tenants := rfl
@[simp] theorem raiseEv_streams (s : State) (f : Nat) (c : Bool) (e : Ev) : (raiseEv s f c e).streams = s.streams := rfl
@[simp] theorem raiseEv_tbs (s : State) (f : Nat) (c : Bool) (e : Ev) : (raiseEv s f c e).tbs = s.tbs := rfl
@[simp] theorem raiseEv_tsPorts (s : State) (f : Nat) (c : Bool) (e : Ev) : (raiseEv s f c e).tsPorts = s.tsPorts := rfl
@[simp] theorem raiseEv_cal (s : State) (f : Nat) (c : Bool) (e : Ev) : (raiseEv s f c e).cal = s.cal := rfl
@[simp] theorem raiseEv_clk (s : State) (f : Nat) (c : Bool) (e : Ev) : (raiseEv s f c e).clk = s.clk := rfl
@[simp] theorem raiseEv_cway (s : State) (f : Nat) (c : Bool) (e : Ev) : (raiseEv s f c e).cway = s.cway := rfl
@[simp] theorem raiseEv_chain (s : State) (f : Nat) (c : Bool) (e : Ev) : (raiseEv s f c e).chain = s.chain := rfl
@[simp] theorem raiseEv_health (s : State) (f : Nat) (c : Bool) (e : Ev) : (raiseEv s f c e).health = s.health := rfl
@[simp] theorem raiseEv_tarn (s : State) (f : Nat) (c : Bool) (e : Ev) : (raiseEv s f c e).tarn = s.tarn := rfl
@[simp] theorem raiseEv_sched (s : State) (f : Nat) (c : Bool) (e : Ev) : (raiseEv s f c e).sched = s.sched := rfl
@[simp] theorem raiseEv_tasks (s : State) (f : Nat) (c : Bool) (e : Ev) : (raiseEv s f c e).tasks = s.tasks := rfl
@[simp] theorem raiseEv_netGroups (s : State) (f : Nat) (c : Bool) (e : Ev) : (raiseEv s f c e).netGroups = s.netGroups := rfl
@[simp] theorem raiseEv_netPorts (s : State) (f : Nat) (c : Bool) (e : Ev) : (raiseEv s f c e).netPorts = s.netPorts := rfl
@[simp] theorem raiseEv_inlet (s : State) (f : Nat) (c : Bool) (e : Ev) : (raiseEv s f c e).inlet = s.inlet := rfl
@[simp] theorem raiseEv_filters (s : State) (f : Nat) (c : Bool) (e : Ev) : (raiseEv s f c e).filters = s.filters := rfl
@[simp] theorem raiseEv_fld (s : State) (f : Nat) (c : Bool) (e : Ev) : (raiseEv s f c e).fld = s.fld := rfl
@[simp] theorem raiseEv_keys (s : State) (f : Nat) (c : Bool) (e : Ev) : (raiseEv s f c e).keys = s.keys := rfl
@[simp] theorem raiseEv_gpioKeys (s : State) (f : Nat) (c : Bool) (e : Ev) : (raiseEv s f c e).gpioKeys = s.gpioKeys := rfl
@[simp] theorem raiseEv_lps (s : State) (f : Nat) (c : Bool) (e : Ev) : (raiseEv s f c e).lps = s.lps := rfl
@[simp] theorem raiseEv_refs (s : State) (f : Nat) (c : Bool) (e : Ev) : (raiseEv s f c e).refs = s.refs := rfl
@[simp] theorem raiseEv_syns (s : State) (f : Nat) (c : Bool) (e : Ev) : (raiseEv s f c e).syns = s.syns := rfl
@[simp] theorem raiseEv_twin (s : State) (f : Nat) (c : Bool) (e : Ev) : (raiseEv s f c e).twin = s.twin := rfl
@[simp] theorem raiseEv_gpio (s : State) (f : Nat) (c : Bool) (e : Ev) : (raiseEv s f c e).gpio = s.gpio := rfl
@[simp] theorem raiseEv_i2c (s : State) (f : Nat) (c : Bool) (e : Ev) : (raiseEv s f c e).i2c = s.i2c := rfl
@[simp] theorem raiseEv_eddyBanks (s : State) (f : Nat) (c : Bool) (e : Ev) : (raiseEv s f c e).eddyBanks = s.eddyBanks := rfl
@[simp] theorem raiseEv_poolBanks (s : State) (f : Nat) (c : Bool) (e : Ev) : (raiseEv s f c e).poolBanks = s.poolBanks := rfl
@[simp] theorem raiseEv_dev (s : State) (f : Nat) (c : Bool) (e : Ev) : (raiseEv s f c e).dev = s.dev := rfl
@[simp] theorem raiseEv_pwr (s : State) (f : Nat) (c : Bool) (e : Ev) : (raiseEv s f c e).pwr = s.pwr := rfl
@[simp] theorem raiseEv_votes (s : State) (f : Nat) (c : Bool) (e : Ev) : (raiseEv s f c e).votes = s.votes := rfl

@[simp] theorem raiseEv_evs (s : State) (f : Nat) (c : Bool) (e : Ev) : (raiseEv s f c e).evs = s.evs ++ [⟨f, c, e⟩] := rfl

/-! ### `modFn` -/

@[simp] theorem modFn_pending (s : State) (f : Nat) (g : Fn → Fn) : (modFn s f g).pending = s.pending := rfl
@[simp] theorem modFn_free (s : State) (f : Nat) (g : Fn → Fn) : (modFn s f g).free = s.free := rfl
@[simp] theorem modFn_mere (s : State) (f : Nat) (g : Fn → Fn) : (modFn s f g).mere = s.mere := rfl
@[simp] theorem modFn_grid (s : State) (f : Nat) (g : Fn → Fn) : (modFn s f g).grid = s.grid := rfl
@[simp] theorem modFn_out (s : State) (f : Nat) (g : Fn → Fn) : (modFn s f g).out = s.out := rfl
@[simp] theorem modFn_evs (s : State) (f : Nat) (g : Fn → Fn) : (modFn s f g).evs = s.evs := rfl
@[simp] theorem modFn_host (s : State) (f : Nat) (g : Fn → Fn) : (modFn s f g).host = s.host := rfl
@[simp] theorem modFn_mbx (s : State) (f : Nat) (g : Fn → Fn) : (modFn s f g).mbx = s.mbx := rfl
@[simp] theorem modFn_ctl (s : State) (f : Nat) (g : Fn → Fn) : (modFn s f g).ctl = s.ctl := rfl
@[simp] theorem modFn_queues (s : State) (f : Nat) (g : Fn → Fn) : (modFn s f g).queues = s.queues := rfl
@[simp] theorem modFn_tenants (s : State) (f : Nat) (g : Fn → Fn) : (modFn s f g).tenants = s.tenants := rfl
@[simp] theorem modFn_streams (s : State) (f : Nat) (g : Fn → Fn) : (modFn s f g).streams = s.streams := rfl
@[simp] theorem modFn_tbs (s : State) (f : Nat) (g : Fn → Fn) : (modFn s f g).tbs = s.tbs := rfl
@[simp] theorem modFn_tsPorts (s : State) (f : Nat) (g : Fn → Fn) : (modFn s f g).tsPorts = s.tsPorts := rfl
@[simp] theorem modFn_cal (s : State) (f : Nat) (g : Fn → Fn) : (modFn s f g).cal = s.cal := rfl
@[simp] theorem modFn_clk (s : State) (f : Nat) (g : Fn → Fn) : (modFn s f g).clk = s.clk := rfl
@[simp] theorem modFn_cway (s : State) (f : Nat) (g : Fn → Fn) : (modFn s f g).cway = s.cway := rfl
@[simp] theorem modFn_chain (s : State) (f : Nat) (g : Fn → Fn) : (modFn s f g).chain = s.chain := rfl
@[simp] theorem modFn_health (s : State) (f : Nat) (g : Fn → Fn) : (modFn s f g).health = s.health := rfl
@[simp] theorem modFn_tarn (s : State) (f : Nat) (g : Fn → Fn) : (modFn s f g).tarn = s.tarn := rfl
@[simp] theorem modFn_sched (s : State) (f : Nat) (g : Fn → Fn) : (modFn s f g).sched = s.sched := rfl
@[simp] theorem modFn_tasks (s : State) (f : Nat) (g : Fn → Fn) : (modFn s f g).tasks = s.tasks := rfl
@[simp] theorem modFn_netGroups (s : State) (f : Nat) (g : Fn → Fn) : (modFn s f g).netGroups = s.netGroups := rfl
@[simp] theorem modFn_netPorts (s : State) (f : Nat) (g : Fn → Fn) : (modFn s f g).netPorts = s.netPorts := rfl
@[simp] theorem modFn_inlet (s : State) (f : Nat) (g : Fn → Fn) : (modFn s f g).inlet = s.inlet := rfl
@[simp] theorem modFn_filters (s : State) (f : Nat) (g : Fn → Fn) : (modFn s f g).filters = s.filters := rfl
@[simp] theorem modFn_fld (s : State) (f : Nat) (g : Fn → Fn) : (modFn s f g).fld = s.fld := rfl
@[simp] theorem modFn_keys (s : State) (f : Nat) (g : Fn → Fn) : (modFn s f g).keys = s.keys := rfl
@[simp] theorem modFn_gpioKeys (s : State) (f : Nat) (g : Fn → Fn) : (modFn s f g).gpioKeys = s.gpioKeys := rfl
@[simp] theorem modFn_lps (s : State) (f : Nat) (g : Fn → Fn) : (modFn s f g).lps = s.lps := rfl
@[simp] theorem modFn_refs (s : State) (f : Nat) (g : Fn → Fn) : (modFn s f g).refs = s.refs := rfl
@[simp] theorem modFn_syns (s : State) (f : Nat) (g : Fn → Fn) : (modFn s f g).syns = s.syns := rfl
@[simp] theorem modFn_twin (s : State) (f : Nat) (g : Fn → Fn) : (modFn s f g).twin = s.twin := rfl
@[simp] theorem modFn_gpio (s : State) (f : Nat) (g : Fn → Fn) : (modFn s f g).gpio = s.gpio := rfl
@[simp] theorem modFn_i2c (s : State) (f : Nat) (g : Fn → Fn) : (modFn s f g).i2c = s.i2c := rfl
@[simp] theorem modFn_eddyBanks (s : State) (f : Nat) (g : Fn → Fn) : (modFn s f g).eddyBanks = s.eddyBanks := rfl
@[simp] theorem modFn_poolBanks (s : State) (f : Nat) (g : Fn → Fn) : (modFn s f g).poolBanks = s.poolBanks := rfl
@[simp] theorem modFn_dev (s : State) (f : Nat) (g : Fn → Fn) : (modFn s f g).dev = s.dev := rfl
@[simp] theorem modFn_pwr (s : State) (f : Nat) (g : Fn → Fn) : (modFn s f g).pwr = s.pwr := rfl
@[simp] theorem modFn_votes (s : State) (f : Nat) (g : Fn → Fn) : (modFn s f g).votes = s.votes := rfl

@[simp] theorem modFn_fns (s : State) (f : Nat) (g : Fn → Fn) : (modFn s f g).fns = tset s.fns f (g (tgetD s.fns f {})) := rfl

/-! ### `modMbx` -/

@[simp] theorem modMbx_pending (s : State) (mb : Nat) (f : Mbx → Mbx) : (modMbx s mb f).pending = s.pending := rfl
@[simp] theorem modMbx_free (s : State) (mb : Nat) (f : Mbx → Mbx) : (modMbx s mb f).free = s.free := rfl
@[simp] theorem modMbx_mere (s : State) (mb : Nat) (f : Mbx → Mbx) : (modMbx s mb f).mere = s.mere := rfl
@[simp] theorem modMbx_grid (s : State) (mb : Nat) (f : Mbx → Mbx) : (modMbx s mb f).grid = s.grid := rfl
@[simp] theorem modMbx_out (s : State) (mb : Nat) (f : Mbx → Mbx) : (modMbx s mb f).out = s.out := rfl
@[simp] theorem modMbx_evs (s : State) (mb : Nat) (f : Mbx → Mbx) : (modMbx s mb f).evs = s.evs := rfl
@[simp] theorem modMbx_host (s : State) (mb : Nat) (f : Mbx → Mbx) : (modMbx s mb f).host = s.host := rfl
@[simp] theorem modMbx_ctl (s : State) (mb : Nat) (f : Mbx → Mbx) : (modMbx s mb f).ctl = s.ctl := rfl
@[simp] theorem modMbx_fns (s : State) (mb : Nat) (f : Mbx → Mbx) : (modMbx s mb f).fns = s.fns := rfl
@[simp] theorem modMbx_queues (s : State) (mb : Nat) (f : Mbx → Mbx) : (modMbx s mb f).queues = s.queues := rfl
@[simp] theorem modMbx_tenants (s : State) (mb : Nat) (f : Mbx → Mbx) : (modMbx s mb f).tenants = s.tenants := rfl
@[simp] theorem modMbx_streams (s : State) (mb : Nat) (f : Mbx → Mbx) : (modMbx s mb f).streams = s.streams := rfl
@[simp] theorem modMbx_tbs (s : State) (mb : Nat) (f : Mbx → Mbx) : (modMbx s mb f).tbs = s.tbs := rfl
@[simp] theorem modMbx_tsPorts (s : State) (mb : Nat) (f : Mbx → Mbx) : (modMbx s mb f).tsPorts = s.tsPorts := rfl
@[simp] theorem modMbx_cal (s : State) (mb : Nat) (f : Mbx → Mbx) : (modMbx s mb f).cal = s.cal := rfl
@[simp] theorem modMbx_clk (s : State) (mb : Nat) (f : Mbx → Mbx) : (modMbx s mb f).clk = s.clk := rfl
@[simp] theorem modMbx_cway (s : State) (mb : Nat) (f : Mbx → Mbx) : (modMbx s mb f).cway = s.cway := rfl
@[simp] theorem modMbx_chain (s : State) (mb : Nat) (f : Mbx → Mbx) : (modMbx s mb f).chain = s.chain := rfl
@[simp] theorem modMbx_health (s : State) (mb : Nat) (f : Mbx → Mbx) : (modMbx s mb f).health = s.health := rfl
@[simp] theorem modMbx_tarn (s : State) (mb : Nat) (f : Mbx → Mbx) : (modMbx s mb f).tarn = s.tarn := rfl
@[simp] theorem modMbx_sched (s : State) (mb : Nat) (f : Mbx → Mbx) : (modMbx s mb f).sched = s.sched := rfl
@[simp] theorem modMbx_tasks (s : State) (mb : Nat) (f : Mbx → Mbx) : (modMbx s mb f).tasks = s.tasks := rfl
@[simp] theorem modMbx_netGroups (s : State) (mb : Nat) (f : Mbx → Mbx) : (modMbx s mb f).netGroups = s.netGroups := rfl
@[simp] theorem modMbx_netPorts (s : State) (mb : Nat) (f : Mbx → Mbx) : (modMbx s mb f).netPorts = s.netPorts := rfl
@[simp] theorem modMbx_inlet (s : State) (mb : Nat) (f : Mbx → Mbx) : (modMbx s mb f).inlet = s.inlet := rfl
@[simp] theorem modMbx_filters (s : State) (mb : Nat) (f : Mbx → Mbx) : (modMbx s mb f).filters = s.filters := rfl
@[simp] theorem modMbx_fld (s : State) (mb : Nat) (f : Mbx → Mbx) : (modMbx s mb f).fld = s.fld := rfl
@[simp] theorem modMbx_keys (s : State) (mb : Nat) (f : Mbx → Mbx) : (modMbx s mb f).keys = s.keys := rfl
@[simp] theorem modMbx_gpioKeys (s : State) (mb : Nat) (f : Mbx → Mbx) : (modMbx s mb f).gpioKeys = s.gpioKeys := rfl
@[simp] theorem modMbx_lps (s : State) (mb : Nat) (f : Mbx → Mbx) : (modMbx s mb f).lps = s.lps := rfl
@[simp] theorem modMbx_refs (s : State) (mb : Nat) (f : Mbx → Mbx) : (modMbx s mb f).refs = s.refs := rfl
@[simp] theorem modMbx_syns (s : State) (mb : Nat) (f : Mbx → Mbx) : (modMbx s mb f).syns = s.syns := rfl
@[simp] theorem modMbx_twin (s : State) (mb : Nat) (f : Mbx → Mbx) : (modMbx s mb f).twin = s.twin := rfl
@[simp] theorem modMbx_gpio (s : State) (mb : Nat) (f : Mbx → Mbx) : (modMbx s mb f).gpio = s.gpio := rfl
@[simp] theorem modMbx_i2c (s : State) (mb : Nat) (f : Mbx → Mbx) : (modMbx s mb f).i2c = s.i2c := rfl
@[simp] theorem modMbx_eddyBanks (s : State) (mb : Nat) (f : Mbx → Mbx) : (modMbx s mb f).eddyBanks = s.eddyBanks := rfl
@[simp] theorem modMbx_poolBanks (s : State) (mb : Nat) (f : Mbx → Mbx) : (modMbx s mb f).poolBanks = s.poolBanks := rfl
@[simp] theorem modMbx_dev (s : State) (mb : Nat) (f : Mbx → Mbx) : (modMbx s mb f).dev = s.dev := rfl
@[simp] theorem modMbx_pwr (s : State) (mb : Nat) (f : Mbx → Mbx) : (modMbx s mb f).pwr = s.pwr := rfl
@[simp] theorem modMbx_votes (s : State) (mb : Nat) (f : Mbx → Mbx) : (modMbx s mb f).votes = s.votes := rfl

@[simp] theorem modMbx_mbx (s : State) (mb : Nat) (f : Mbx → Mbx) : (modMbx s mb f).mbx = tset s.mbx mb (f (tgetD s.mbx mb {})) := rfl

/-! ### `tripSet` -/

@[simp] theorem tripSet_pending (s : State) (f : TripField) (n : Nat) : (tripSet s f n).pending = s.pending := rfl
@[simp] theorem tripSet_free (s : State) (f : TripField) (n : Nat) : (tripSet s f n).free = s.free := rfl
@[simp] theorem tripSet_mere (s : State) (f : TripField) (n : Nat) : (tripSet s f n).mere = s.mere := rfl
@[simp] theorem tripSet_grid (s : State) (f : TripField) (n : Nat) : (tripSet s f n).grid = s.grid := rfl
@[simp] theorem tripSet_out (s : State) (f : TripField) (n : Nat) : (tripSet s f n).out = s.out := rfl
@[simp] theorem tripSet_evs (s : State) (f : TripField) (n : Nat) : (tripSet s f n).evs = s.evs := rfl
@[simp] theorem tripSet_host (s : State) (f : TripField) (n : Nat) : (tripSet s f n).host = s.host := rfl
@[simp] theorem tripSet_mbx (s : State) (f : TripField) (n : Nat) : (tripSet s f n).mbx = s.mbx := rfl
@[simp] theorem tripSet_ctl (s : State) (f : TripField) (n : Nat) : (tripSet s f n).ctl = s.ctl := rfl
@[simp] theorem tripSet_fns (s : State) (f : TripField) (n : Nat) : (tripSet s f n).fns = s.fns := rfl
@[simp] theorem tripSet_queues (s : State) (f : TripField) (n : Nat) : (tripSet s f n).queues = s.queues := rfl
@[simp] theorem tripSet_tenants (s : State) (f : TripField) (n : Nat) : (tripSet s f n).tenants = s.tenants := rfl
@[simp] theorem tripSet_streams (s : State) (f : TripField) (n : Nat) : (tripSet s f n).streams = s.streams := rfl
@[simp] theorem tripSet_tbs (s : State) (f : TripField) (n : Nat) : (tripSet s f n).tbs = s.tbs := rfl
@[simp] theorem tripSet_tsPorts (s : State) (f : TripField) (n : Nat) : (tripSet s f n).tsPorts = s.tsPorts := rfl
@[simp] theorem tripSet_cal (s : State) (f : TripField) (n : Nat) : (tripSet s f n).cal = s.cal := rfl
@[simp] theorem tripSet_clk (s : State) (f : TripField) (n : Nat) : (tripSet s f n).clk = s.clk := rfl
@[simp] theorem tripSet_cway (s : State) (f : TripField) (n : Nat) : (tripSet s f n).cway = s.cway := rfl
@[simp] theorem tripSet_chain (s : State) (f : TripField) (n : Nat) : (tripSet s f n).chain = s.chain := rfl
@[simp] theorem tripSet_health (s : State) (f : TripField) (n : Nat) : (tripSet s f n).health = s.health := rfl
@[simp] theorem tripSet_tarn (s : State) (f : TripField) (n : Nat) : (tripSet s f n).tarn = s.tarn := rfl
@[simp] theorem tripSet_sched (s : State) (f : TripField) (n : Nat) : (tripSet s f n).sched = s.sched := rfl
@[simp] theorem tripSet_tasks (s : State) (f : TripField) (n : Nat) : (tripSet s f n).tasks = s.tasks := rfl
@[simp] theorem tripSet_netGroups (s : State) (f : TripField) (n : Nat) : (tripSet s f n).netGroups = s.netGroups := rfl
@[simp] theorem tripSet_netPorts (s : State) (f : TripField) (n : Nat) : (tripSet s f n).netPorts = s.netPorts := rfl
@[simp] theorem tripSet_inlet (s : State) (f : TripField) (n : Nat) : (tripSet s f n).inlet = s.inlet := rfl
@[simp] theorem tripSet_filters (s : State) (f : TripField) (n : Nat) : (tripSet s f n).filters = s.filters := rfl
@[simp] theorem tripSet_fld (s : State) (f : TripField) (n : Nat) : (tripSet s f n).fld = s.fld := rfl
@[simp] theorem tripSet_keys (s : State) (f : TripField) (n : Nat) : (tripSet s f n).keys = s.keys := rfl
@[simp] theorem tripSet_gpioKeys (s : State) (f : TripField) (n : Nat) : (tripSet s f n).gpioKeys = s.gpioKeys := rfl
@[simp] theorem tripSet_lps (s : State) (f : TripField) (n : Nat) : (tripSet s f n).lps = s.lps := rfl
@[simp] theorem tripSet_refs (s : State) (f : TripField) (n : Nat) : (tripSet s f n).refs = s.refs := rfl
@[simp] theorem tripSet_syns (s : State) (f : TripField) (n : Nat) : (tripSet s f n).syns = s.syns := rfl
@[simp] theorem tripSet_twin (s : State) (f : TripField) (n : Nat) : (tripSet s f n).twin = s.twin := rfl
@[simp] theorem tripSet_gpio (s : State) (f : TripField) (n : Nat) : (tripSet s f n).gpio = s.gpio := rfl
@[simp] theorem tripSet_i2c (s : State) (f : TripField) (n : Nat) : (tripSet s f n).i2c = s.i2c := rfl
@[simp] theorem tripSet_eddyBanks (s : State) (f : TripField) (n : Nat) : (tripSet s f n).eddyBanks = s.eddyBanks := rfl
@[simp] theorem tripSet_poolBanks (s : State) (f : TripField) (n : Nat) : (tripSet s f n).poolBanks = s.poolBanks := rfl
@[simp] theorem tripSet_dev (s : State) (f : TripField) (n : Nat) : (tripSet s f n).dev = s.dev := rfl
@[simp] theorem tripSet_pwr (s : State) (f : TripField) (n : Nat) : (tripSet s f n).pwr = s.pwr := rfl

@[simp] theorem tripSet_votes (s : State) (f : TripField) (n : Nat) : (tripSet s f n).votes = tripPut s.votes f ⟨n, n, n⟩ := rfl

/-! ### `setCore` -/

@[simp] theorem setCore_pending (s : State) (n : Nat) (c : Core) : (setCore s n c).pending = s.pending := rfl
@[simp] theorem setCore_free (s : State) (n : Nat) (c : Core) : (setCore s n c).free = s.free := rfl
@[simp] theorem setCore_mere (s : State) (n : Nat) (c : Core) : (setCore s n c).mere = s.mere := rfl
@[simp] theorem setCore_grid (s : State) (n : Nat) (c : Core) : (setCore s n c).grid = s.grid := rfl
@[simp] theorem setCore_out (s : State) (n : Nat) (c : Core) : (setCore s n c).out = s.out := rfl
@[simp] theorem setCore_evs (s : State) (n : Nat) (c : Core) : (setCore s n c).evs = s.evs := rfl
@[simp] theorem setCore_host (s : State) (n : Nat) (c : Core) : (setCore s n c).host = s.host := rfl
@[simp] theorem setCore_mbx (s : State) (n : Nat) (c : Core) : (setCore s n c).mbx = s.mbx := rfl
@[simp] theorem setCore_ctl (s : State) (n : Nat) (c : Core) : (setCore s n c).ctl = s.ctl := rfl
@[simp] theorem setCore_fns (s : State) (n : Nat) (c : Core) : (setCore s n c).fns = s.fns := rfl
@[simp] theorem setCore_queues (s : State) (n : Nat) (c : Core) : (setCore s n c).queues = s.queues := rfl
@[simp] theorem setCore_tenants (s : State) (n : Nat) (c : Core) : (setCore s n c).tenants = s.tenants := rfl
@[simp] theorem setCore_streams (s : State) (n : Nat) (c : Core) : (setCore s n c).streams = s.streams := rfl
@[simp] theorem setCore_tbs (s : State) (n : Nat) (c : Core) : (setCore s n c).tbs = s.tbs := rfl
@[simp] theorem setCore_tsPorts (s : State) (n : Nat) (c : Core) : (setCore s n c).tsPorts = s.tsPorts := rfl
@[simp] theorem setCore_cal (s : State) (n : Nat) (c : Core) : (setCore s n c).cal = s.cal := rfl
@[simp] theorem setCore_clk (s : State) (n : Nat) (c : Core) : (setCore s n c).clk = s.clk := rfl
@[simp] theorem setCore_cway (s : State) (n : Nat) (c : Core) : (setCore s n c).cway = s.cway := rfl
@[simp] theorem setCore_chain (s : State) (n : Nat) (c : Core) : (setCore s n c).chain = s.chain := rfl
@[simp] theorem setCore_health (s : State) (n : Nat) (c : Core) : (setCore s n c).health = s.health := rfl
@[simp] theorem setCore_sched (s : State) (n : Nat) (c : Core) : (setCore s n c).sched = s.sched := rfl
@[simp] theorem setCore_tasks (s : State) (n : Nat) (c : Core) : (setCore s n c).tasks = s.tasks := rfl
@[simp] theorem setCore_netGroups (s : State) (n : Nat) (c : Core) : (setCore s n c).netGroups = s.netGroups := rfl
@[simp] theorem setCore_netPorts (s : State) (n : Nat) (c : Core) : (setCore s n c).netPorts = s.netPorts := rfl
@[simp] theorem setCore_inlet (s : State) (n : Nat) (c : Core) : (setCore s n c).inlet = s.inlet := rfl
@[simp] theorem setCore_filters (s : State) (n : Nat) (c : Core) : (setCore s n c).filters = s.filters := rfl
@[simp] theorem setCore_fld (s : State) (n : Nat) (c : Core) : (setCore s n c).fld = s.fld := rfl
@[simp] theorem setCore_keys (s : State) (n : Nat) (c : Core) : (setCore s n c).keys = s.keys := rfl
@[simp] theorem setCore_gpioKeys (s : State) (n : Nat) (c : Core) : (setCore s n c).gpioKeys = s.gpioKeys := rfl
@[simp] theorem setCore_lps (s : State) (n : Nat) (c : Core) : (setCore s n c).lps = s.lps := rfl
@[simp] theorem setCore_refs (s : State) (n : Nat) (c : Core) : (setCore s n c).refs = s.refs := rfl
@[simp] theorem setCore_syns (s : State) (n : Nat) (c : Core) : (setCore s n c).syns = s.syns := rfl
@[simp] theorem setCore_twin (s : State) (n : Nat) (c : Core) : (setCore s n c).twin = s.twin := rfl
@[simp] theorem setCore_gpio (s : State) (n : Nat) (c : Core) : (setCore s n c).gpio = s.gpio := rfl
@[simp] theorem setCore_i2c (s : State) (n : Nat) (c : Core) : (setCore s n c).i2c = s.i2c := rfl
@[simp] theorem setCore_eddyBanks (s : State) (n : Nat) (c : Core) : (setCore s n c).eddyBanks = s.eddyBanks := rfl
@[simp] theorem setCore_poolBanks (s : State) (n : Nat) (c : Core) : (setCore s n c).poolBanks = s.poolBanks := rfl
@[simp] theorem setCore_dev (s : State) (n : Nat) (c : Core) : (setCore s n c).dev = s.dev := rfl
@[simp] theorem setCore_pwr (s : State) (n : Nat) (c : Core) : (setCore s n c).pwr = s.pwr := rfl
@[simp] theorem setCore_votes (s : State) (n : Nat) (c : Core) : (setCore s n c).votes = s.votes := rfl

@[simp] theorem setCore_tarn (s : State) (n : Nat) (c : Core) : (setCore s n c).tarn = { s.tarn with cores := tset s.tarn.cores n c } := rfl

/-! ### `modCore` -/

@[simp] theorem modCore_pending (s : State) (n : Nat) (f : Core → Core) : (modCore s n f).pending = s.pending := rfl
@[simp] theorem modCore_free (s : State) (n : Nat) (f : Core → Core) : (modCore s n f).free = s.free := rfl
@[simp] theorem modCore_mere (s : State) (n : Nat) (f : Core → Core) : (modCore s n f).mere = s.mere := rfl
@[simp] theorem modCore_grid (s : State) (n : Nat) (f : Core → Core) : (modCore s n f).grid = s.grid := rfl
@[simp] theorem modCore_out (s : State) (n : Nat) (f : Core → Core) : (modCore s n f).out = s.out := rfl
@[simp] theorem modCore_evs (s : State) (n : Nat) (f : Core → Core) : (modCore s n f).evs = s.evs := rfl
@[simp] theorem modCore_host (s : State) (n : Nat) (f : Core → Core) : (modCore s n f).host = s.host := rfl
@[simp] theorem modCore_mbx (s : State) (n : Nat) (f : Core → Core) : (modCore s n f).mbx = s.mbx := rfl
@[simp] theorem modCore_ctl (s : State) (n : Nat) (f : Core → Core) : (modCore s n f).ctl = s.ctl := rfl
@[simp] theorem modCore_fns (s : State) (n : Nat) (f : Core → Core) : (modCore s n f).fns = s.fns := rfl
@[simp] theorem modCore_queues (s : State) (n : Nat) (f : Core → Core) : (modCore s n f).queues = s.queues := rfl
@[simp] theorem modCore_tenants (s : State) (n : Nat) (f : Core → Core) : (modCore s n f).tenants = s.tenants := rfl
@[simp] theorem modCore_streams (s : State) (n : Nat) (f : Core → Core) : (modCore s n f).streams = s.streams := rfl
@[simp] theorem modCore_tbs (s : State) (n : Nat) (f : Core → Core) : (modCore s n f).tbs = s.tbs := rfl
@[simp] theorem modCore_tsPorts (s : State) (n : Nat) (f : Core → Core) : (modCore s n f).tsPorts = s.tsPorts := rfl
@[simp] theorem modCore_cal (s : State) (n : Nat) (f : Core → Core) : (modCore s n f).cal = s.cal := rfl
@[simp] theorem modCore_clk (s : State) (n : Nat) (f : Core → Core) : (modCore s n f).clk = s.clk := rfl
@[simp] theorem modCore_cway (s : State) (n : Nat) (f : Core → Core) : (modCore s n f).cway = s.cway := rfl
@[simp] theorem modCore_chain (s : State) (n : Nat) (f : Core → Core) : (modCore s n f).chain = s.chain := rfl
@[simp] theorem modCore_health (s : State) (n : Nat) (f : Core → Core) : (modCore s n f).health = s.health := rfl
@[simp] theorem modCore_sched (s : State) (n : Nat) (f : Core → Core) : (modCore s n f).sched = s.sched := rfl
@[simp] theorem modCore_tasks (s : State) (n : Nat) (f : Core → Core) : (modCore s n f).tasks = s.tasks := rfl
@[simp] theorem modCore_netGroups (s : State) (n : Nat) (f : Core → Core) : (modCore s n f).netGroups = s.netGroups := rfl
@[simp] theorem modCore_netPorts (s : State) (n : Nat) (f : Core → Core) : (modCore s n f).netPorts = s.netPorts := rfl
@[simp] theorem modCore_inlet (s : State) (n : Nat) (f : Core → Core) : (modCore s n f).inlet = s.inlet := rfl
@[simp] theorem modCore_filters (s : State) (n : Nat) (f : Core → Core) : (modCore s n f).filters = s.filters := rfl
@[simp] theorem modCore_fld (s : State) (n : Nat) (f : Core → Core) : (modCore s n f).fld = s.fld := rfl
@[simp] theorem modCore_keys (s : State) (n : Nat) (f : Core → Core) : (modCore s n f).keys = s.keys := rfl
@[simp] theorem modCore_gpioKeys (s : State) (n : Nat) (f : Core → Core) : (modCore s n f).gpioKeys = s.gpioKeys := rfl
@[simp] theorem modCore_lps (s : State) (n : Nat) (f : Core → Core) : (modCore s n f).lps = s.lps := rfl
@[simp] theorem modCore_refs (s : State) (n : Nat) (f : Core → Core) : (modCore s n f).refs = s.refs := rfl
@[simp] theorem modCore_syns (s : State) (n : Nat) (f : Core → Core) : (modCore s n f).syns = s.syns := rfl
@[simp] theorem modCore_twin (s : State) (n : Nat) (f : Core → Core) : (modCore s n f).twin = s.twin := rfl
@[simp] theorem modCore_gpio (s : State) (n : Nat) (f : Core → Core) : (modCore s n f).gpio = s.gpio := rfl
@[simp] theorem modCore_i2c (s : State) (n : Nat) (f : Core → Core) : (modCore s n f).i2c = s.i2c := rfl
@[simp] theorem modCore_eddyBanks (s : State) (n : Nat) (f : Core → Core) : (modCore s n f).eddyBanks = s.eddyBanks := rfl
@[simp] theorem modCore_poolBanks (s : State) (n : Nat) (f : Core → Core) : (modCore s n f).poolBanks = s.poolBanks := rfl
@[simp] theorem modCore_dev (s : State) (n : Nat) (f : Core → Core) : (modCore s n f).dev = s.dev := rfl
@[simp] theorem modCore_pwr (s : State) (n : Nat) (f : Core → Core) : (modCore s n f).pwr = s.pwr := rfl
@[simp] theorem modCore_votes (s : State) (n : Nat) (f : Core → Core) : (modCore s n f).votes = s.votes := rfl

@[simp] theorem modCore_tarn (s : State) (n : Nat) (f : Core → Core) : (modCore s n f).tarn = { s.tarn with cores := tset s.tarn.cores n (f (core s n)) } := rfl

/-! ### `modTask` -/

@[simp] theorem modTask_pending (s : State) (n : Nat) (f : Task → Task) : (modTask s n f).pending = s.pending := rfl
@[simp] theorem modTask_free (s : State) (n : Nat) (f : Task → Task) : (modTask s n f).free = s.free := rfl
@[simp] theorem modTask_mere (s : State) (n : Nat) (f : Task → Task) : (modTask s n f).mere = s.mere := rfl
@[simp] theorem modTask_grid (s : State) (n : Nat) (f : Task → Task) : (modTask s n f).grid = s.grid := rfl
@[simp] theorem modTask_out (s : State) (n : Nat) (f : Task → Task) : (modTask s n f).out = s.out := rfl
@[simp] theorem modTask_evs (s : State) (n : Nat) (f : Task → Task) : (modTask s n f).evs = s.evs := rfl
@[simp] theorem modTask_host (s : State) (n : Nat) (f : Task → Task) : (modTask s n f).host = s.host := rfl
@[simp] theorem modTask_mbx (s : State) (n : Nat) (f : Task → Task) : (modTask s n f).mbx = s.mbx := rfl
@[simp] theorem modTask_ctl (s : State) (n : Nat) (f : Task → Task) : (modTask s n f).ctl = s.ctl := rfl
@[simp] theorem modTask_fns (s : State) (n : Nat) (f : Task → Task) : (modTask s n f).fns = s.fns := rfl
@[simp] theorem modTask_queues (s : State) (n : Nat) (f : Task → Task) : (modTask s n f).queues = s.queues := rfl
@[simp] theorem modTask_tenants (s : State) (n : Nat) (f : Task → Task) : (modTask s n f).tenants = s.tenants := rfl
@[simp] theorem modTask_streams (s : State) (n : Nat) (f : Task → Task) : (modTask s n f).streams = s.streams := rfl
@[simp] theorem modTask_tbs (s : State) (n : Nat) (f : Task → Task) : (modTask s n f).tbs = s.tbs := rfl
@[simp] theorem modTask_tsPorts (s : State) (n : Nat) (f : Task → Task) : (modTask s n f).tsPorts = s.tsPorts := rfl
@[simp] theorem modTask_cal (s : State) (n : Nat) (f : Task → Task) : (modTask s n f).cal = s.cal := rfl
@[simp] theorem modTask_clk (s : State) (n : Nat) (f : Task → Task) : (modTask s n f).clk = s.clk := rfl
@[simp] theorem modTask_cway (s : State) (n : Nat) (f : Task → Task) : (modTask s n f).cway = s.cway := rfl
@[simp] theorem modTask_chain (s : State) (n : Nat) (f : Task → Task) : (modTask s n f).chain = s.chain := rfl
@[simp] theorem modTask_health (s : State) (n : Nat) (f : Task → Task) : (modTask s n f).health = s.health := rfl
@[simp] theorem modTask_tarn (s : State) (n : Nat) (f : Task → Task) : (modTask s n f).tarn = s.tarn := rfl
@[simp] theorem modTask_sched (s : State) (n : Nat) (f : Task → Task) : (modTask s n f).sched = s.sched := rfl
@[simp] theorem modTask_netGroups (s : State) (n : Nat) (f : Task → Task) : (modTask s n f).netGroups = s.netGroups := rfl
@[simp] theorem modTask_netPorts (s : State) (n : Nat) (f : Task → Task) : (modTask s n f).netPorts = s.netPorts := rfl
@[simp] theorem modTask_inlet (s : State) (n : Nat) (f : Task → Task) : (modTask s n f).inlet = s.inlet := rfl
@[simp] theorem modTask_filters (s : State) (n : Nat) (f : Task → Task) : (modTask s n f).filters = s.filters := rfl
@[simp] theorem modTask_fld (s : State) (n : Nat) (f : Task → Task) : (modTask s n f).fld = s.fld := rfl
@[simp] theorem modTask_keys (s : State) (n : Nat) (f : Task → Task) : (modTask s n f).keys = s.keys := rfl
@[simp] theorem modTask_gpioKeys (s : State) (n : Nat) (f : Task → Task) : (modTask s n f).gpioKeys = s.gpioKeys := rfl
@[simp] theorem modTask_lps (s : State) (n : Nat) (f : Task → Task) : (modTask s n f).lps = s.lps := rfl
@[simp] theorem modTask_refs (s : State) (n : Nat) (f : Task → Task) : (modTask s n f).refs = s.refs := rfl
@[simp] theorem modTask_syns (s : State) (n : Nat) (f : Task → Task) : (modTask s n f).syns = s.syns := rfl
@[simp] theorem modTask_twin (s : State) (n : Nat) (f : Task → Task) : (modTask s n f).twin = s.twin := rfl
@[simp] theorem modTask_gpio (s : State) (n : Nat) (f : Task → Task) : (modTask s n f).gpio = s.gpio := rfl
@[simp] theorem modTask_i2c (s : State) (n : Nat) (f : Task → Task) : (modTask s n f).i2c = s.i2c := rfl
@[simp] theorem modTask_eddyBanks (s : State) (n : Nat) (f : Task → Task) : (modTask s n f).eddyBanks = s.eddyBanks := rfl
@[simp] theorem modTask_poolBanks (s : State) (n : Nat) (f : Task → Task) : (modTask s n f).poolBanks = s.poolBanks := rfl
@[simp] theorem modTask_dev (s : State) (n : Nat) (f : Task → Task) : (modTask s n f).dev = s.dev := rfl
@[simp] theorem modTask_pwr (s : State) (n : Nat) (f : Task → Task) : (modTask s n f).pwr = s.pwr := rfl
@[simp] theorem modTask_votes (s : State) (n : Nat) (f : Task → Task) : (modTask s n f).votes = s.votes := rfl

@[simp] theorem modTask_tasks (s : State) (n : Nat) (f : Task → Task) : (modTask s n f).tasks = tmod s.tasks n f := rfl

end Sys2Proof.Machine
end

