-- ==== Sys2Proof/Laws/Frame.lean ====
section
/-! SUPPORT. What delivering events and driving the pins leave as it was, and what every step built by `run` therefore does. -/
namespace Sys2Proof.Machine

/-- The state without what delivering events may change: host memory, the queues, the functions, and what leaves the device. -/
def State.rest (s : State) : State := { s with host := [], queues := [], fns := [], evs := [], out := [] }

@[simp] theorem rest_modFn (s : State) (f : Nat) (g : Fn → Fn) : (modFn s f g).rest = s.rest := rfl
@[simp] theorem rest_emit (s : State) (o : Out) : (emit s o).rest = s.rest := rfl
@[simp] theorem rest_raiseEv (s : State) (f : Nat) (c : Bool) (e : Ev) : (raiseEv s f c e).rest = s.rest := rfl
@[simp] theorem rest_evT (s : State) (t a b c d : Nat) : (evT s t a b c d).rest = s.rest := rfl

theorem msix_rest (s : State) (f v : Nat) : (msix s f v).rest = s.rest := by
  unfold msix; dsimp only; repeat' split
  all_goals rfl

theorem setInt_rest (s : State) (f : Nat) (b : IntBit) : (setInt s f b).rest = s.rest := by
  unfold setInt; split
  · rfl
  · rw [msix_rest]; rfl

theorem checkIrq_rest (s : State) (k : Nat) : (checkIrq s k).rest = s.rest := by
  unfold checkIrq; dsimp only; repeat' split
  all_goals first
    | rfl
    | (rw [msix_rest]; rfl)

theorem addUnsig_rest (s : State) (k n : Nat) : (addUnsig s k n).rest = s.rest := by
  unfold addUnsig; rw [checkIrq_rest]; rfl

theorem putRecord_rest (s : State) (k : Nat) (q : Queue) (c : QCtx) (e : Ev) : (putRecord s k q c e).rest = s.rest := by
  unfold putRecord; dsimp only; rw [addUnsig_rest]; rfl

theorem drain_rest (f n : Nat) : ∀ s : State, (drain f n s).rest = s.rest := by
  induction n with
  | zero => intro s; rfl
  | succ n ih =>
    intro s; unfold drain; repeat' split
    all_goals first
      | rfl
      | (rw [ih, putRecord_rest]; rfl)
      | (rw [putRecord_rest])

theorem loseEvent_rest (s : State) (f : Nat) : (loseEvent s f).rest = s.rest := by
  unfold loseEvent; rw [setInt_rest]; rfl

theorem deliver_rest (s : State) (o : EvOut) : (deliver s o).rest = s.rest := by
  unfold deliver; dsimp only; repeat' split
  all_goals first
    | (rw [putRecord_rest, drain_rest])
    | (rw [rest_modFn, drain_rest])
    | (rw [loseEvent_rest]; exact drain_rest _ _ _)

theorem deliver_foldl_rest (es : List EvOut) : ∀ s : State, (es.foldl deliver s).rest = s.rest := by
  induction es with
  | nil => intro s; rfl
  | cons e es ih => intro s; rw [List.foldl_cons, ih, deliver_rest]

theorem flushN_rest (n : Nat) : ∀ s : State, (flushN n s).rest = s.rest := by
  induction n with
  | zero => intro s; rfl
  | succ n ih =>
    intro s; unfold flushN; split
    · rfl
    · rw [ih, deliver_foldl_rest]; rfl

theorem flush_rest (s : State) : (flush s).rest = s.rest := (flushN_rest 2 s : _)

@[simp] theorem flush_evs (s : State) : (flush s).evs = [] := rfl

/-- With no event raised, nothing is delivered. -/
theorem flush_of_nil {s : State} (h : s.evs = []) : flush s = s := by
  cases s; simp only at h; subst h; rfl

@[simp] theorem flush_pending (s : State) : (flush s).pending = s.pending := (congrArg State.pending (flush_rest s) : _)
@[simp] theorem flush_free (s : State) : (flush s).free = s.free := (congrArg State.free (flush_rest s) : _)
@[simp] theorem flush_mere (s : State) : (flush s).mere = s.mere := (congrArg State.mere (flush_rest s) : _)
@[simp] theorem flush_grid (s : State) : (flush s).grid = s.grid := (congrArg State.grid (flush_rest s) : _)
@[simp] theorem flush_mbx (s : State) : (flush s).mbx = s.mbx := (congrArg State.mbx (flush_rest s) : _)
@[simp] theorem flush_ctl (s : State) : (flush s).ctl = s.ctl := (congrArg State.ctl (flush_rest s) : _)
@[simp] theorem flush_tenants (s : State) : (flush s).tenants = s.tenants := (congrArg State.tenants (flush_rest s) : _)
@[simp] theorem flush_streams (s : State) : (flush s).streams = s.streams := (congrArg State.streams (flush_rest s) : _)
@[simp] theorem flush_tbs (s : State) : (flush s).tbs = s.tbs := (congrArg State.tbs (flush_rest s) : _)
@[simp] theorem flush_tsPorts (s : State) : (flush s).tsPorts = s.tsPorts := (congrArg State.tsPorts (flush_rest s) : _)
@[simp] theorem flush_cal (s : State) : (flush s).cal = s.cal := (congrArg State.cal (flush_rest s) : _)
@[simp] theorem flush_clk (s : State) : (flush s).clk = s.clk := (congrArg State.clk (flush_rest s) : _)
@[simp] theorem flush_cway (s : State) : (flush s).cway = s.cway := (congrArg State.cway (flush_rest s) : _)
@[simp] theorem flush_chain (s : State) : (flush s).chain = s.chain := (congrArg State.chain (flush_rest s) : _)
@[simp] theorem flush_health (s : State) : (flush s).health = s.health := (congrArg State.health (flush_rest s) : _)
@[simp] theorem flush_tarn (s : State) : (flush s).tarn = s.tarn := (congrArg State.tarn (flush_rest s) : _)
@[simp] theorem flush_sched (s : State) : (flush s).sched = s.sched := (congrArg State.sched (flush_rest s) : _)
@[simp] theorem flush_tasks (s : State) : (flush s).tasks = s.tasks := (congrArg State.tasks (flush_rest s) : _)
@[simp] theorem flush_netGroups (s : State) : (flush s).netGroups = s.netGroups := (congrArg State.netGroups (flush_rest s) : _)
@[simp] theorem flush_netPorts (s : State) : (flush s).netPorts = s.netPorts := (congrArg State.netPorts (flush_rest s) : _)
@[simp] theorem flush_inlet (s : State) : (flush s).inlet = s.inlet := (congrArg State.inlet (flush_rest s) : _)
@[simp] theorem flush_filters (s : State) : (flush s).filters = s.filters := (congrArg State.filters (flush_rest s) : _)
@[simp] theorem flush_fld (s : State) : (flush s).fld = s.fld := (congrArg State.fld (flush_rest s) : _)
@[simp] theorem flush_keys (s : State) : (flush s).keys = s.keys := (congrArg State.keys (flush_rest s) : _)
@[simp] theorem flush_gpioKeys (s : State) : (flush s).gpioKeys = s.gpioKeys := (congrArg State.gpioKeys (flush_rest s) : _)
@[simp] theorem flush_lps (s : State) : (flush s).lps = s.lps := (congrArg State.lps (flush_rest s) : _)
@[simp] theorem flush_refs (s : State) : (flush s).refs = s.refs := (congrArg State.refs (flush_rest s) : _)
@[simp] theorem flush_syns (s : State) : (flush s).syns = s.syns := (congrArg State.syns (flush_rest s) : _)
@[simp] theorem flush_twin (s : State) : (flush s).twin = s.twin := (congrArg State.twin (flush_rest s) : _)
@[simp] theorem flush_gpio (s : State) : (flush s).gpio = s.gpio := (congrArg State.gpio (flush_rest s) : _)
@[simp] theorem flush_i2c (s : State) : (flush s).i2c = s.i2c := (congrArg State.i2c (flush_rest s) : _)
@[simp] theorem flush_eddyBanks (s : State) : (flush s).eddyBanks = s.eddyBanks := (congrArg State.eddyBanks (flush_rest s) : _)
@[simp] theorem flush_poolBanks (s : State) : (flush s).poolBanks = s.poolBanks := (congrArg State.poolBanks (flush_rest s) : _)
@[simp] theorem flush_dev (s : State) : (flush s).dev = s.dev := (congrArg State.dev (flush_rest s) : _)
@[simp] theorem flush_pwr (s : State) : (flush s).pwr = s.pwr := (congrArg State.pwr (flush_rest s) : _)
@[simp] theorem flush_votes (s : State) : (flush s).votes = s.votes := (congrArg State.votes (flush_rest s) : _)

/-! ### The pins -/

@[simp] theorem drive_pending (s : State) : (drive s).pending = s.pending := by unfold drive; dsimp only; split <;> rfl
@[simp] theorem drive_free (s : State) : (drive s).free = s.free := by unfold drive; dsimp only; split <;> rfl
@[simp] theorem drive_mere (s : State) : (drive s).mere = s.mere := by unfold drive; dsimp only; split <;> rfl
@[simp] theorem drive_grid (s : State) : (drive s).grid = s.grid := by unfold drive; dsimp only; split <;> rfl
@[simp] theorem drive_out (s : State) : (drive s).out = s.out := by unfold drive; dsimp only; split <;> rfl
@[simp] theorem drive_evs (s : State) : (drive s).evs = s.evs := by unfold drive; dsimp only; split <;> rfl
@[simp] theorem drive_host (s : State) : (drive s).host = s.host := by unfold drive; dsimp only; split <;> rfl
@[simp] theorem drive_mbx (s : State) : (drive s).mbx = s.mbx := by unfold drive; dsimp only; split <;> rfl
@[simp] theorem drive_fns (s : State) : (drive s).fns = s.fns := by unfold drive; dsimp only; split <;> rfl
@[simp] theorem drive_queues (s : State) : (drive s).queues = s.queues := by unfold drive; dsimp only; split <;> rfl
@[simp] theorem drive_tenants (s : State) : (drive s).tenants = s.tenants := by unfold drive; dsimp only; split <;> rfl
@[simp] theorem drive_streams (s : State) : (drive s).streams = s.streams := by unfold drive; dsimp only; split <;> rfl
@[simp] theorem drive_tbs (s : State) : (drive s).tbs = s.tbs := by unfold drive; dsimp only; split <;> rfl
@[simp] theorem drive_tsPorts (s : State) : (drive s).tsPorts = s.tsPorts := by unfold drive; dsimp only; split <;> rfl
@[simp] theorem drive_cal (s : State) : (drive s).cal = s.cal := by unfold drive; dsimp only; split <;> rfl
@[simp] theorem drive_clk (s : State) : (drive s).clk = s.clk := by unfold drive; dsimp only; split <;> rfl
@[simp] theorem drive_cway (s : State) : (drive s).cway = s.cway := by unfold drive; dsimp only; split <;> rfl
@[simp] theorem drive_chain (s : State) : (drive s).chain = s.chain := by unfold drive; dsimp only; split <;> rfl
@[simp] theorem drive_health (s : State) : (drive s).health = s.health := by unfold drive; dsimp only; split <;> rfl
@[simp] theorem drive_tarn (s : State) : (drive s).tarn = s.tarn := by unfold drive; dsimp only; split <;> rfl
@[simp] theorem drive_sched (s : State) : (drive s).sched = s.sched := by unfold drive; dsimp only; split <;> rfl
@[simp] theorem drive_tasks (s : State) : (drive s).tasks = s.tasks := by unfold drive; dsimp only; split <;> rfl
@[simp] theorem drive_netGroups (s : State) : (drive s).netGroups = s.netGroups := by unfold drive; dsimp only; split <;> rfl
@[simp] theorem drive_netPorts (s : State) : (drive s).netPorts = s.netPorts := by unfold drive; dsimp only; split <;> rfl
@[simp] theorem drive_inlet (s : State) : (drive s).inlet = s.inlet := by unfold drive; dsimp only; split <;> rfl
@[simp] theorem drive_filters (s : State) : (drive s).filters = s.filters := by unfold drive; dsimp only; split <;> rfl
@[simp] theorem drive_fld (s : State) : (drive s).fld = s.fld := by unfold drive; dsimp only; split <;> rfl
@[simp] theorem drive_keys (s : State) : (drive s).keys = s.keys := by unfold drive; dsimp only; split <;> rfl
@[simp] theorem drive_gpioKeys (s : State) : (drive s).gpioKeys = s.gpioKeys := by unfold drive; dsimp only; split <;> rfl
@[simp] theorem drive_lps (s : State) : (drive s).lps = s.lps := by unfold drive; dsimp only; split <;> rfl
@[simp] theorem drive_refs (s : State) : (drive s).refs = s.refs := by unfold drive; dsimp only; split <;> rfl
@[simp] theorem drive_syns (s : State) : (drive s).syns = s.syns := by unfold drive; dsimp only; split <;> rfl
@[simp] theorem drive_twin (s : State) : (drive s).twin = s.twin := by unfold drive; dsimp only; split <;> rfl
@[simp] theorem drive_gpio (s : State) : (drive s).gpio = s.gpio := by unfold drive; dsimp only; split <;> rfl
@[simp] theorem drive_i2c (s : State) : (drive s).i2c = s.i2c := by unfold drive; dsimp only; split <;> rfl
@[simp] theorem drive_eddyBanks (s : State) : (drive s).eddyBanks = s.eddyBanks := by unfold drive; dsimp only; split <;> rfl
@[simp] theorem drive_poolBanks (s : State) : (drive s).poolBanks = s.poolBanks := by unfold drive; dsimp only; split <;> rfl
@[simp] theorem drive_pwr (s : State) : (drive s).pwr = s.pwr := by unfold drive; dsimp only; split <;> rfl
@[simp] theorem drive_votes (s : State) : (drive s).votes = s.votes := by unfold drive; dsimp only; split <;> rfl
@[simp] theorem drive_ctl_stage (s : State) : (drive s).ctl.stage = s.ctl.stage := by unfold drive; dsimp only; split <;> rfl
@[simp] theorem drive_ctl_source (s : State) : (drive s).ctl.source = s.ctl.source := by unfold drive; dsimp only; split <;> rfl
@[simp] theorem drive_ctl_slot (s : State) : (drive s).ctl.slot = s.ctl.slot := by unfold drive; dsimp only; split <;> rfl
@[simp] theorem drive_ctl_trial (s : State) : (drive s).ctl.trial = s.ctl.trial := by unfold drive; dsimp only; split <;> rfl
@[simp] theorem drive_ctl_svn (s : State) : (drive s).ctl.svn = s.ctl.svn := by unfold drive; dsimp only; split <;> rfl
@[simp] theorem drive_ctl_rollback (s : State) : (drive s).ctl.rollback = s.ctl.rollback := by unfold drive; dsimp only; split <;> rfl
@[simp] theorem drive_ctl_failCode (s : State) : (drive s).ctl.failCode = s.ctl.failCode := by unfold drive; dsimp only; split <;> rfl
@[simp] theorem drive_ctl_pairs (s : State) : (drive s).ctl.pairs = s.ctl.pairs := by unfold drive; dsimp only; split <;> rfl
@[simp] theorem drive_ctl_mgmtDown (s : State) : (drive s).ctl.mgmtDown = s.ctl.mgmtDown := by unfold drive; dsimp only; split <;> rfl
@[simp] theorem drive_ctl_handover (s : State) : (drive s).ctl.handover = s.ctl.handover := by unfold drive; dsimp only; split <;> rfl
@[simp] theorem drive_ctl_failover (s : State) : (drive s).ctl.failover = s.ctl.failover := by unfold drive; dsimp only; split <;> rfl
@[simp] theorem drive_ctl_hostUp (s : State) : (drive s).ctl.hostUp = s.ctl.hostUp := by unfold drive; dsimp only; split <;> rfl
@[simp] theorem drive_ctl_inFlight (s : State) : (drive s).ctl.inFlight = s.ctl.inFlight := by unfold drive; dsimp only; split <;> rfl
@[simp] theorem drive_ctl_rrNext (s : State) : (drive s).ctl.rrNext = s.ctl.rrNext := by unfold drive; dsimp only; split <;> rfl
@[simp] theorem drive_ctl_pf0Turn (s : State) : (drive s).ctl.pf0Turn = s.ctl.pf0Turn := by unfold drive; dsimp only; split <;> rfl
@[simp] theorem drive_ctl_slots (s : State) : (drive s).ctl.slots = s.ctl.slots := by unfold drive; dsimp only; split <;> rfl
@[simp] theorem drive_ctl_preferred (s : State) : (drive s).ctl.preferred = s.ctl.preferred := by unfold drive; dsimp only; split <;> rfl
@[simp] theorem drive_ctl_version (s : State) : (drive s).ctl.version = s.ctl.version := by unfold drive; dsimp only; split <;> rfl
@[simp] theorem drive_ctl_chain (s : State) : (drive s).ctl.chain = s.ctl.chain := by unfold drive; dsimp only; split <;> rfl
@[simp] theorem drive_ctl_sessions (s : State) : (drive s).ctl.sessions = s.ctl.sessions := by unfold drive; dsimp only; split <;> rfl
@[simp] theorem drive_ctl_authDrop (s : State) : (drive s).ctl.authDrop = s.ctl.authDrop := by unfold drive; dsimp only; split <;> rfl
@[simp] theorem drive_ctl_pend (s : State) : (drive s).ctl.pend = s.ctl.pend := by unfold drive; dsimp only; split <;> rfl
@[simp] theorem drive_ctl_removed (s : State) : (drive s).ctl.removed = s.ctl.removed := by unfold drive; dsimp only; split <;> rfl
@[simp] theorem drive_dev_rstCause (s : State) : (drive s).dev.rstCause = s.dev.rstCause := by unfold drive; dsimp only; split <;> rfl
@[simp] theorem drive_dev_straps (s : State) : (drive s).dev.straps = s.dev.straps := by unfold drive; dsimp only; split <;> rfl
@[simp] theorem drive_dev_held (s : State) : (drive s).dev.held = s.dev.held := by unfold drive; dsimp only; split <;> rfl
@[simp] theorem drive_dev_thermal (s : State) : (drive s).dev.thermal = s.dev.thermal := by unfold drive; dsimp only; split <;> rfl
@[simp] theorem drive_dev_tripped (s : State) : (drive s).dev.tripped = s.dev.tripped := by unfold drive; dsimp only; split <;> rfl
@[simp] theorem drive_dev_resetDue (s : State) : (drive s).dev.resetDue = s.dev.resetDue := by unfold drive; dsimp only; split <;> rfl
@[simp] theorem drive_dev_safe (s : State) : (drive s).dev.safe = s.dev.safe := by unfold drive; dsimp only; split <;> rfl
@[simp] theorem drive_dev_bootHalt (s : State) : (drive s).dev.bootHalt = s.dev.bootHalt := by unfold drive; dsimp only; split <;> rfl
@[simp] theorem drive_dev_voteFail (s : State) : (drive s).dev.voteFail = s.dev.voteFail := by unfold drive; dsimp only; split <;> rfl
@[simp] theorem drive_dev_voteFixCnt (s : State) : (drive s).dev.voteFixCnt = s.dev.voteFixCnt := by unfold drive; dsimp only; split <;> rfl
@[simp] theorem drive_dev_voteFailCnt (s : State) : (drive s).dev.voteFailCnt = s.dev.voteFailCnt := by unfold drive; dsimp only; split <;> rfl
@[simp] theorem drive_dev_badAccess (s : State) : (drive s).dev.badAccess = s.dev.badAccess := by unfold drive; dsimp only; split <;> rfl

/-- FAULT_N after every step. -/
theorem drive_faultN (s : State) : (drive s).dev.faultN = faultPin s := by
  unfold drive faultPin; dsimp only; split <;> rfl

/-- Away from a handover the pins change nothing but FAULT_N. -/
theorem drive_ctl (s : State) (h : s.ctl.handover = false) : (drive s).ctl = s.ctl := by
  unfold drive; dsimp only; rw [h]; rfl

/-! ### The state a step of the form `run` ends in -/

theorem run_eq (s : State) (f : State → State) : run s f = .next (settled s (f (begun s))) := rfl

@[simp] theorem settled_pending (s u : State) : (settled s u).pending = s.pending := rfl
@[simp] theorem settled_evs (s u : State) : (settled s u).evs = [] := by simp [settled]

@[simp] theorem settled_free (s u : State) : (settled s u).free = u.free := by simp [settled]
@[simp] theorem settled_mere (s u : State) : (settled s u).mere = u.mere := by simp [settled]
@[simp] theorem settled_grid (s u : State) : (settled s u).grid = u.grid := by simp [settled]
@[simp] theorem settled_mbx (s u : State) : (settled s u).mbx = u.mbx := by simp [settled]
@[simp] theorem settled_tenants (s u : State) : (settled s u).tenants = u.tenants := by simp [settled]
@[simp] theorem settled_streams (s u : State) : (settled s u).streams = u.streams := by simp [settled]
@[simp] theorem settled_tbs (s u : State) : (settled s u).tbs = u.tbs := by simp [settled]
@[simp] theorem settled_tsPorts (s u : State) : (settled s u).tsPorts = u.tsPorts := by simp [settled]
@[simp] theorem settled_cal (s u : State) : (settled s u).cal = u.cal := by simp [settled]
@[simp] theorem settled_clk (s u : State) : (settled s u).clk = u.clk := by simp [settled]
@[simp] theorem settled_cway (s u : State) : (settled s u).cway = u.cway := by simp [settled]
@[simp] theorem settled_chain (s u : State) : (settled s u).chain = u.chain := by simp [settled]
@[simp] theorem settled_health (s u : State) : (settled s u).health = u.health := by simp [settled]
@[simp] theorem settled_tarn (s u : State) : (settled s u).tarn = u.tarn := by simp [settled]
@[simp] theorem settled_sched (s u : State) : (settled s u).sched = u.sched := by simp [settled]
@[simp] theorem settled_tasks (s u : State) : (settled s u).tasks = u.tasks := by simp [settled]
@[simp] theorem settled_netGroups (s u : State) : (settled s u).netGroups = u.netGroups := by simp [settled]
@[simp] theorem settled_netPorts (s u : State) : (settled s u).netPorts = u.netPorts := by simp [settled]
@[simp] theorem settled_inlet (s u : State) : (settled s u).inlet = u.inlet := by simp [settled]
@[simp] theorem settled_filters (s u : State) : (settled s u).filters = u.filters := by simp [settled]
@[simp] theorem settled_fld (s u : State) : (settled s u).fld = u.fld := by simp [settled]
@[simp] theorem settled_keys (s u : State) : (settled s u).keys = u.keys := by simp [settled]
@[simp] theorem settled_gpioKeys (s u : State) : (settled s u).gpioKeys = u.gpioKeys := by simp [settled]
@[simp] theorem settled_lps (s u : State) : (settled s u).lps = u.lps := by simp [settled]
@[simp] theorem settled_refs (s u : State) : (settled s u).refs = u.refs := by simp [settled]
@[simp] theorem settled_syns (s u : State) : (settled s u).syns = u.syns := by simp [settled]
@[simp] theorem settled_twin (s u : State) : (settled s u).twin = u.twin := by simp [settled]
@[simp] theorem settled_gpio (s u : State) : (settled s u).gpio = u.gpio := by simp [settled]
@[simp] theorem settled_i2c (s u : State) : (settled s u).i2c = u.i2c := by simp [settled]
@[simp] theorem settled_eddyBanks (s u : State) : (settled s u).eddyBanks = u.eddyBanks := by simp [settled]
@[simp] theorem settled_poolBanks (s u : State) : (settled s u).poolBanks = u.poolBanks := by simp [settled]
@[simp] theorem settled_pwr (s u : State) : (settled s u).pwr = u.pwr := by simp [settled]
@[simp] theorem settled_votes (s u : State) : (settled s u).votes = u.votes := by simp [settled]
@[simp] theorem settled_ctl_stage (s u : State) : (settled s u).ctl.stage = u.ctl.stage := by simp [settled]
@[simp] theorem settled_ctl_source (s u : State) : (settled s u).ctl.source = u.ctl.source := by simp [settled]
@[simp] theorem settled_ctl_slot (s u : State) : (settled s u).ctl.slot = u.ctl.slot := by simp [settled]
@[simp] theorem settled_ctl_trial (s u : State) : (settled s u).ctl.trial = u.ctl.trial := by simp [settled]
@[simp] theorem settled_ctl_svn (s u : State) : (settled s u).ctl.svn = u.ctl.svn := by simp [settled]
@[simp] theorem settled_ctl_rollback (s u : State) : (settled s u).ctl.rollback = u.ctl.rollback := by simp [settled]
@[simp] theorem settled_ctl_failCode (s u : State) : (settled s u).ctl.failCode = u.ctl.failCode := by simp [settled]
@[simp] theorem settled_ctl_pairs (s u : State) : (settled s u).ctl.pairs = u.ctl.pairs := by simp [settled]
@[simp] theorem settled_ctl_mgmtDown (s u : State) : (settled s u).ctl.mgmtDown = u.ctl.mgmtDown := by simp [settled]
@[simp] theorem settled_ctl_handover (s u : State) : (settled s u).ctl.handover = u.ctl.handover := by simp [settled]
@[simp] theorem settled_ctl_failover (s u : State) : (settled s u).ctl.failover = u.ctl.failover := by simp [settled]
@[simp] theorem settled_ctl_hostUp (s u : State) : (settled s u).ctl.hostUp = u.ctl.hostUp := by simp [settled]
@[simp] theorem settled_ctl_inFlight (s u : State) : (settled s u).ctl.inFlight = u.ctl.inFlight := by simp [settled]
@[simp] theorem settled_ctl_rrNext (s u : State) : (settled s u).ctl.rrNext = u.ctl.rrNext := by simp [settled]
@[simp] theorem settled_ctl_pf0Turn (s u : State) : (settled s u).ctl.pf0Turn = u.ctl.pf0Turn := by simp [settled]
@[simp] theorem settled_ctl_slots (s u : State) : (settled s u).ctl.slots = u.ctl.slots := by simp [settled]
@[simp] theorem settled_ctl_preferred (s u : State) : (settled s u).ctl.preferred = u.ctl.preferred := by simp [settled]
@[simp] theorem settled_ctl_version (s u : State) : (settled s u).ctl.version = u.ctl.version := by simp [settled]
@[simp] theorem settled_ctl_chain (s u : State) : (settled s u).ctl.chain = u.ctl.chain := by simp [settled]
@[simp] theorem settled_ctl_sessions (s u : State) : (settled s u).ctl.sessions = u.ctl.sessions := by simp [settled]
@[simp] theorem settled_ctl_authDrop (s u : State) : (settled s u).ctl.authDrop = u.ctl.authDrop := by simp [settled]
@[simp] theorem settled_ctl_pend (s u : State) : (settled s u).ctl.pend = u.ctl.pend := by simp [settled]
@[simp] theorem settled_ctl_removed (s u : State) : (settled s u).ctl.removed = u.ctl.removed := by simp [settled]
@[simp] theorem settled_dev_rstCause (s u : State) : (settled s u).dev.rstCause = u.dev.rstCause := by simp [settled]
@[simp] theorem settled_dev_straps (s u : State) : (settled s u).dev.straps = u.dev.straps := by simp [settled]
@[simp] theorem settled_dev_held (s u : State) : (settled s u).dev.held = u.dev.held := by simp [settled]
@[simp] theorem settled_dev_thermal (s u : State) : (settled s u).dev.thermal = u.dev.thermal := by simp [settled]
@[simp] theorem settled_dev_tripped (s u : State) : (settled s u).dev.tripped = u.dev.tripped := by simp [settled]
@[simp] theorem settled_dev_resetDue (s u : State) : (settled s u).dev.resetDue = u.dev.resetDue := by simp [settled]
@[simp] theorem settled_dev_safe (s u : State) : (settled s u).dev.safe = u.dev.safe := by simp [settled]
@[simp] theorem settled_dev_bootHalt (s u : State) : (settled s u).dev.bootHalt = u.dev.bootHalt := by simp [settled]
@[simp] theorem settled_dev_voteFail (s u : State) : (settled s u).dev.voteFail = u.dev.voteFail := by simp [settled]
@[simp] theorem settled_dev_voteFixCnt (s u : State) : (settled s u).dev.voteFixCnt = u.dev.voteFixCnt := by simp [settled]
@[simp] theorem settled_dev_voteFailCnt (s u : State) : (settled s u).dev.voteFailCnt = u.dev.voteFailCnt := by simp [settled]
@[simp] theorem settled_dev_badAccess (s u : State) : (settled s u).dev.badAccess = u.dev.badAccess := by simp [settled]

@[simp] theorem settled_faultN (s u : State) : (settled s u).dev.faultN = faultPin u := by
  simp only [settled, drive_faultN]; unfold faultPin; simp

@[simp] theorem faultPin_settled (s u : State) : faultPin (settled s u) = faultPin u := by
  unfold faultPin; simp

/-- Whatever a step of this form does, what it leaves is at rest. -/
theorem settled_atRest (s u : State) : AtRest (settled s u) := by simp [AtRest]

/-- A step that raises no event leaves host memory, queues, functions and messages as its effect left them. -/
theorem settled_quiet (s u : State) (h : u.evs = []) :
    (settled s u).host = u.host ∧ (settled s u).queues = u.queues ∧ (settled s u).fns = u.fns ∧ (settled s u).out = u.out := by
  simp [settled, flush_of_nil h]

end Sys2Proof.Machine
end

