-- ==== Sys2Proof/Laws/Tables.lean ====
section
/-! SUPPORT. Sparse tables and memories: reading after writing, and the canonical form that every operation keeps. -/
namespace Sys2Proof.Machine

/-! ### Tables -/

@[simp] theorem tget_nil {α : Type} (k : Nat) : tget ([] : Tbl α) k = none := rfl

@[simp] theorem tget_tset_self {α : Type} (t : Tbl α) (k : Nat) (v : α) : tget (tset t k v) k = some v := by
  induction t with
  | nil => simp [tset, tget]
  | cons p t ih =>
    obtain ⟨i, w⟩ := p
    unfold tset; split
    · simp [tget]
    · split
      · simp [tget]
      · rename_i h; have : ¬ i = k := fun e => h e.symm
        simp [tget, this, ih]

theorem tget_tset_ne {α : Type} (t : Tbl α) {k j : Nat} (v : α) (h : j ≠ k) : tget (tset t k v) j = tget t j := by
  induction t with
  | nil => simp [tset, tget, h.symm]
  | cons p t ih =>
    obtain ⟨i, w⟩ := p
    unfold tset; split
    · simp [tget, h.symm]
    · split
      · rename_i e; subst e; simp [tget, h.symm]
      · simp only [tget, ih]

theorem tget_tset {α : Type} (t : Tbl α) (k j : Nat) (v : α) : tget (tset t k v) j = if j = k then some v else tget t j := by
  split
  · rename_i h; rw [h, tget_tset_self]
  · rename_i h; rw [tget_tset_ne t v h]

@[simp] theorem tgetD_tset_self {α : Type} (t : Tbl α) (k : Nat) (v d : α) : tgetD (tset t k v) k d = v := by
  simp [tgetD]

theorem tgetD_tset_ne {α : Type} (t : Tbl α) {k j : Nat} (v d : α) (h : j ≠ k) : tgetD (tset t k v) j d = tgetD t j d := by
  simp [tgetD, tget_tset_ne t v h]

@[simp] theorem tset_tset_self {α : Type} (t : Tbl α) (k : Nat) (v w : α) : tset (tset t k v) k w = tset t k w := by
  induction t with
  | nil => simp [tset]
  | cons p t ih =>
    obtain ⟨i, x⟩ := p
    by_cases h1 : k < i
    · simp [tset, h1]
    · by_cases h2 : k = i
      · subst h2; simp [tset]
      · simp [tset, h1, h2, ih]

theorem tget_tmod_self {α : Type} (t : Tbl α) (k : Nat) (f : α → α) : tget (tmod t k f) k = (tget t k).map f := by
  unfold tmod; split
  · rename_i v h; simp [h]
  · rename_i h; simp [h]

theorem tget_tmod_ne {α : Type} (t : Tbl α) {k j : Nat} (f : α → α) (h : j ≠ k) : tget (tmod t k f) j = tget t j := by
  unfold tmod; split
  · rw [tget_tset_ne t _ h]
  · rfl

/-! ### The canonical form: keys strictly rising -/

/-- Keys strictly rising. -/
def Rising {α : Type} (t : Tbl α) : Prop := t.Pairwise (fun p q => p.1 < q.1)

theorem tset_mem {α : Type} {t : Tbl α} {k : Nat} {v : α} {p : Nat × α} (h : p ∈ tset t k v) : p = (k, v) ∨ p ∈ t := by
  induction t with
  | nil => simp [tset] at h; exact .inl h
  | cons q t ih =>
    obtain ⟨i, w⟩ := q
    unfold tset at h; split at h
    · simpa using h
    · split at h
      · simp at h; rcases h with h | h
        · exact .inl h
        · exact .inr (by simp [h])
      · simp at h; rcases h with h | h
        · exact .inr (by simp [h])
        · rcases ih h with h | h
          · exact .inl h
          · exact .inr (by simp [h])

theorem tdel_mem {α : Type} {t : Tbl α} {k : Nat} {p : Nat × α} (h : p ∈ tdel t k) : p ∈ t := by
  induction t with
  | nil => simp [tdel] at h
  | cons q t ih =>
    obtain ⟨i, w⟩ := q
    unfold tdel at h; split at h
    · simp [h]
    · simp at h; rcases h with h | h
      · simp [h]
      · simp [ih h]

theorem rising_tset {α : Type} {t : Tbl α} (k : Nat) (v : α) (h : Rising t) : Rising (tset t k v) := by
  induction t with
  | nil => simp [tset, Rising]
  | cons q t ih =>
    obtain ⟨i, w⟩ := q
    have h' := List.pairwise_cons.mp h
    unfold tset; split
    · rename_i hk
      refine List.pairwise_cons.mpr ⟨fun p hp => ?_, h⟩
      rcases List.mem_cons.mp hp with e | e
      · subst e; exact hk
      · exact Nat.lt_trans hk (h'.1 p e)
    · split
      · rename_i e; subst e; exact List.pairwise_cons.mpr ⟨h'.1, h'.2⟩
      · rename_i h1 h2
        refine List.pairwise_cons.mpr ⟨fun p hp => ?_, ih h'.2⟩
        rcases tset_mem hp with e | e
        · subst e; show i < k; omega
        · exact h'.1 p e

theorem rising_tdel {α : Type} {t : Tbl α} (k : Nat) (h : Rising t) : Rising (tdel t k) := by
  induction t with
  | nil => simp [tdel, Rising]
  | cons q t ih =>
    obtain ⟨i, w⟩ := q
    have h' := List.pairwise_cons.mp h
    unfold tdel; split
    · exact h'.2
    · exact List.pairwise_cons.mpr ⟨fun p hp => h'.1 p (tdel_mem hp), ih h'.2⟩

theorem tget_none_of_lt {α : Type} {t : Tbl α} {k : Nat} (h : ∀ p ∈ t, k < p.1) : tget t k = none := by
  induction t with
  | nil => rfl
  | cons q t ih =>
    obtain ⟨i, w⟩ := q
    have hi : k < i := h (i, w) (by simp)
    have : ¬ i = k := by omega
    simp only [tget, this, if_false]
    exact ih (fun p hp => h p (by simp [hp]))

theorem tget_tdel_self {α : Type} {t : Tbl α} (k : Nat) (h : Rising t) : tget (tdel t k) k = none := by
  induction t with
  | nil => rfl
  | cons q t ih =>
    obtain ⟨i, w⟩ := q
    have h' := List.pairwise_cons.mp h
    unfold tdel; split
    · rename_i e; subst e; exact tget_none_of_lt h'.1
    · rename_i e; simp [tget, e, ih h'.2]

theorem tget_tdel_ne {α : Type} (t : Tbl α) {k j : Nat} (h : j ≠ k) : tget (tdel t k) j = tget t j := by
  induction t with
  | nil => rfl
  | cons q t ih =>
    obtain ⟨i, w⟩ := q
    unfold tdel; split
    · rename_i e; subst e; simp [tget, h.symm]
    · simp only [tget, ih]

/-! ### Memories -/

/-- What the canonical form says. -/
theorem wf_iff {α : Type} [DecidableEq α] (d : α) (m : Tbl α) : Memory.wf d m = true ↔ Rising m ∧ ∀ p ∈ m, p.2 ≠ d := by
  simp [Memory.wf, Rising, List.all_eq_true]

theorem wf_nil {α : Type} [DecidableEq α] (d : α) : Memory.wf d ([] : Tbl α) = true := by simp [Memory.wf]

/-- A write keeps the canonical form. -/
theorem wf_mset {α : Type} [DecidableEq α] (d : α) {m : Tbl α} (a : Nat) (v : α) (h : Memory.wf d m = true) :
    Memory.wf d (mset d m a v) = true := by
  obtain ⟨h1, h2⟩ := (wf_iff d m).mp h
  unfold mset; split
  · exact (wf_iff d _).mpr ⟨rising_tdel a h1, fun p hp => h2 p (tdel_mem hp)⟩
  · rename_i hv
    refine (wf_iff d _).mpr ⟨rising_tset a v h1, fun p hp => ?_⟩
    rcases tset_mem hp with e | e
    · subst e; exact hv
    · exact h2 p e

/-- A write of bytes keeps the canonical form. -/
theorem wf_mwrite (bs : List Byte) : ∀ (m : List Host.Cell) (a : Nat), Memory.wf (0 : Byte) m = true → Memory.wf (0 : Byte) (mwrite m a bs) = true := by
  induction bs with
  | nil => intro m a h; exact h
  | cons b bs ih => intro m a h; exact ih _ _ (wf_mset 0 a b h)

/-- Reading what was written. -/
theorem mget_mset_self {α : Type} [DecidableEq α] (d : α) {m : Tbl α} (a : Nat) (v : α) (h : Rising m) : mget d (mset d m a v) a = v := by
  unfold mset mget; split
  · rename_i e; simp [tgetD, tget_tdel_self a h, e]
  · simp

/-- Every other address reads as before. -/
theorem mget_mset_ne {α : Type} [DecidableEq α] (d : α) (m : Tbl α) {a b : Nat} (v : α) (h : b ≠ a) : mget d (mset d m a v) b = mget d m b := by
  unfold mset mget; split
  · simp [tgetD, tget_tdel_ne m h]
  · simp [tgetD, tget_tset_ne m v h]

theorem rising_mset {α : Type} [DecidableEq α] (d : α) {m : Tbl α} (a : Nat) (v : α) (h : Rising m) : Rising (mset d m a v) := by
  unfold mset; split
  · exact rising_tdel a h
  · exact rising_tset a v h

theorem rising_mwrite (bs : List Byte) : ∀ (m : List Host.Cell) (a : Nat), Rising m → Rising (mwrite m a bs) := by
  induction bs with
  | nil => intro m a h; exact h
  | cons b bs ih => intro m a h; exact ih _ _ (rising_mset 0 a b h)

/-- Bytes outside a write read as before. -/
theorem mget_mwrite_out (bs : List Byte) : ∀ (m : List Host.Cell) (a b : Nat), (b < a ∨ a + bs.length ≤ b) → mget 0 (mwrite m a bs) b = mget 0 m b := by
  induction bs with
  | nil => intro m a b _; rfl
  | cons x bs ih =>
    intro m a b h
    simp only [List.length_cons] at h
    rw [mwrite, ih _ _ _ (by omega), mget_mset_ne _ _ _ (by omega)]

/-- Bytes inside a write read as written. -/
theorem mget_mwrite_in (bs : List Byte) : ∀ (m : List Host.Cell) (a i : Nat), Rising m → i < bs.length → mget 0 (mwrite m a bs) (a + i) = bs.getD i 0 := by
  induction bs with
  | nil => intro m a i _ h; simp at h
  | cons x bs ih =>
    intro m a i hm h
    cases i with
    | zero => rw [mwrite, mget_mwrite_out bs _ _ _ (by omega)]; simpa using mget_mset_self 0 a x hm
    | succ i =>
      have := ih (mset 0 m a x) (a + 1) i (rising_mset 0 a x hm) (by simpa using h)
      rw [mwrite, show a + (i + 1) = a + 1 + i by omega, this]; simp

end Sys2Proof.Machine
end

