-- ==== Sys2Proof/Laws/Scs.lean ====
section
/-! SUPPORT. What posting a command of the set does: on a mailbox that serves, the command is taken, executed and answered at once. -/
namespace Sys2Proof.Machine

theorem runRow (i : Instr) (k : Cmd) (r : Req) (s : State) (h : scsRow i = some (k, r)) : exec i s = runCmd k r s := by
  cases i <;> first
    | (simp only [scsRow, Option.some.injEq, Prod.mk.injEq] at h; obtain ⟨rfl, rfl⟩ := h; rfl)
    | (simp [scsRow] at h)

@[simp] theorem mbox_modMbx (s : State) (mb : Nat) (f : Mbx → Mbx) : mbox (modMbx s mb f) mb = f (mbox s mb) := by
  simp [mbox, modMbx]
@[simp] theorem modMbx_modMbx (s : State) (mb : Nat) (f g : Mbx → Mbx) : modMbx (modMbx s mb f) mb g = modMbx s mb (fun m => g (f m)) := by
  simp [modMbx]
theorem mbReady_modMbx (s : State) (mb n : Nat) (f : Mbx → Mbx) : mbReady (modMbx s n f) mb = mbReady s mb := rfl
theorem mbTenant_modMbx (s : State) (mb n : Nat) (f : Mbx → Mbx) : mbTenant (modMbx s n f) mb = mbTenant s mb := rfl
theorem mbManager_modMbx (s : State) (mb n : Nat) (f : Mbx → Mbx) : mbManager (modMbx s n f) mb = mbManager s mb := rfl

theorem idx1 {p : Nat} (h : p < 128) : ((p + 1) % 128 + 128 - p) % 128 = 1 := by omega
theorem idx0 {p : Nat} (h : p < 128) : (p + 128 - p) % 128 = 0 := by omega
theorem idxne {p : Nat} (h : p < 128) : (p + 1) % 128 ≠ p := by omega

/-- A mailbox put in the place of `mb`'s. -/
def putMbx (s : State) (mb : Nat) (m : Mbx) : State := { s with mbx := tset s.mbx mb m }
@[simp] theorem mbox_putMbx (s : State) (mb : Nat) (m : Mbx) : mbox (putMbx s mb m) mb = m := by simp [mbox, putMbx]
theorem mbox_putMbx_ne (s : State) {mb j : Nat} (m : Mbx) (h : j ≠ mb) : mbox (putMbx s mb m) j = mbox s j := tgetD_tset_ne _ _ _ h
@[simp] theorem modMbx_putMbx (s : State) (mb : Nat) (m : Mbx) (f : Mbx → Mbx) : modMbx (putMbx s mb m) mb f = putMbx s mb (f m) := by simp [modMbx, putMbx]
theorem modMbx_eq (s : State) (mb : Nat) (f : Mbx → Mbx) : modMbx s mb f = putMbx s mb (f (mbox s mb)) := rfl
@[simp] theorem turnTaken_mbx (mb : Nat) (s : State) : (turnTaken mb s).mbx = s.mbx := rfl
@[simp] theorem turnTaken_putMbx (mb j : Nat) (m : Mbx) (s : State) : turnTaken j (putMbx s mb m) = putMbx (turnTaken j s) mb m := rfl

/-- Another mailbox may start a command whatever is put in the place of `mb`'s. -/
theorem mayStart_putMbx_ne (s : State) {mb j : Nat} (m : Mbx) (h : j ≠ mb) : mayStart (putMbx s mb m) j = mayStart s j := by
  unfold mayStart; rw [mbox_putMbx_ne s m h]; rfl

/-- Every mailbox but PF0's has a place in the cycle. -/
theorem mem_mailboxOrder (i : Nat) {j : Nat} (h1 : 1 ≤ j) (h2 : j ≤ 518) : j ∈ mailboxOrder i := by
  simp only [mailboxOrder, range, List.mem_append, List.mem_map, List.mem_range]
  by_cases h : i ≤ j
  · exact .inl ⟨j - i, by omega, by omega⟩
  · exact .inr ⟨j - 1, by omega, by omega⟩

/-- A search that only `a` satisfies finds it. -/
theorem find_only {p : Nat → Bool} {a : Nat} (hp : p a = true) : ∀ {l : List Nat}, a ∈ l → (∀ b ∈ l, b ≠ a → p b = false) → l.find? p = some a := by
  intro l
  induction l with
  | nil => intro h; cases h
  | cons x xs ih =>
    intro hm ho
    by_cases hx : x = a
    · subst hx; simp [hp]
    · rw [List.find?_cons_of_neg (by simp [ho x (by simp) hx])]
      exact ih (by cases hm with | head => exact absurd rfl hx | tail _ h => exact h) (fun b hb => ho b (by simp [hb]))

/-- Where no mailbox may start, none of them may. -/
theorem nextMailbox_none {s : State} (h : nextMailbox s = none) {j : Nat} (hj : j = 0 ∨ j ∈ mailboxOrder s.ctl.rrNext) : mayStart s j = false := by
  unfold nextMailbox at h
  split at h
  · cases h
  · split at h
    · cases h
    · rename_i hf
      split at h
      · cases h
      · rename_i h0
        rcases hj with rfl | hj
        · simpa using h0
        · have := List.find?_eq_none.mp hf j hj; simpa using this

/-- The only mailbox that may start has its turn. -/
theorem nextMailbox_putMbx {s : State} {mb : Nat} {m : Mbx} (h : nextMailbox s = none) (hb : mb ≤ 518) (hm : mayStart (putMbx s mb m) mb = true) :
    nextMailbox (putMbx s mb m) = some mb := by
  have hr : (putMbx s mb m).ctl.rrNext = s.ctl.rrNext := rfl
  have ho : ∀ j, j ≠ mb → (j = 0 ∨ j ∈ mailboxOrder s.ctl.rrNext) → mayStart (putMbx s mb m) j = false := fun j hj hm' => by
    rw [mayStart_putMbx_ne s m hj]; exact nextMailbox_none h hm'
  unfold nextMailbox
  rw [hr]
  by_cases h0 : mb = 0
  · subst h0
    have : ∀ l : List Nat, (∀ x ∈ l, x = 0 ∨ mayStart (putMbx s 0 m) x = false) → (∃ b, l.find? (mayStart (putMbx s 0 m)) = some b ∧ b = 0) ∨ l.find? (mayStart (putMbx s 0 m)) = none := by
      intro l hl
      rcases hf : l.find? (mayStart (putMbx s 0 m)) with _ | b
      · exact .inr rfl
      · refine .inl ⟨b, rfl, ?_⟩
        rcases hl b (List.mem_of_find?_eq_some hf) with hb0 | hb0
        · exact hb0
        · have := List.find?_some hf; rw [hb0] at this; cases this
    rcases this (mailboxOrder s.ctl.rrNext) (fun x hx => by
      by_cases hx0 : x = 0
      · exact .inl hx0
      · exact .inr (ho x hx0 (.inr hx))) with ⟨b, hb', rfl⟩ | hn
    · split
      · rfl
      · rw [hb']
    · split
      · rfl
      · rw [hn]
  · have h00 : mayStart (putMbx s mb m) 0 = false := ho 0 (Ne.symm h0) (.inl rfl)
    simp only [h00, Bool.and_false, Bool.false_eq_true, if_false]
    rw [find_only hm (mem_mailboxOrder _ (by omega) hb) (fun b hb' hne => ho b hne (.inr hb'))]

theorem ringDoorbell_put {s : State} {mb : Nat} {m : Mbx} {i : Nat} (hr : mbReady s mb = true) (h1 : (i + 128 - m.pi) % 128 = 1) (h2 : (i + 128 - m.cmdCi) % 128 ≤ 64) :
    ringDoorbell (putMbx s mb m) mb i = putMbx s mb { m with dbResult := 0, pi := i } := by
  unfold ringDoorbell
  have : mbReady (putMbx s mb m) mb = true := hr
  simp only [mbox_putMbx, h1, this, Bool.not_true, Bool.false_eq_true, if_false]
  rw [if_neg (by omega), if_neg (by omega)]; simp

theorem ringTake_put {s : State} {mb : Nat} {m : Mbx} (hr : mbReady s mb = true) (h1 : m.cmdCi ≠ m.pi) (h2 : (m.cmdCi + 1 + 128 - m.rspCi) % 128 ≤ 64)
    (h3 : s.ctl.paused = false) (h4 : s.ctl.handover = false) :
    ringTake (putMbx s mb m) mb = putMbx s mb (m.take (rightsOf s mb)) := by
  unfold ringTake
  have h5 : mbReady (putMbx s mb m) mb = true := hr
  simp only [mbox_putMbx]
  rw [if_pos ⟨h1, h2, h5, by simp [putMbx, h3], by simp [putMbx, h4]⟩]; simp; rfl

/-- A mailbox whose one taken command may start. -/
theorem mayStart_put {s : State} {mb : Nat} {m : Mbx} {c : Taken} (ht : m.taken = [c]) (h1 : s.pwr.state = 0) (h2 : s.ctl.inFlight = none)
    (h3 : s.ctl.paused = false) (h4 : s.ctl.mgmtDown = false) (h5 : s.ctl.stage = 4) (h6 : bit c.desc.flags 1 = false ∨ s.ctl.pend.any (·.mb == mb) = false) :
    mayStart (putMbx s mb m) mb = true := by
  unfold mayStart
  simp only [mbox_putMbx, ht]
  simp only [putMbx, h1, h2, h3, h4, h5]
  rcases h6 with h | h <;> simp [h]

/-- A row posted to a mailbox that serves is executed and answered in the same step. -/
theorem runCmd_serves (k : Cmd) (r : Req) (s : State) (h : serves s r.mb = true) (hf : fenceFree k r s = true) :
    runCmd k r s = .next (settled s (respond (execCmd k r.mb (rightsOf s r.mb) (rowEntry k r s) r.carried r.readFails false false (rowStart k r s)).1 r.mb
      (execCmd k r.mb (rightsOf s r.mb) (rowEntry k r s) r.carried r.readFails false false (rowStart k r s)).2 ([], 0))) := by
  have hf' : bit (rowEntry k r s).flags 1 = false ∨ s.ctl.pend.any (·.mb == r.mb) = false := by
    simpa [fenceFree] using hf
  simp only [serves, Mbx.idle, awake, Bool.and_eq_true, beq_iff_eq, Bool.not_eq_true', decide_eq_true_eq, Option.isNone_iff_eq_none, List.isEmpty_iff] at h
  obtain ⟨⟨⟨⟨⟨⟨⟨⟨⟨h1, h2⟩, h3, h3'⟩, hst⟩, h4⟩, h5⟩, h6⟩, h7⟩, hn⟩, ⟨⟨⟨h8, h9⟩, h10⟩, h11⟩, h12⟩ := h
  have hw : ∀ v : State, v.pwr = s.pwr → wake v = v := by
    intro v hv; unfold wake; rw [hv]; simp [h3, h3']
  have hmd : s.ctl.mgmtDown = false := by
    unfold mbReady at h2; simp only [Bool.and_eq_true, Bool.not_eq_true'] at h2; exact h2.1
  have hrd : mbReady (begun s) r.mb = true := h2
  have hmb : mbox (begun s) r.mb = mbox s r.mb := rfl
  have hb : r.mb ≤ 518 := by simpa [mbExists] using h1
  -- the entry taken, and the mailbox after it
  generalize hE : (⟨rowEntry k r s, (rightsOf s r.mb).1, (rightsOf s r.mb).2, if 514 ≤ r.mb then some r.carried else none, ([], 0), false⟩ : Taken) = c
  have key : post k r (begun s) = startOne k r.mb c r.carried r.readFails (putMbx (begun s) r.mb { rowMbx k r s with taken := [c] }) := by
    unfold post
    simp only [h1, Bool.not_true, Bool.false_eq_true, if_false, modMbx_eq, hmb]
    generalize hq0 : (mbox s r.mb).putEntry (rowDesc k r) (if 514 ≤ r.mb then some r.carried else none) ([], 0) = q0
    have hq0' : q0 = { mbox s r.mb with
        cmd := mwrite (mbox s r.mb).cmd (((mbox s r.mb).pi % 64) * 64) (descBytes (rowDesc k r))
        side := if 514 ≤ r.mb then tset [] ((mbox s r.mb).pi % 64) (r.carried, [], 0) else [] } := by
      rw [← hq0]; unfold Mbx.putEntry; rw [h9, idx0 h8]
      by_cases h514 : 514 ≤ r.mb <;> simp [h514, h9, h11]
    have hp0 : q0.pi = (mbox s r.mb).pi := by rw [hq0']
    have hc0 : q0.cmdCi = (mbox s r.mb).pi := by rw [hq0']; exact h9
    have hr0 : q0.rspCi = (mbox s r.mb).rspCi := by rw [hq0']
    have ht0 : q0.taken = [] := by rw [hq0']; exact h10
    rw [ringDoorbell_put hrd (by rw [hp0]; exact idx1 h8) (by rw [hc0]; have := idx1 h8; omega), hw (putMbx (begun s) _ _) rfl]
    simp only [mbox_putMbx, if_neg (idxne h8)]
    rw [ringTake_put hrd (by simp only [hc0]; exact (idxne h8).symm) (by simpa [hc0, hr0] using h12) h6 h7]
    simp only [mbox_putMbx]
    have hent : ({ q0 with dbResult := 0, pi := ((mbox s r.mb).pi + 1) % 128 } : Mbx).take (rightsOf (begun s) r.mb)
        = { rowMbx k r s with taken := [c] } := by
      rw [← hE]
      unfold Mbx.take Mbx.entry rowMbx Mbx.posted rowEntry rowMbx Mbx.posted
      rw [hq0']
      have hrb : rightsOf (begun s) r.mb = rightsOf s r.mb := rfl
      by_cases h514 : 514 ≤ r.mb <;> simp [h514, h9, h10, h11, hrb, tset, tget, tdel, entryDesc]
    rw [hent]
    have hnx : nextMailbox (putMbx (begun s) r.mb { rowMbx k r s with taken := [c] }) = some r.mb := by
      refine nextMailbox_putMbx hn hb (mayStart_put (c := c) rfl h3 h5 h6 hmd h4 ?_)
      rw [← hE]; exact hf'
    simp only [hnx, and_true]
    rw [if_pos (by simp [rowMbx, Mbx.posted])]
  have hfin : startTurn r.mb (putMbx (begun s) r.mb { rowMbx k r s with taken := [c] }) = rowStart k r s := by
    have ht : (rowMbx k r s).taken = [] := h10
    unfold startTurn rowStart
    rw [turnTaken_putMbx, modMbx_putMbx]
    simp only [List.drop_succ_cons, List.drop_nil]
    rw [show ({ rowMbx k r s with taken := [] } : Mbx) = rowMbx k r s by rw [← ht]]
    rfl
  show run s (fun s => if s.clk.started then post k r s else s) = _
  unfold run settled
  have hcar : (c.carried.getD r.carried) = r.carried := by rw [← hE]; by_cases h514 : 514 ≤ r.mb <;> simp [h514]
  simp only [show ({ s with out := [] } : State) = begun s from rfl, hst, if_true, key]
  unfold startOne
  rw [hfin, hcar]
  subst hE
  rfl

end Sys2Proof.Machine
end

