-- ==== Sys2Proof/Laws/Steps.lean ====
section
/-! SUPPORT. Every command of the block, whatever it is, ends in a step of the one form `run`, or in the one fault. -/
namespace Sys2Proof.Machine

/-- How a command ends: a step of the form `run`, or the fault of a reserved field. -/
def Ends (x : Host.Outcome State Fault Refusal) (s : State) : Prop := (∃ f, x = run s f) ∨ ∃ o, x = .fault (.reservedTestControl o)

theorem ends_run (s : State) (f : State → State) : Ends (run s f) s := .inl ⟨f, rfl⟩

theorem ends_ite (c : Prop) [Decidable c] (o : Nat) (s : State) (f : State → State) :
    Ends (if c then .fault (.reservedTestControl o) else run s f) s := by
  split
  · exact .inr ⟨_, rfl⟩
  · exact .inl ⟨_, rfl⟩

theorem exec_ends (i : Instr) (s : State) : Ends (exec i s) s := by
  cases i
  case mbxDoorbell mb v => exact ends_ite _ _ _ _
  case mbxRspCiWrite mb v => exact ends_ite _ _ _ _
  case queueDoorbell a b c d => exact ends_ite _ _ _ _
  case weirCommitWrite v => exact ends_ite _ _ _ _
  case calCommitWrite v => exact ends_ite _ _ _ _
  case chainAddrWrite a v => exact ends_ite _ _ _ _
  case twinFenceWrite a v => exact ends_ite _ _ _ _
  case registerWrite p o z v => 
    unfold exec execRegisterWrite; dsimp only; split
    · exact .inr ⟨_, rfl⟩
    · exact .inl ⟨_, rfl⟩
  case w1cWrite p o z v => 
    unfold exec execW1cWrite; dsimp only; split
    · exact .inr ⟨_, rfl⟩
    · exact .inl ⟨_, rfl⟩
  case mgmtDown => unfold exec execMgmtDown; exact ends_run _ _
  case perst => unfold exec execPerst; exact ends_run _ _
  case thermalTrip => unfold exec execThermalTrip; exact ends_run _ _
  case thermalClear => unfold exec execThermalClear; exact ends_run _ _
  case backupPowerLoss => unfold exec execBackupPowerLoss; exact ends_run _ _
  case readiness => unfold exec execReadiness; exact ends_run _ _
  case xbStop => unfold exec execXbStop; exact ends_run _ _
  case holdoffTakeback => unfold exec execHoldoffTakeback; exact ends_run _ _
  case chainPartialWrite => unfold exec execChainPartialWrite; exact ends_run _ _
  case chainBusTimeout => unfold exec execChainBusTimeout; exact ends_run _ _
  case devRstKeyWrite => unfold exec execDevRstKeyWrite; exact ends_run _ _
  case armedLapse => unfold exec execArmedLapse; exact ends_run _ _
  case twinPeerOeHigh => unfold exec execTwinPeerOeHigh; exact ends_run _ _
  case apllRelock => unfold exec execApllRelock; exact ends_run _ _
  all_goals exact ends_run _ _

end Sys2Proof.Machine
end

