-- ==== Sys2Proof/Tests/Slice0.lean ====
section
/-! SUPPORT. Tests: ill-formed terms that the checks refuse, a state that meets the hypotheses of each statement, and one-step tests. -/
open Sys2Proof Sys2Proof.Machine
namespace Sys2Proof.Tests

-- One theorem at a time: side by side their threads ask for more memory than the check allows.
set_option Elab.async false

/-- A device that is ready and alone, in Run, with both oscillators and the root. -/
def up : State :=
  { State.reset with
    ctl := { State.reset.ctl with stage := 4, source := 0, hostUp := true }
    clk := { sosc := true, enA := true, enB := true, foscA := true, foscB := true, xa := true, root := true, sds := 7, enX := true, started := true, running := true } }

/-- The same with tenant 0, which may hold everything, bound to VF1. -/
def t0 : Tenant := { quota := ⟨262144, 393216, 393216, 1048576, 256, 131072, 14 * 2 ^ 30⟩, mclk := { inc := 48000 } }
def up1 : State := setBound { up with tenants := [(0, t0)] } 0 true

/-- A request to mailbox 0: TENANT, LENGTH, payload. -/
def rq (tenant len : Nat) (p : List Byte) : Req := ⟨0, ⟨0, 0, tenant, 1, len, 0, fit 48 p⟩, [], false⟩

/-- A request to mailbox 0 with an indirect payload at host address 64, and the state that holds it. -/
def rqi (tenant : Nat) (p : List Byte) : Req := ⟨0, ⟨0, 1, tenant, 1, p.length, 0, fit 48 (le8 64)⟩, [], false⟩
def held (s : State) (p : List Byte) : State := { s with host := mwrite [] 64 p }

/-- What commands name: a stream configuration (AAF, 48 kHz), an open stream, an event queue, a bus, a task. -/
def cfg0 : List Byte := fit 144 ([0, 5, 1, 4] ++ le2 6 ++ zb 4 ++ le2 96 ++ zb 4 ++ le4 0xFFFFFFFF ++ zb 14 ++ le2 0xFFFF ++ le4 0xFFFFFFFF ++ zb 8 ++ [0, 2])
def sR : Stream := { tenant := 0, cfg := cfg0, q := 0x40, lq := 1, live := true }
def q7 : Queue := { tenant := 0, lq := 3, typ := 7, ctx := some ⟨7, 2, 0, 2, 0, 4, 4, 0, 64, 0xFFFF, 1, 0, 0xFFFF⟩ }
def b0 : Bus := { lq := 5, q := 0x50, mixMinus := false, width := 2, rank := 0, late := false, gOut := 0, ramp := 0, parent := 0xFFFFFFFF, exclude := ⟨0, 0, 0⟩ }
def w0 : Task := { (default : Task) with tenant := 0, library := true, libId := 2, channels := 1, k := 1, inLq := 6, outLq := 7, stopped := true }
def upq : State := { up1 with queues := [(0x20, q7)] }
def ups : State := { up1 with streams := [(0, sR)], netGroups := [(0, { mode := 6 })] }
def upb : State := { ups with tenants := [(0, { t0 with mix := { t0.mix with buses := [(5, b0)] } })] }
def upt : State := { ups with tasks := [(0x60, w0)] }
def upn : State := { up1 with netGroups := [(0, { mode := 6 })] }
def upl : State := { up1 with lps := [(0x28, { tenant := 0, cfg := fit 48 [0x28, 4] }), (0x20, { tenant := 0 }), (0, { tenant := 0 })] }
def upf : State := { up1 with fld := [(0, { tenant := 0 })] }
def twin (r : Nat) : State := tripSet { up1 with dev := { up1.dev with straps := 8 } } .role r

/-! ### Rows of the command set that pass every check: the hypotheses of CommandThatPassesIsApplied, row by row. firmware.load is
the one row not shown: its checks read the image through uninterpreted functions (log entry 4). -/
theorem pass_device :
    passes (.deviceReset (rq 0xFFFF 0 [])) (up) = true
    ∧ passes (.deviceMailboxSet (rq 0xFFFF 24 [])) (up1) = true := by decide +kernel

theorem pass_tenant :
    passes (.tenantCreate (rq 0 32 [])) (up) = true
    ∧ passes (.tenantDestroy (rq 0 0 [])) (up1) = true
    ∧ passes (.tenantQuotaSet (rq 0 32 [])) (up1) = true
    ∧ passes (.tenantBind (rq 0 0 [])) (up1) = true
    ∧ passes (.tenantUnbind (rq 0 0 [])) (up1) = true
    ∧ passes (.tenantQuery (rq 0 1 [1])) (up1) = true := by decide +kernel

theorem pass_queue :
    passes (.queueCreate (rq 0 24 ([7, 0, 4, 4] ++ le4 0xFFFFFFFF ++ le8 64 ++ le2 0xFFFF ++ le2 1 ++ zb 4))) (up1) = true
    ∧ passes (.queueDestroy (rq 0 4 (le4 0x20))) (upq) = true
    ∧ passes (.queueQuery (rq 0 16 (le4 0x20))) (upq) = true
    ∧ passes (.queueStats (rq 0 16 (le4 0x20))) (upq) = true
    ∧ passes (.queueIntSet (rq 0 10 (le4 0x20 ++ le2 0xFFFF ++ le2 1))) (upq) = true
    ∧ passes (.queueIntMode (rq 0 1 [1])) (up1) = true := by decide +kernel

theorem pass_stream :
    passes (.streamOpen (rqi 0 cfg0)) (held upn cfg0) = true
    ∧ passes (.streamClose (rq 0 3 [])) (ups) = true
    ∧ passes (.streamModify (rq 0 8 [])) (ups) = true
    ∧ passes (.streamQuery (rq 0 16 [])) (ups) = true
    ∧ passes (.streamStats (rq 0 16 [])) (ups) = true
    ∧ passes (.streamKeySet (rqi 0 (fit 64 [0, 0, 0, 1]))) (held { ups with streams := [(0, { sR with cfg := patch cfg0 8 [8] })] } (fit 64 [0, 0, 0, 1])) = true := by decide +kernel

theorem pass_mediaClocks :
    passes (.mclkEstimatorSet (rq 0 10 [])) (ups) = true
    ∧ passes (.mclkModeSet (rq 0 6 [])) (ups) = true
    ∧ passes (.mclkStreamQuery (rq 0 16 [])) (ups) = true
    ∧ passes (.mclkBind (rq 0 48 [])) (up1) = true
    ∧ passes (.mclkQuery (rq 0 0 [])) (up1) = true
    ∧ passes (.mclkSynBind (rq 0xFFFF 6 [])) (up1) = true
    ∧ passes (.eddyQuery (rq 0xFFFF 0 [])) (up1) = true := by decide +kernel

theorem pass_mix :
    passes (.mixBusCreate (rq 0 24 ([0, 2, 0, 0] ++ le4 0xFFFFFFFF ++ zb 4 ++ le4 0xFFFFFFFF))) (up1) = true
    ∧ passes (.mixBusDestroy (rq 0 4 (le4 5))) (upb) = true
    ∧ passes (.mixBusSet (rqi 0 (fit 32 (le4 5 ++ le4 1)))) (held upb (fit 32 (le4 5 ++ le4 1))) = true
    ∧ passes (.mixKeyBind (rq 0 28 ([0, 0, 1, 1, 0] ++ zb 3 ++ le4 5))) ({ upb with fld := [(0, { tenant := 0 })] }) = true
    ∧ passes (.mixConfig (rq 0 5 [])) (up1) = true
    ∧ passes (.mixStats (rq 0 16 (le4 0xFFFFFFFF))) (up1) = true := by decide +kernel

theorem pass_tarn :
    passes (.tarnLoad (rqi 0 (fit 64 ([0, 2, 1, 1, 0xFF, 0] ++ le2 0xFFFF ++ zb 32 ++ le2 0xFFFF ++ [0xFF])))) (held ups (fit 64 ([0, 2, 1, 1, 0xFF, 0] ++ le2 0xFFFF ++ zb 32 ++ le2 0xFFFF ++ [0xFF]))) = true
    ∧ passes (.tarnUnload (rq 0 4 (le4 0x60))) (upt) = true
    ∧ passes (.tarnParam (rq 0 32 (le4 0x60))) (upt) = true
    ∧ passes (.tarnQuery (rq 0 16 (le4 0x60))) (upt) = true
    ∧ passes (.tarnRestart (rq 0 4 (le4 0x60))) (upt) = true
    ∧ passes (.tarnStats (rq 0 16 (le4 0x60))) (upt) = true := by decide +kernel

theorem pass_networkPorts :
    passes (.netModeSet (rq 0xFFFF 4 [0, 4, 0, 0])) (up1) = true
    ∧ passes (.netPortConfig (rq 0xFFFF 36 [])) (upn) = true
    ∧ passes (.netFilterSet (rq 0xFFFF 32 ([0, 4] ++ zb 6 ++ le2 0xFFFF))) (up1) = true
    ∧ passes (.netStats (rq 0xFFFF 16 [])) (upn) = true
    ∧ passes (.netTxAllow (rq 0xFFFF 3 [])) (up1) = true := by decide +kernel

theorem pass_fieldPorts :
    passes (.fldPortConfig (rq 0xFFFF 28 ([0, 1, 0, 2, 32, 0, 128, 0] ++ le2 64 ++ le2 0xFFFF ++ le4 0xFFFFFFFF ++ zb 8 ++ le2 100 ++ le2 1))) (up1) = true
    ∧ passes (.fldGpioKeySet (rq 0xFFFF 8 ([0, 0, 1, 0] ++ le2 0 ++ le2 1))) (up1) = true
    ∧ passes (.fldKeyQuery (rq 0 2 [0, 1])) (upf) = true
    ∧ passes (.fldStats (rq 0 16 [])) (upf) = true := by decide +kernel

theorem pass_localPorts :
    passes (.lpAssign (rq 0xFFFF 4 [])) (up1) = true
    ∧ passes (.saiConfig (rq 0 24 ([0, 0, 2, 16, 16, 0, 4, 0] ++ le2 0 ++ le2 16 ++ zb 8 ++ le4 0xFFFFFFFF))) (upl) = true
    ∧ passes (.aesConfig (rq 0 12 ([0x20, 4, 0, 0] ++ le2 16))) (upl) = true
    ∧ passes (.lpStart (rq 0 14 [0, 0, 0, 0, 0, 1])) (upl) = true
    ∧ passes (.lpStop (rq 0 6 [0, 0, 0, 0, 0, 1])) (upl) = true
    ∧ passes (.aesCsSet (rq 0 32 [0x28])) (upl) = true
    ∧ passes (.lpStats (rq 0 16 [])) (upl) = true := by decide +kernel

theorem pass_time :
    passes (.timeTbConfig (rq 0xFFFF 16 [])) (up1) = true
    ∧ passes (.timeAdjust (rq 0xFFFF 16 [0, 2])) (up1) = true
    ∧ passes (.timeQuery (rq 0 1 [])) (up1) = true
    ∧ passes (.timeCalSync (rq 0xFFFF 8 [])) ({ up1 with tbs := [(0, { valid := true })] }) = true
    ∧ passes (.timeSchedule (rq 0 30 ([0xFF, 1, 0, 0] ++ le8 131072000000))) (up1) = true := by decide +kernel

theorem pass_references :
    passes (.refConfig (rq 0xFFFF 33 ([0, 0, 0, 1] ++ le2 50 ++ le2 100 ++ le2 100 ++ le2 0 ++ le2 60 ++ le2 0 ++ [0xFF]))) (up1) = true
    ∧ passes (.refSelect (rq 0xFFFF 2 [])) (up1) = true
    ∧ passes (.refQuery (rq 0xFFFF 0 [])) (up1) = true
    ∧ passes (.refSynSet (rq 0xFFFF 4 [])) (up1) = true := by decide +kernel

theorem pass_twin :
    passes (.twinConfig (rq 0xFFFF 8 [])) (twin 2) = true
    ∧ passes (.twinSwitch (rq 0xFFFF 1 [1])) (twin 5) = true
    ∧ passes (.twinQuery (rq 0xFFFF 16 [])) (up1) = true
    ∧ passes (.twinClear (rq 0xFFFF 0 [])) (twin 4) = true
    ∧ passes (.twinProofSet (rq 0xFFFF 2 [])) (up1) = true := by decide +kernel

theorem pass_cascade :
    passes (.cascadeEnumerate (rq 0xFFFF 3 [2, 0, 1])) (up1) = true
    ∧ passes (.cascadeQuery (rq 0xFFFF 16 [])) (up1) = true
    ∧ passes (.cascadeForward (rqi 0xFFFF (fit 80 [1]))) (held { up1 with cway := { up1.cway with manager := true } } (fit 80 [1])) = true
    ∧ passes (.cascadeLegacySet (rq 0xFFFF 20 [])) (up1) = true := by decide +kernel

theorem pass_peripheralI2c :
    passes (.i2cXfer (rq 0xFFFF 16 []) 0 0 0 []) (up1) = true := by decide +kernel

theorem pass_power :
    passes (.powerToleranceSet (rq 0xFFFF 4 [])) (up1) = true
    ∧ passes (.powerQuery (rq 0xFFFF 0 [])) (up1) = true
    ∧ passes (.powerGateSet (rq 0xFFFF 4 (le2 5 ++ [2, 0]))) (up1) = true := by decide +kernel

theorem pass_health :
    passes (.healthQuery (rq 0xFFFF 16 [])) (up1) = true
    ∧ passes (.healthPolicySet (rq 0xFFFF 3 (le2 40 ++ [1]))) (up1) = true
    ∧ passes (.lakebedStoreRead (rq 0 16 (le2 0 ++ le2 1))) (up1) = true
    ∧ passes (.lakebedStoreWrite (rqi 0 (fit 80 (le2 0 ++ le2 1)))) (held up1 (fit 80 (le2 0 ++ le2 1))) = true
    ∧ passes (.healthLogRead (rq 0xFFFF 24 (le8 0 ++ le2 1))) (up1) = true
    ∧ passes (.healthSpareForce (rq 0xFFFF 4 [1])) (up1) = true := by decide +kernel

theorem pass_firmware :
    passes (.firmwareActivate (rq 0xFFFF 1 [1])) ({ up1 with ctl := { up1.ctl with slots := [(1, { verified := true })] } }) = true
    ∧ passes (.firmwareCommit (rq 0xFFFF 0 [])) (up1) = true
    ∧ passes (.firmwareStatus (rq 0xFFFF 0 [])) (up1) = true := by decide +kernel
/-! ### Ill-formed commands, one for each check, and well-formed ones beside them -/

def d0 : Desc := ⟨0, 0, 0, 1, 0, 0, fit 48 []⟩
def h0 : Heartbeat := ⟨2, 0, false, false, 0⟩
def v0 : TwinVals := { (default : TwinVals) with onTime := true }
def i0 : EnumInfo := ⟨1, 0, 1, [0], 0, 0, 4, false⟩
def pf0 : PinFrame := { (default : PinFrame) with bclks := 64, classOk := true }
def rx0 : RxFrame := { bytes := zb 60, fcsOk := true, eighth := 0 }

theorem wf_requests_refused :
    [⟨519, d0, [], false⟩, ⟨513, d0, [1], false⟩, ⟨0, { d0 with opcode := 65536 }, [], false⟩, ⟨0, { d0 with flags := 65536 }, [], false⟩,
      ⟨0, { d0 with tenant := 65536 }, [], false⟩, ⟨0, { d0 with tag := 65536 }, [], false⟩, ⟨0, { d0 with length := 2 ^ 32 }, [], false⟩,
      ⟨0, { d0 with rsvd := 2 ^ 32 }, [], false⟩, ⟨0, { d0 with payload := [] }, [], false⟩].all (fun r => !(Instr.tenantQuery r).wf) = true := by decide

theorem wf_requests_accepted : (Instr.tenantQuery ⟨518, d0, [1], false⟩).wf = true ∧ (Instr.i2cXfer ⟨0, d0, [], false⟩ 10 3 0 []).wf = true := by decide

theorem wf_mailboxes_and_queues_refused :
    [Instr.i2cXfer ⟨0, d0, [], false⟩ 11 0 0 [], .i2cXfer ⟨0, d0, [], false⟩ 0 4 0 [], .mbxDoorbell 519 0, .mbxRspCiWrite 519 0, .cmdTake 519,
      .netControlDatagram 4 0 [] (zb 16) (zb 4) 0, .netControlDatagram 0 (2 ^ 64) [] (zb 16) (zb 4) 0, .netControlDatagram 0 0 [] (zb 15) (zb 4) 0,
      .netControlDatagram 0 0 [] (zb 16) (zb 5) 0, .netControlDatagram 0 0 [] (zb 16) (zb 4) 65536, .mgmtFailover 3 [] false, .queueDoorbell 513 0 8 0,
      .queueDoorbell 0 (2 ^ 23) 8 0, .queueDoorbell 0 0 9 0, .coalTimeExpiry (2 ^ 20), .hostTxFrame (2 ^ 20), .vfFlr 0, .vfFlr 513].all (!·.wf) = true := by decide

theorem wf_clocks_streams_and_network_refused :
    [Instr.foscQualWindow 2 0, .missingEdgeTrip 5, .swTimeout 338, .lcPllFail 4 none, .lcPllRequalify 4 0, .frameBoundary 512, .estimatorWindow 65536, .netRxFrame 8 rx0,
      .netRxFrame 0 { rx0 with bytes := zb 13 }, .netRxFrame 0 { rx0 with eighth := 8 }, .noPacketForL 65536, .legIdleTimeout 65536 0, .legIdleTimeout 0 2,
      .calendarSlot 65536 0, .calendarSlot 0 2, .netLinkChange 8 true false false, .netModeDone 3, .pllCalDone 2, .adaptDone 8, .txnrHoldExpiry 8 0,
      .txnrHoldExpiry 0 8, .pauseHoldExpiry 8 0, .pauseHoldExpiry 0 8, .pauseWdExpiry 8 0, .pauseWdExpiry 0 8, .wdHoldExpiry 8 0, .wdHoldExpiry 0 8,
      .lpiIdleExpiry 8, .receiveLpiChange 8 true, .lpiWakeTimeExpiry 8].all (!·.wf) = true := by decide

theorem wf_field_and_local_ports_refused :
    [Instr.fldRxFrame 16 .beacon, .fldRxFrame 0 (.frame rx0 255), .plcaBeaconTimeout 16, .beaconResume 16, .plcaCycle 16 false, .fldPacketDeadline 16,
      .collision 16 false, .backoffExpiry 16, .keyTimeout 16 0, .keyTimeout 0 256, .stuckTimeExpiry 2 0 0 0, .stuckTimeExpiry 0 32 0 0, .stuckTimeExpiry 0 0 256 0,
      .stuckTimeExpiry 0 0 0 256, .gpioDebounceAccept 32 true, .gpioInputChange 32 true, .lpTrigger 48, .lpPinFrame 48 pf0,
      .lpPinFrame 0 { pf0 with din := List.replicate 65 false }, .lpPinFrame 0 { pf0 with din2 := List.replicate 65 false },
      .lpPinFrame 0 { pf0 with words := [0, 0, 0] }, .lpPinFrame 0 { pf0 with parity := [true, true, true] },
      .lpPinFrame 0 { pf0 with validity := [true, true, true] }, .lpPinFrame 0 { pf0 with watched := List.replicate 33 0 }, .unmuteCountDone 48, .lpStopDone 48 false,
      .lpClockLoss 48, .rateMeasure 48 0, .rateMeasure 0 (2 ^ 22), .aesLock 8, .aesBlockEnd 8 (zb 24) (zb 24) false, .aesBlockEnd 0 (zb 23) (zb 24) false,
      .aesBlockEnd 0 (zb 24) (zb 23) false, .aesSettleExpiry 8, .aesLockLoss 8].all (!·.wf) = true := by decide

theorem wf_time_twin_and_cascade_refused :
    [Instr.schedEntryFire 64, .tbSlewDone 16, .tbAnchorWrite 16 0 0, .tbAnchorWrite 0 (2 ^ 48) 0, .tbAnchorWrite 0 0 1000000000, .refWindow 66 true 0,
      .refActivityLoss 66, .synRelockDone 8, .heartbeatRx 0 h0, .heartbeatRx 1 { h0 with state := 6 }, .heartbeatRx 2 { h0 with epoch := 256 }, .hbPathMiss 3,
      .lineWatchClaim 48 0, .lineWatchClaim 0 32, .twinValuesRx { v0 with tenant := 512 }, .twinValuesRx { v0 with streams := [{ (default : TwinStream) with stream := 65536 }] },
      .twinValuesRx { v0 with streams := [{ (default : TwinStream) with slip := 3 }] }, .twinValuesRx { v0 with rings := [(2 ^ 20, [])] }, .twinValuesRx { v0 with acts := [⟨64, 0, false, none⟩] }, .twinValuesRx { v0 with buses := [2 ^ 18] },
      .twinValuesRx { v0 with queues := [2 ^ 18] }, .twinValuesRx { v0 with ports := [(48, false)] },
      .shadowCompareRx 512 0 [] false, .cwLinkUp 4, .cwLaneDown 4 [] false, .cwLaneDown 0 [0] false, .cwLaneDown 0 [64] false, .enumRequest 4,
      .enumResponse { i0 with ident := 2 ^ 64 }, .enumResponse { i0 with lane := 4 }, .enumResponse { i0 with hops := 64 }, .enumResponse { i0 with path := [4] },
      .enumResponse { i0 with twinId := 4 }, .enumResponse { i0 with bootSel := 4 }, .enumResponse { i0 with stage := 16 }, .fwdResponseRx 64 (zb 32),
      .fwdResponseRx 0 (zb 31), .fwdTimeout 64, .chainAddrWrite 128 0, .ptpMasterLoss 16, .timeTransferRx 16 0, .cascadeLegFrameRx 4 0 (zb 8) [],
      .cascadeLegFrameRx 0 64 (zb 8) [], .cascadeLegFrameRx 0 0 (zb 7) [], .mirrorWrite 512, .xbTick 0, .xbTick 32769, .supplyDrop 6].all (!·.wf) = true := by decide

theorem wf_memory_cores_and_registers_refused :
    [Instr.telemetryTick [(338, 0)] [], .scrubRead (.jitter 65536 0) 0 false false, .scrubRead (.queueCtx (2 ^ 20)) 0 false false, .scrubRead (.eddyState 65536) 0 false false,
      .scrubRead (.poolState (2 ^ 20)) 0 false false, .scrubRead (.tarnLocal 272 0) 0 false false, .scrubRead (.tarnCluster 16 0) 0 false false,
      .scrubRead (.tarnImem 272 0) 0 false false, .scrubRead (.tarnImem 0 16384) 0 false false, .scrubRead (.hbmWindow (2 ^ 20) 0) 0 false false, .residueCheckFail 1 0,
      .residueCheckFail 2 13, .tarnRunStart (2 ^ 20), .tarnRunEnd (2 ^ 20), .tarnSpareTakeover 16 0, .tarnSpareTakeover 0 17, .tarnCoreFail 16 0, .tarnCoreFail 0 17,
      .interruptEntry 272, .dmaDone 272 0 0 false, .dmaDone 0 4 0 false, .lakebedWearPass [2 ^ 20] [], .lakebedWearPass [] [2 ^ 20],
      .configMirrorRx (rq 0 0 []) (2 ^ 48), .tNop 272, .registerWrite (.vf 0) 0 8 0, .registerWrite (.vf 513) 0 8 0,
      .registerWrite .pf 0 9 0, .w1cWrite .pf 0 9 0, .w1cWrite (.vf 0) 0 8 0, .counterLowRead (.vf 513) 0, .devRstKeyWrite (.vf 0) 0, .twinFenceWrite (.vf 513) 0].all (!·.wf) = true := by decide

theorem wf_at_the_bounds_accepted :
    [Instr.mbxDoorbell 518 0, .queueDoorbell 512 (2 ^ 23 - 1) 8 0, .vfFlr 1, .vfFlr 512, .swTimeout 337, .frameBoundary 511, .netRxFrame 7 { rx0 with eighth := 7 },
      .calendarSlot 65535 1, .fldRxFrame 15 (.frame rx0 254), .keyTimeout 15 255, .lpPinFrame 47 pf0, .rateMeasure 47 (2 ^ 22 - 1), .aesBlockEnd 7 (zb 24) (zb 24) true,
      .schedEntryFire 63, .tbAnchorWrite 15 (2 ^ 48 - 1) 999999999, .refWindow 65 true 0, .heartbeatRx 2 { h0 with epoch := 255, state := 5 },
      .enumResponse { i0 with lane := 3, hops := 63 }, .fwdResponseRx 63 (zb 16), .fwdResponseRx 63 (zb 32), .scrubRead (.tarnImem 271 16383) 0 true true,
      .residueCheckFail 3 12, .tNop 271, .registerWrite (.vf 512) 0 8 0].all (·.wf) = true := by decide
/-! ### The hypotheses of each statement, met by a state -/

/-- The outcome is a next state. -/
def isNext (o : Host.Outcome State Fault Refusal) : Bool := match o with | .next _ => true | _ => false
/-- The checks fail, or the row is only tried. -/
def verdictIs (dry : Bool) (i : Instr) (s : State) : Bool :=
  match scsRow i with
  | some (k, r) => serves s r.mb && fenceFree k r s && (match rowCheck k r s with | .go _ c => dry && c.dry | .fail _ _ _ => !dry)
  | none => false

theorem met_steps : State.reset.pending = [] ∧ isNext (step { up1 with pending := [.xbTick 32768] }) = true
    ∧ isNext (Host.Core.run Sys2Proof.core 2 { up1 with pending := [.xbTick 1, .xbStop] }) = true ∧ ({ up1 with evs := [] } : State).evs = [] := by decide +kernel

theorem met_MemoryAndDescriptors : Memory.wf (0 : Byte) [⟨3, 5⟩] = true ∧ (1 : Nat) < [(1 : Byte), 2].length ∧ ((2 : Nat) < 3 ∨ 3 + 2 ≤ 2) ∧ Memory.wf (0 : Byte) ({} : Mbx).cmd = true
    ∧ descFits { d0 with opcode := 65535, flags := 65535, tenant := 65535, tag := 65535, length := 2 ^ 32 - 1, rsvd := 2 ^ 32 - 1 } = true := by decide +kernel

theorem met_PostedRows : serves up1 0 = true ∧ serves { up1 with ctl := { up1.ctl with sessions := [(3, { rights := 1 })] } } 518 = true ∧ verdictIs false (.tenantBind (rq 5 0 [])) up1 = true
    ∧ verdictIs true (.tenantBind ⟨0, { d0 with flags := 8 }, [], false⟩) up1 = true ∧ passes (.tenantQuery (rq 0 1 [1])) (twin 2) = true ∧ follows (twin 2) = false := by decide +kernel

/-- Mailbox 0 with a queue of commands that is full. -/
def upFull : State := { up1 with mbx := [(0, { pi := 63, cmdCi := 0 })] }
theorem met_MailboxDoorbell : mbReady up1 0 = true ∧ awake up1 = true ∧ up1.clk.started = true
    ∧ (1 ≤ (64 + 128 - (mbox up1 0).pi) % 128 ∧ (64 + 128 - (mbox up1 0).pi) % 128 ≤ 64 ∧ (64 + 128 - (mbox up1 0).cmdCi) % 128 ≤ 64)
    ∧ (1 ≤ (65 + 128 - (mbox upFull 0).pi) % 128 ∧ (65 + 128 - (mbox upFull 0).pi) % 128 ≤ 64 ∧ 64 < (65 + 128 - (mbox upFull 0).cmdCi) % 128)
    ∧ (0 + 128 - (mbox up1 0).pi) % 128 = 0 ∧ 65 ≤ (65 + 128 - (mbox up1 0).pi) % 128 ∧ mbReady upFull 0 = true ∧ awake upFull = true ∧ upFull.clk.started = true
    ∧ bits (0x80 : BitVec 64).toNat 15 7 ≠ 0 ∧ bits (2 ^ 32 : BitVec 64).toNat 63 32 ≠ 0 ∧ bits (0x80 : BitVec 32).toNat 31 7 ≠ 0 := by decide +kernel

theorem met_ResponseConsumerIndex : ¬ ((1 + 128 - (mbox up1 0).rspCi) % 128 ≤ ((mbox up1 0).rspPi + 128 - (mbox up1 0).rspCi) % 128)
    ∧ (0 + 128 - (mbox up1 0).rspCi) % 128 ≤ ((mbox up1 0).rspPi + 128 - (mbox up1 0).rspCi) % 128
    ∧ (mbox upFull 0).cmdCi ≠ (mbox upFull 0).pi ∧ ((mbox upFull 0).cmdCi + 1 + 128 - (mbox upFull 0).rspCi) % 128 ≤ 64 ∧ mbReady upFull 0 = true
    ∧ upFull.ctl.paused = false ∧ upFull.ctl.handover = false ∧ (mbox up1 0).cmdCi = (mbox up1 0).pi := by decide +kernel

def tk0 : Taken := { desc := d0, mgr := true, own := none }
def upTaken : State := { up1 with mbx := [(0, { pi := 1, cmdCi := 1, taken := [tk0] })] }
def upCtl (f : Ctl → Ctl) : State := { up1 with ctl := f up1.ctl }
def fl0 : InFlight := ⟨0, tk0, true, zb 32⟩
theorem met_ManagementPairs : upTaken.clk.started = true ∧ nextMailbox (begun upTaken) = some 0 ∧ (mbox upTaken 0).taken = [tk0] ∧ tk0.quiet = false
    ∧ (up1.ctl.mgmtDown = false ∧ up1.ctl.failover = false ∧ 1 < up1.ctl.pairs)
    ∧ ((upCtl ({ · with failover := true })).ctl.failover = true ∧ (upCtl ({ · with failover := true })).ctl.inFlight = none)
    ∧ (upCtl ({ · with failover := true, inFlight := some fl0 })).ctl.inFlight = some fl0 ∧ fl0.committed = true ∧ fl0.cmd.quiet = false
    ∧ (upCtl ({ · with mgmtDown := true })).ctl.mgmtDown = true ∧ awake (upCtl ({ · with mgmtDown := true })) = true := by decide +kernel

def upSes (s : Session) : State := upCtl ({ · with sessions := [(3, s)] })
theorem met_ControlDatagram : up1.clk.running = true ∧ up1.ctl.mgmtDown = false ∧ up1.ctl.stage = 4 ∧ (tgetD up1.ctl.sessions 3 {}).rights = 0
    ∧ (tgetD (upSes { rights := 1 }).ctl.sessions 3 {}).rights ≠ 0 ∧ (tgetD (upSes { rights := 1 }).ctl.sessions 3 {}).rxSeq = none
    ∧ (tgetD (upSes { rights := 1, rxSeq := some 7 }).ctl.sessions 3 {}).rxSeq = some 7 ∧ (7 : Nat) < 8 ∧ ¬ (7 : Nat) < 7
    ∧ ((mbox (upSes { rights := 1 }) 518).pi + 128 - (mbox (upSes { rights := 1 }) 518).cmdCi) % 128 < 64 ∧ (mbox (upSes { rights := 1 }) 518).pi < 128 := by decide +kernel

/-- A datagram that carries the tag of its session authenticates, and one with another tag does not. -/
theorem met_ControlDatagram_tags (ss : Session) (seq : Nat) (body : List Byte) (t : List Byte) (ht : t ≠ gcmTag (ctlKey ss) (ctlNonce false seq) (Config.ctlAad false seq) body) :
    (gcmTag (ctlKey ss) (ctlNonce false seq) (Config.ctlAad false seq) body == gcmTag (ctlKey ss) (ctlNonce false seq) (Config.ctlAad false seq) body) = true
    ∧ (t == gcmTag (ctlKey ss) (ctlNonce false seq) (Config.ctlAad false seq) body) = false := by
  simp [ht]

def fw (p : PendWhat) (paused : Bool) : State :=
  upCtl (fun c => { c with paused := paused, pend := [⟨0, 0x0F01, 1, 0xFFFF, p, [.image], false⟩], slots := [(0, { verified := true, factory := true }), (1, { verified := true, factory := true })] })
theorem met_FirmwareReplacement : (∀ p ∈ (fw (.fwLoad 1 []) false).ctl.pend, p.what = .fwLoad 1 []) ∧ (fw (.fwLoad 1 []) false).ctl.pend.length = 1 ∧ (fw (.fwLoad 1 []) false).clk.started = true
    ∧ regionReadOnly (fw (.fwLoad 1 []) false) 0 = false ∧ (fw (.fwActivate 1) true).ctl.pend.length = 1 ∧ (∀ p ∈ (fw (.fwActivate 1) true).ctl.pend, p.what = .fwActivate 1)
    ∧ (fw (.fwActivate 1) true).ctl.paused = true ∧ slotCheck (fw (.fwActivate 1) true) 1 = 0 ∧ (fw (.fwActivate 1) true).ctl.failover = false := by decide +kernel

/-- Rings of tenant 0: event queue 0x20, host rings 0x21 (transmit) and 0x22 (receive), each of 16 entries. -/
def ring (t : Nat) : Queue := { tenant := 0, lq := t, typ := t, ctx := some ⟨t, 2, 0, 2, 0, 4, 4, 0, 64, 3, 1, 10, 0xFFFF⟩ }
def rings : Tbl Queue :=
  [(0x20, { q7 with ctx := some ⟨7, 2, 0, 2, 0, 4, 4, 0, 64, 3, 4, 10, 0xFFFF⟩, unsig := 1, armed := true }), (0x21, { ring 5 with pi := 1 }), (0x22, { ring 6 with pi := 1 }),
    (0x23, { ring 5 with pi := 16 })]
def upr : State := { up1 with fns := [(0, {}), (1, {})], host := [⟨68, 1⟩], queues := rings }
theorem met_QueueDoorbells : awake upr = true ∧ upr.clk.started = true ∧ upr.clk.running = true ∧ bellSlot upr 0 (8 * 3) = none ∧ bellSlot upr 0 (8 * 0x21) ≠ none ∧ bits (2 ^ 33) 63 33 ≠ 0
    ∧ (∃ q ∈ (tget upr.queues 0x21), ∃ c ∈ q.ctx, q.next = none ∧ q.typ = 5 ∧ q.destroy = false ∧ 0 < (16 + 32 - q.pi) % 32 ∧ occ q c + (16 + 32 - q.pi) % 32 ≤ 16
        ∧ running q = some c ∧ c.link = 0xFFFF ∧ fnUp upr (fnOf q.tenant) = true ∧ q.pi ≠ q.ci ∧ mget 0 upr.host (entryAddr c q.ci + 4) = 1)
    ∧ (∃ q ∈ (tget upr.queues 0x23), ∃ c ∈ q.ctx, q.typ = 5 ∧ 16 < occ q c + (17 + 32 - q.pi) % 32)
    ∧ (∃ q ∈ (tget upr.queues 0x22), ∃ c ∈ q.ctx, q.typ = 6 ∧ 0 < (1 + 32 - q.ci) % 32 ∧ (1 + 32 - q.ci) % 32 ≤ occ q c ∧ occ q c < (2 + 32 - q.ci) % 32)
    ∧ (∃ q ∈ (tget upr.queues 0x20), ∃ c ∈ running q, c.coalTime ≠ 0 ∧ q.unsig ≠ 0 ∧ q.armed = true ∧ q.destroy = false ∧ c.vector ≠ 0xFFFF) := by decide +kernel

theorem met_TenantsAndQuotas : [Instr.tenantQuotaSet (rq 0 32 []), .tenantBind (rq 0 0 []), .tenantUnbind (rq 0 0 []), .tenantDestroy (rq 0 0 []), .tenantQuery (rq 0 1 [2])].all (passes · up1) = true
    ∧ passes (.tenantCreate (rq 511 32 [])) up1 = true ∧ (tget up1.tenants 0).isSome = true ∧ ({ t0 with nextBound := some false } : Tenant).nextBound = some false := by decide +kernel

/-- A receive stream that plays, on an upper leg, and a transmit stream with a packet due. -/
def sA : Stream := { sR with rx := { sR.rx with active := true, anchored := true }, legA := { up := true } }
def cfgL (fmt port : Nat) : List Byte := patch (patch cfg0 48 (le1 port)) 1 (le1 fmt)
def sT : Stream := { sR with tx := { sR.tx with dueA := true, dueB := true, pkt := some ⟨zb 24, [], 0, false⟩ } }
def upS (st : Stream) : State := { ups with streams := [(0, st), (65536, st)] }
def rtpCfg : List Byte := patch cfg0 1 [1]
theorem met_ReceiveChecks : sA.rx.active = true ∧ sA.rx.silent = false ∧ tget (upS sA).streams 0 = some sA ∧ (sA.leg 0).up = true ∧ (sA.leg 1).up = false
    ∧ bit sA.legEn 0 = true ∧ bit ({ sA with legEn := 2 }).legEn 0 = false ∧ (police (count (upS sA) 0 0) sA.cfg { sA.leg 0 with tokens := 0, tokAt := up1.mere }).2 = false
    ∧ (police (count (upS sA) 0 0) (patch cfg0 29 [4]) { sA.leg 0 with tokens := 10 ^ 20 }).2 = true ∧ cKeyed (patch rtpCfg 8 [8]) = true ∧ sA.key = none ∧ sA.nextKey = none ∧ isAaf (cFormat rtpCfg) = false
    ∧ (∃ p ∈ parseRtp rtpCfg (0x80 :: zb 299), ∃ x ∈ unpad p.pad p.body, sizeOk (upS { sA with cfg := rtpCfg }) 0 x.length = false) := by decide +kernel

theorem met_CalendarSlot : (upS sT).clk.running = true ∧ tget (upS sT).streams (65536 + 0) = some sT ∧ sT.live = true ∧ sT.tx.dueA = true ∧ sT.tx.dueB = true ∧ bit sT.legEn 0 = true
    ∧ cKeyed sT.cfg = false ∧ cKeyed ({ sT with cfg := patch cfg0 8 [8] }).cfg = true ∧ sT.key = none ∧ bit ({ sT with legEn := 2 }).legEn 0 = false
    ∧ (ringLanes (upS sT)).contains 0 = false ∧ legPort (patch cfg0 48 [0x20]) 48 = 0x20 ∧ legPort (patch cfg0 96 [0x23]) 96 = 0x23 ∧ isAaf (cFormat cfg0) = true
    ∧ sT.tx.pkt.isSome = true ∧ bit ({ up1.cway with link := 1 } : Cway).link 0 = true ∧ bit up1.cway.link 0 = false
    ∧ (ringLanes { up1 with cway := { up1.cway with topo := 1, link := 3 } }).contains 0 = true := by decide +kernel

def arrCfg : List Byte := patch cfg0 8 [4]
theorem met_MediaClocks : up1.clk.running = true ∧ (tget up1.tenants 0).isSome = true ∧ t0.nomInc - t0.nomInc * 500 / 1000000 ≤ ({ t0 with mclk := { inc := t0.nomInc } } : Tenant).mclk.inc
    ∧ ({ t0 with mclk := { inc := t0.nomInc } } : Tenant).mclk.inc ≤ t0.nomInc + t0.nomInc * 500 / 1000000 ∧ cArrival arrCfg = true ∧ sA.rx.anchored = true ∧ sR.rx.anchored = false
    ∧ cArrival cfg0 = false ∧ ({} : Est).minErr = none ∧ ({ minErr := some 0 } : Est).minErr ≠ none := by decide +kernel

theorem met_FrameBoundary : thas up1.tenants 0 = true ∧ mereRuns up1 = true ∧ thas up1.tenants 1 = false ∧ 0 < t0.mclk.inc ∧ t0.mclk.inc < 2 ^ 103 ∧ 0 < t0.mclk.ahead 1 := by decide +kernel

theorem met_RampEndsOnItsTarget : (3 : Nat) ≤ 3 ∧ (0 : Nat) < 2 ∧ (2 : Nat) < 3 := by decide

def kb : KeyBind := ⟨0, 1, 2, 3, true, 0x8000, 0, 0, false⟩
theorem met_MixStatements : fMag (fMul (0x3F800000 : F32) (0x3F800000 : F32)) < 2 ^ (149 + 24) ∧ 2 ^ (149 + 24) ≤ fMag (fMul (0x7F000000 : F32) (0x3F800000 : F32))
    ∧ isNaN (fMul (0x7F000000 : F32) (0x3F800000 : F32)) = false ∧ isNaN (fMul (0x3F800000 : F32) (0x3F800000 : F32)) = false ∧ isInf (fMul (0x3F800000 : F32) (0x3F800000 : F32)) = false
    ∧ ({ input := ⟨0, 0, 0⟩, ch := 0, bind := some kb } : Xp).bind = some kb ∧ kb.src = 0 ∧ kb.port = 1 ∧ kb.node = 2 ∧ kb.key = 3 ∧ kb.latch = true
    ∧ ({ kb with latch := false } : KeyBind).latch = false ∧ ({ input := ⟨0, 0, 0⟩, ch := 0 } : Xp).bind = none ∧ kb.key ≠ 4 := by decide +kernel
/-- Core 0 in the hands of task 0x60, and the state that has it. -/
def c0 : Core := { run := some 0x60, m := Vector.replicate 8 0, pc := 100, vbase := 1024 }
def upc (c : Core) : State := { upt with tarn := { cores := [(0, c)] } }
def a0 : AluArgs := ⟨0, false, false, 1, 2, 3, 0⟩
def m0 : MacArgs := ⟨0, false, 0, false, 0, 1, 0, 0, 0, false, 0, 0, 0, 0⟩
def g0 : AccArgs := ⟨0, false, 0, 0, 0, 0⟩
def l0 : LdArgs := ⟨0, 0, 15, 7, 0, 0⟩
/-- The same core with D2 = 7FFF, D3 = 1 and every accumulator at its greatest. -/
def cBig : Core := { c0 with d := (c0.d.set 2 0x7FFF#16).set 3 1#16, a := Vector.replicate 8 0x7FFFFFFFFF#40 }

theorem met_Alu : ready (upc cBig) 0 .any = true ∧ cBig.trapv = false ∧ ({ cBig with mode := 2 } : Core).trapv = true ∧ ready (upc { cBig with mode := 2 }) 0 .any = true
    ∧ (BitVec.ofInt 16 ((cBig.dn 2).toInt + (cBig.dn 3).toInt)).toInt ≠ (cBig.dn 2).toInt + (cBig.dn 3).toInt
    ∧ (BitVec.ofInt 16 ((cBig.dn 2).toInt - (cBig.dn 3).toInt)).toInt = (cBig.dn 2).toInt - (cBig.dn 3).toInt
    ∧ a0.rsv = 0 ∧ a0.vec = false ∧ (3 : BitVec 4).toNat < 4 ∧ bits (0x0010 : BitVec 16).toNat 13 5 = 0 ∧ (0x0010 : BitVec 16).toNat % 32 ≤ 16
    ∧ bits (0x4010 : BitVec 16).toNat 15 14 = 1 ∧ bits (0x8010 : BitVec 16).toNat 15 14 = 2 := by decide +kernel

theorem met_Accumulators : ready (upc cBig) 0 .any = true ∧ (cBig.an 0).toInt + (cBig.an 1).toInt ≠ (BitVec.ofInt 40 ((cBig.an 0).toInt + (cBig.an 1).toInt)).toInt
    ∧ (BitVec.ofInt 40 ((cBig.an 0).toInt - (cBig.an 1).toInt)).toInt = (cBig.an 0).toInt - (cBig.an 1).toInt ∧ ({ cBig with mode := 2 } : Core).trapv = true
    ∧ g0.dr = 0 ∧ g0.imm = 0 ∧ g0.ad = 0 ∧ g0.as_.toNat % 2 = 0 ∧ (7 : BitVec 4).toNat < 8 ∧ (63 : BitVec 10).toNat < 64 ∧ 0 < 2 ^ 32 := by decide +kernel

theorem met_Division : (1 : W16) ≠ 0 ∧ (0xFFFF : BitVec 32).toNat / 65536 < (1 : W16).toNat ∧ (0xFFFE_FFFF : BitVec 32).toNat / 65536 < (0xFFFF : W16).toNat
    ∧ ready (upc c0) 0 .any = true := by decide +kernel

theorem met_MultiplyAccumulate : ready (upc c0) 0 .any = true ∧ m0.rsv = 0 ∧ m0.m1 = 0 ∧ m0.m2 = 0 ∧ c0.trapv = false ∧ c0.wide = false
    ∧ ({ c0 with mode := 4 } : Core).wide = true ∧ c0.accessFault (c0.areg 0).toNat 4 = none ∧ c0.accessFault (c0.areg 1).toNat 4 = none ∧ (loadWords (begun (upc c0)) 0 (c0.areg 0).toNat 4).toOption.isSome = true
    ∧ ({ c0 with p := c0.p.set 0 2#24 } : Core).accessFault (({ c0 with p := c0.p.set 0 2#24 } : Core).areg 0).toNat 4 = some ⟨3, some 2⟩ := by decide +kernel

def cFull : Core := { c0 with stack := List.replicate 16 0 }
def cBr : Core := { c0 with branch := some { addr := 99, target := some 200, push := true } }
theorem met_BranchesAndLoops : ready (upc c0) 0 .branch = true ∧ ready (upc c0) 0 .flow = true ∧ c0.stack.length < 16 ∧ c0.stack = [] ∧ 16 ≤ cFull.stack.length
    ∧ ready (upc cFull) 0 .branch = true ∧ cFull.stack = 0 :: List.replicate 15 0 ∧ ready (upc cBr) 0 .any = true ∧ cBr.rep = false ∧ (cBr.branch.bind (·.target)) = some 200 ∧ cBr.branch.map (·.push) = some true
    ∧ (c0.pc + 1).toNat ≤ (101 : BitVec 14).toNat ∧ (1 : BitVec 10) ≠ 0 ∧ c0.wc0 = 0 ∧ unrepeatable (mget 0 c0.imem c0.nextPc.toNat) = false := by decide +kernel

def cSt : Core := { c0 with stores := [(4, [1, 2])] }
theorem met_LoadsAndStores : ready (upc c0) 0 .any = true ∧ ldBad l0 = false ∧ c0.accessFault (ldAddr l0 c0) (sizeWords l0.sz.toNat) = none
    ∧ (loadWords (begun (upc c0)) 0 (ldAddr l0 c0) (sizeWords l0.sz.toNat)).toOption.isSome = true ∧ (∃ x ∈ cSt.stores.getLast?, x.1 ≤ 5 ∧ 5 + 1 ≤ x.1 + x.2.length) ∧ c0.accessFault 0xFFFF 1 = none
    ∧ c0.accessFault 0x10000 1 = some ⟨2, some 0x10000⟩ ∧ 0xFFFC % 4 = 0 ∧ 0xFFFC + 4 ≤ 0x10000 ∧ 0xFFFFC % 4 = 0 ∧ 0xFFFFC < 0x100000 ∧ 3 % 2 ≠ 0 ∧ c0.crRead 0 0x13 ≠ none
    ∧ ({ c0 with p := c0.p.set 7 0x10000#24 } : Core).accessFault (ldAddr l0 { c0 with p := c0.p.set 7 0x10000#24 }) (sizeWords l0.sz.toNat) ≠ none := by decide +kernel

def cExc : Core := { c0 with estat := statWord 1 false false 0, istat := statWord 1 false false 0 }
def cIrq : Core := { c0 with ien := 1, ipend := 3, mode := 8 }
/-- The same core where the word at its PC is no instruction. -/
def cBad : Core := { c0 with imem := [(100, 1)] }
theorem met_Exceptions : statActive c0.estat = false ∧ (4 ≠ 9) ∧ statActive cExc.estat = true ∧ cExc.run = some 0x60 ∧ ready (upc c0) 0 .flow = true
    ∧ ready (upc { c0 with brk := true }) 0 .any = true ∧ c0.brk = false ∧ cExc.estat.getLsbD 6 = false ∧ cExc.istat.getLsbD 6 = false ∧ ready (upc cExc) 0 .flow = true
    ∧ cIrq.lineDue = some 0 ∧ cIrq.run ≠ none ∧ cIrq.halted = false ∧ cIrq.held = false ∧ cIrq.branch = none ∧ cIrq.rep = false ∧ cIrq.inForce.getLsbD 3 = true
    ∧ ({ cIrq with mode := 0 } : Core).lineDue = some 0 ∧ ({ cIrq with mode := 0 } : Core).inForce.getLsbD 3 = false
    ∧ cBad.issues = true ∧ cBad.haltReq = false ∧ poisoned (upc cBad) (.tarnImem 0 cBad.pc.toNat) = false ∧ noInstruction (mget 0 cBad.imem cBad.pc.toNat) = true := by decide +kernel

theorem met_Cores : tarnCore (.tNop 271) = some 271 ∧ tarnCore (.tNop 0) = some 0 ∧ isNext (exec (.tNop 0) (upc c0)) = true := by decide +kernel

def wN (f : Task → Task) : State := { upt with tasks := [(0x60, f { w0 with library := false, stopped := false, cluster := 0, core := 0, k := 1 })] }
def upd : State := upc { c0 with dma := Vector.replicate 4 { busy := true, irq := true, cnt := 1 } }
theorem met_Tasks : ready (upc c0) 0 .any = true ∧ (Machine.core (upc c0) 0).run = some 0x60 ∧ (tget (upc c0).tasks 0x60).isSome = true
    ∧ (∃ w ∈ tget (wN ({ · with pendRun := true })).tasks 0x60, w.pendRun = true ∧ w.stopped = false ∧ w.library = false ∧ w.resident = false ∧ runWaits (wN ({ · with pendRun := true })) 0x60 w = false)
    ∧ (∃ w ∈ tget (wN ({ · with pendRun := true, resident := true, started := true })).tasks 0x60, w.pendRun = true ∧ w.stopped = false ∧ w.library = false ∧ w.resident = true ∧ w.started = true)
    ∧ (∃ w ∈ tget (wN ({ · with pendRun := true, library := true })).tasks 0x60, w.pendRun = true ∧ w.stopped = false ∧ w.library = true)
    ∧ (∃ w ∈ tget (wN ({ · with running := true })).tasks 0x60, w.running = true ∧ w.pendRun = false) ∧ (Machine.core upt 0).run = none ∧ (Machine.core upt 0).haltReq = false ∧ Memory.wf 0 (Machine.core upt 0).lmem = true
    ∧ (∃ w ∈ tget upt.tasks 0x60, w.running = false ∧ w.pendRun = false) ∧ follows upt = false ∧ follows (twin 3) = true ∧ ({ c0 with rep := true, fresh := true } : Core).fresh = true
    ∧ (dmaOf (Machine.core upd 0) 3).busy = true ∧ (dmaOf (Machine.core upd 0) 3).irq = true ∧ (dmaOf (Machine.core (upc c0) 0) 0).busy = false
    ∧ dmaStop upd (dmaOf (Machine.core upd 0) 3) 0 false = none
    ∧ dmaStop { upd with health := { upd.health with poison := [(.hbmWindow 0 0, 9)] } } (dmaOf (Machine.core upd 0) 3) 0 false ≠ none
    ∧ ({ upt with health := { upt.health with wear := [17 * 15 + 15] } } : State).health.wear.contains (17 * 15 + 15) = true ∧ tarnSpareLeft upt 15 = true
    ∧ upt.tarn.failed.contains (17 * 15 + 15) = false ∧ tarnSpareLeft { upt with tarn := { spares := [(0, 3)] } } 0 = false ∧ tasksOn upt 0 0 ≠ []
    ∧ (∃ e ∈ List.range 272, e ≠ 0 ∧ coreFree { upt with tarn := { spares := [(0, 3)] } } e = true)
    ∧ (∀ e ∈ List.range 272, e ≠ 0 → coreFree { upt with tarn := { spares := [(0, 3)], failed := range 1 272 } } e = false)
    ∧ ({ spares := [(0, 3)], failed := range 1 272 } : TarnArray).failed.contains 0 = false := by decide +kernel

/-- Port 0 of group 0 up at 25 Gbit/s, port 4 of group 1 up at 1 Gbit/s. -/
def pN (f : NetPort → NetPort) : State := { up1 with netGroups := [(0, { mode := 4 }), (1, { mode := 6 })], netPorts := [(0, f { link := true }), (4, f { link := true })] }
def frame0 (et : Nat) (op : Nat) : List Byte := [2, 0, 0, 0, 0, 1] ++ zb 6 ++ putBe 2 et ++ putBe 2 op ++ zb 44
/-- The state in which a good frame of 64 bytes at port 0 goes through the steps. -/
def good0 (s : State) : State := netCount (netCount (netCount (netCount (fecCount (inletDrain (begun s) 0) 0 (0, 0, 0)) 0 0 64) 0 1 1) 0 (2 + dstKind (frame0 0x1234 0)) 1) 0 (sizeClass 64) 1
theorem met_ReceivePath : (pN id).clk.running = true ∧ portExists (inletDrain (begun (pN id)) 0) 0 = true ∧ (netPort (inletDrain (begun (pN id)) 0) 0).link = true ∧ portExists up1 0 = false ∧ (netPort up1 0).link = false
    ∧ (zb 59).length + 4 < 64 ∧ (zb 60).length + 4 = 64 ∧ (netPort (pN id) 0).maxFrame < (zb 1523).length + 4 ∧ (zb 1522).length + 4 = (netPort (pN id) 0).maxFrame
    ∧ fldBe (frame0 0x8808 2) 12 2 = 0x8808 ∧ fldBe (frame0 0x8808 2) 14 2 ≠ 1 ∧ fldBe (frame0 0x8808 2) 14 2 ≠ 0x101 ∧ (upCtl ({ · with stage := 3 })).ctl.stage ≠ 4
    ∧ bit (netPort (pN ({ · with tagFlags := 1 })) 0).tagFlags 0 = true ∧ fldBe (frame0 0x1234 0) 12 2 ≠ 0x88A8 ∧ bit (netPort (pN id) 0).tagFlags 0 = false ∧ isPtp (frame0 0x1234 0) 2 = false
    ∧ (streamFrame (good0 (pN id)) 0 0 0 2 (frame0 0x1234 0)).isNone = true ∧ (filterOf (good0 (pN id)) 0 (frame0 0x1234 0)).isNone = true ∧ sundiqueFrame (good0 (pN id)) (frame0 0x1234 0) 2 = false
    ∧ (netPort (pN id) 0).defRing = 0xFFFFFFFF ∧ (frame0 0x1234 0).take 6 ≠ (netPort (pN id) 0).mac ∧ dstKind (frame0 0x1234 0) = 0 ∧ bit (netPort (pN id) 0).rxFlags 2 = false := by decide +kernel

/-- The frame of a stream, and a filter that drops. -/
def aafFrame : List Byte := zb 6 ++ zb 6 ++ putBe 2 0x22F0 ++ zb 46
def dropAll : List Byte := [0, 5, 1] ++ zb 29
theorem met_ReceivePath_taken : (streamFrame (good0 { pN id with streams := [(0, sR)] }) 0 0 0 2 aafFrame).isSome = true ∧ fldBe aafFrame 12 2 ≠ 0x8808 ∧ isPtp aafFrame 2 = false
    ∧ (match filterOf (good0 { pN id with filters := [(0, dropAll)] }) 0 (frame0 0x1234 0) with
        | some (_, w) => bit (fld w 1 1) 2 && !(bit (fld w 1 1) 1 && macAsleep (good0 { pN id with filters := [(0, dropAll)] }) 0) | none => false) = true := by decide +kernel

theorem met_PauseAndLpi : bit (netPort (pN ({ · with held := 0x81 })) 0).held 7 = true ∧ bit (netPort (pN id) 0).held 7 = false ∧ bit (netPort (pN ({ · with wdMask := 0x80 })) 0).wdMask 7 = true
    ∧ lpiPort (pN ({ · with lpiEn := 1 })) 4 = true ∧ (netPort (pN ({ · with lpiEn := 1 })) 4).lpiEn = 1 ∧ (netPort (pN ({ · with lpiEn := 1 })) 4).txLpi = false
    ∧ (netPort (pN ({ · with lpiEn := 1 })) 4).queue = [] ∧ portTxLegs (pN ({ · with lpiEn := 1 })) 4 = false ∧ lpiPort (pN id) 0 = false
    ∧ (netPort (pN ({ · with txLpi := true })) 4).txLpi = true ∧ (netPort (pN id) 4).rxLpi = false := by decide +kernel

def th0 : TxHeld := { cls := 7, bytes := [], calib := true }
def pMode : PendCmd := ⟨0, 0x0801, 1, 0xFFFF, .netMode 1, [.group 1], false⟩
theorem met_Links : portExists (pN ({ · with link := false })) 4 = true ∧ (netPort (pN ({ · with link := false })) 4).link = false ∧ calibrating (pN ({ · with link := false })) 4 = false
    ∧ (pN ({ · with link := false })).dev.safe = false ∧ bit (pN id).clk.sds 1 = true ∧ (netPort (pN id) 4).link = true ∧ 3 < groupMode (pN id) 1 ∧ thas (pN id).netGroups 1 = true
    ∧ pendingFor up1 (fun w => w == .netMode 1) = [] ∧ pendingFor (upCtl ({ · with pend := [pMode] })) (fun w => w == .netMode 1) = [pMode]
    ∧ (netPort (pN ({ · with adapting := true })) 0).adapting = true ∧ ((netPort (pN ({ · with queue := [th0] })) 0).queue.find? (fun h => h.cls == 7 && h.calib)).isSome = true
    ∧ ((netPort (pN id) 0).queue.find? (fun h => h.cls == 7 && h.calib)).isNone = true := by decide +kernel

def pF (f : FldPort → FldPort) : State := { tripSet up1 (.fldTxEn 15) 1 with fld := [(15, f { configured := true, role := 2 })] }
def keyF (n sq : Nat) : RxFrame :=
  { bytes := zb 12 ++ putBe 2 0x88B5 ++ [1, 1, fit 1 [BitVec.ofNat 8 n] |>.headD 0, BitVec.ofNat 8 sq] ++ putBe 2 0xFFFF ++ zb 40, fcsOk := true, eighth := 0 }
theorem met_FieldPorts : (15 : Nat) < 16 ∧ (pF id).clk.running = true ∧ (keyF 254 1).bytes.length + 4 = 64 ∧ (pF id).ctl.stage = 4 ∧ (fldPort (pF id) 15).configured = true ∧ (fldPort up1 15).configured = false
    ∧ 32768 < (fldPort (pF ({ · with rxFill := 32705 })) 15).rxFill - 0 + 64 ∧ (fldPort (pF ({ · with rxFill := 32704 })) 15).rxFill - 0 + 64 ≤ 32768
    ∧ fldAsleep { pF id with pwr := { up1.pwr with state := 1 } } 15 = true ∧ fldAsleep (pF id) 15 = false ∧ fldBe (keyF 254 1).bytes 12 2 = (fldPort (pF id) 15).keyEtype
    ∧ isPtp (keyF 254 1).bytes 2 = false ∧ fld ((keyF 254 1).bytes.drop 14) 0 1 = 1 ∧ fld ((keyF 254 1).bytes.drop 14) 1 1 = 1 ∧ fld ((keyF 254 1).bytes.drop 14) 2 1 = 254
    ∧ allZero (slice ((keyF 254 1).bytes.drop 14) 6 2) = true ∧ (fldPort (pF id) 15).plca = false ∧ (tgetD (pF id).keys (256 * 15 + 254) {}).first = true
    ∧ nearest 256 (1 + 256) 1 ≤ 1 + 256 ∧ (0 : Int) < nearest 256 0 1 ∧ (streamFrame (pF id) 31 31 0 2 (frame0 0x1234 0)).isNone = true ∧ (fldPort (pF id) 15).defRing = 0xFFFFFFFF := by decide +kernel

theorem met_FieldAccess : (fldPort (pF ({ · with plca := true })) 15).role = 2 ∧ (fldPort (pF ({ · with plca := true })) 15).plca = true
    ∧ ((fldPort (pF ({ · with role := 1, lost := true })) 15).role = 1 ∧ (fldPort (pF ({ · with role := 1, lost := true })) 15).lost = true)
    ∧ fldMaySend (pF ({ · with role := 1, plca := true })) 15 = true ∧ (fldPort (pF ({ · with plca := true })) 15).staged = none ∧ fldMaySend up1 15 = false
    ∧ (fldPort (pF ({ · with legPkts := [th0] })) 15).legPkts ≠ [] ∧ (fldPort (pF id) 15).legPkts = [] ∧ (fldPort (pF id) 15).cur = none
    ∧ (fldPort (pF ({ · with cur := some th0, attempts := 15 })) 15).cur = some th0 ∧ 15 ≤ (fldPort (pF ({ · with cur := some th0, attempts := 15 })) 15).attempts
    ∧ (fldPort (pF ({ · with cur := some th0, attempts := 14 })) 15).attempts < 15 ∧ (fldPort (pF ({ · with cur := some th0, backing := true })) 15).backing = true := by decide +kernel

def ksn (k : KeyNode) : State := { up1 with keys := [(256 * 15 + 255, k)] }
def gk (f : GpioKey → GpioKey) : State := { up1 with gpioKeys := [(31, f ⟨1, 10, 0, 10, false, false, false, false, true⟩)] }
theorem met_Keys : (tget (ksn {}).keys (256 * 15 + 255)).map (·.absent) = some false ∧ tget up1.keys (256 * 15 + 255) = none
    ∧ (tgetD (ksn { absent := true }).keys (256 * 15 + 255) {}).absent = true ∧ bit (tgetD (ksn { delivered := 0x8000 }).keys (256 * 15 + 255) {}).delivered 15 = true
    ∧ bit (tgetD (ksn {}).keys (256 * 15 + 255) {}).delivered 15 = false ∧ tget up1.gpioKeys 31 = none ∧ (tget (gk ({ · with delivered := true })).gpioKeys 31).map (·.delivered) = some true
    ∧ (tget (gk id).gpioKeys 31).map (·.first) = some true ∧ (tget (gk ({ · with first := false })).gpioKeys 31).map (·.first) = some false ∧ bit up1.gpio.inp 31 ≠ true
    ∧ bit up1.gpio.inp 0 = false := by decide +kernel
/-- SAI0 with a configuration and in a state, AESI7, and AESO7. -/
def pL (f : LpPort → LpPort) : State :=
  { up1 with lps := [(0, f { tenant := 0, cfg := fit 48 ([0, 0, 2, 16, 16, 0, 4, 0] ++ le2 0 ++ le2 16) }), (0x27, f { tenant := 0, cfg := fit 48 [0x27, 4] }), (0x2F, f { tenant := 0, cfg := fit 48 [0x2F, 4] })] }
theorem met_LocalPorts : (lp (pL id) 0).cfg ≠ [] ∧ pf0.classOk = true ∧ (lp (pL id) 0).stopReq = false ∧ minFrame (lp (pL id) 0).cfg ≤ pf0.bclks
    ∧ ({ pf0 with bclks := 0 } : PinFrame).bclks < minFrame (lp (pL id) 0).cfg ∧ (lp (pL ({ · with state := 3 })) 0).state = 3 ∧ (lp (pL id) 0).mid = false
    ∧ (lp (pL ({ · with state := 2, mid := true })) 0).mid = true ∧ (lp (pL ({ · with state := 2, cnt := 15 })) 0).cnt < lpUnmute 0 (lp (pL id) 0).cfg ∧ lpUnmute 0 (lp (pL id) 0).cfg ≤ (lp (pL ({ · with state := 2, cnt := 16 })) 0).cnt
    ∧ (lp (pL ({ · with state := 6 })) 0).state = 6 ∧ (lp (pL ({ · with state := 3, stopReq := true })) 0).stopReq = true ∧ (lp (pL ({ · with state := 4 })) 0).state = 4
    ∧ lpUnmute 0 (lp (pL id) 0).cfg ≤ (lp (pL ({ · with state := 4, cnt := 15 })) 0).cnt + 1
    ∧ thas (pL ({ · with state := 4 })).lps 0 = true ∧ (lp (pL ({ · with startLive := true, start := some (1, 0, 0) })) 0).startLive = true
    ∧ ((lp (pL ({ · with startLive := true, start := some (1, 0, 0) })) 0).start.map (·.1)) = some 1 ∧ (lp (pL id) 0).start = none
    ∧ (lp (pL ({ · with cls := 5 })) 0).cls ≠ rateClass 0 ∧ rateClass 0 ≠ lpRate 0 (lp (pL id) 0).cfg + 1 ∧ rateClass 705600 = lpRate 0 (lp (pL id) 0).cfg + 1 := by decide +kernel

def synO (y : Syn) : State := { pL id with syns := [(lpSyn (lp (pL id) 0x2F).cfg, y)] }
theorem met_AesPorts : (lp (pL ({ · with clk := true, state := 3 })) 0x27).clk = true ∧ (lp (pL ({ · with clk := true, state := 3 })) 0x27).state = 3 ∧ (lp (pL id) 0x27).clk = false
    ∧ (lp (pL id) 0x27).stopReq = false ∧ (lp (pL ({ · with sync := true })) 0x27).sync = true ∧ (lp (pL id) 0x27).sync = false ∧ (lp (pL id) 0x2F).cfg ≠ []
    ∧ (tgetD (synO { locked := true }).syns (lpSyn (lp (pL id) 0x2F).cfg) {}).locked = true
    ∧ synServes (synO { locked := true }) (lp (synO { locked := true }) 0x2F).owner (lpMode 0x2F (lp (synO { locked := true }) 0x2F).cfg) (lpSyn (lp (pL id) 0x2F).cfg) = true
    ∧ (tgetD (pL id).syns (lpSyn (lp (pL id) 0x2F).cfg) {}).locked = false ∧ lp (pL id) 0x28 = {} := by decide +kernel

def sch (e : Sched) : State := { up1 with sched := [(63, e)] }
def e0 : Sched := ⟨0xFFFF, [0xFF, 0, 0, 2] ++ zb 13 ++ [0x81] ++ zb 12, true, none⟩
def cal0 : Cal := { up1.cal with pending := true, set := calBits ⟨0, 0, 0, 1, 1, 0⟩ }
theorem met_Calendar : (⟨59, 59, 23, 31, 12, 999⟩ : CalTime).ok = true ∧ (⟨59, 59, 23, 29, 2, 0⟩ : CalTime).ok = true ∧ (⟨59, 59, 23, 29, 2, 100⟩ : CalTime).ok = false
    ∧ (0x03FF0001 : BitVec 32).toNat / 2 % 2 ^ 15 = 0 ∧ (0x03FF0001 : BitVec 32).toNat / 2 ^ 26 = 0 ∧ up1.cal.pending = false ∧ up1.cal.syncAt = none ∧ up1.clk.started = true
    ∧ ({ up1.cal with syncAt := some (0, 0) } : Cal).syncAt ≠ none ∧ cal0.pending = true ∧ cal0.syncAt = none ∧ (calOf cal0.set).ok = true ∧ (calOf 0).ok = false
    ∧ up1.cal.trim = 0 ∧ 0 ≤ up1.cal.trimAcc ∧ up1.cal.trimAcc < 2 ^ 20 ∧ 32768 ≤ up1.cal.counted 32768 ∧ up1.cal.counted 32768 / 32768 = 1
    ∧ (sch e0).sched.Pairwise (fun p q => p.1 < q.1) ∧ tget (sch e0).sched 63 = some e0
    ∧ e0.trigger = 0 ∧ e0.due = true ∧ follows (sch e0) = false ∧ e0.rep = 0 ∧ e0.action = 2 ∧ thas (sch e0).gpioKeys (fld e0.p 17 1 % 32) = false
    ∧ tget up1.sched 0 = none ∧ ({ e0 with due := false } : Sched).due = false := by decide +kernel

def bT (b : TimeBase) : State := { up1 with tbs := [(15, b)] }
theorem met_TimeBases : (tb up1 15).slew = 0 ∧ (tb (bT { slew := 2 ^ 48, slewRate := 100 }) 15).slew ≠ 0
    ∧ (tb (bT { slew := 2 ^ 48, slewRate := 100 }) 15).inc ≠ effInc (tb (bT { slew := 2 ^ 48, slewRate := 100 }) 15).adj ∧ mereRuns (bT {}) = true
    ∧ (tb (bT { mode := 1 }) 15).mode = 1 ∧ (tb (bT {}) 15).mode ≠ 1 ∧ ({ bT { mode := 1 } with cway := { up1.cway with numbered := true } } : State).cway.manager = false
    ∧ (∃ q ∈ tget (tb (bT { mode := 1, ptp := [(0, { state := 3 })] }) 15).ptp 0, q.state = 3)
    ∧ (tb (bT { mode := 1, valid := true }) 15).valid = true ∧ follows (twin 3) = true ∧ follows up1 = false ∧ up1.cway.numbered = false := by decide +kernel

def uK (f : Clk → Clk) : State := { State.reset with clk := f {} }
theorem met_ClockStart : ({ State.reset with dev := { held := true } } : State).dev.held = true ∧ State.reset.dev.held = false ∧ State.reset.clk.sosc = false ∧ State.reset.clk.root = false
    ∧ foscEnabled (uK ({ · with sosc := true, enA := true })).clk 0 = true ∧ (uK ({ · with sosc := true, enA := true })).clk.started = false ∧ (uK ({ · with sosc := true, enA := true })).clk.xa = false
    ∧ foscEnabled (uK ({ · with sosc := true, enB := true })).clk 1 = true ∧ (8000 : Int).natAbs ≤ 8000 ∧ 12000 < (12001 : Int).natAbs ∧ foscEnabled State.reset.clk 0 = false
    ∧ (uK ({ · with failed := [2] })).clk.failed.all (· < 3) = true ∧ srcOk up.clk (1 + foscSel up) = true ∧ up.clk.started = true ∧ up.clk.enX = true ∧ 3 ∉ up.clk.failed ∧ 5000 < (5001 : Int).natAbs ∧ 8000 < (8001 : Int).natAbs
    ∧ (uK ({ · with xa := true, started := true })).clk.root = false ∧ State.reset.clk.enX = false
    ∧ 3 ∈ (uK ({ · with xa := true, started := true, failed := [3, 4] })).clk.failed ∧ up.clk.root = true := by decide +kernel

theorem met_ClockFailures : up.clk.xa = true ∧ up.clk.root = true ∧ up.clk.sosc = true ∧ up.clk.enX = true ∧ up.clk.failed = [] ∧ 0 ∉ up.clk.failed ∧ State.reset.clk.enX = false
    ∧ (uK ({ · with failed := [0] })).clk.sosc = false ∧ (uK ({ · with sosc := true, failed := [1, 2] })).clk.failed ≠ [] ∧ (uK ({ · with sosc := true })).clk.root = false
    ∧ ¬ ((319 ≤ 318 ∧ 318 ≤ 326) ∨ 318 = 337) ∧ tripGet (tripSet up .coreSrc 1) .coreSrc = 1 ∧ tripGet up .coreSrc ≠ 1 ∧ State.reset.clk.xa = false ∧ foscSel up = 0 ∧ 3000 < (-3001 : Int).natAbs
    ∧ bit up.clk.sds 2 = true ∧ bit State.reset.clk.sds 2 = false ∧ groupMode up1 0 ≠ 1 ∧ bit (uK ({ · with xa := true })).clk.sds 0 = false ∧ (uK ({ · with xa := true })).clk.xa = true
    ∧ (∀ d ∈ (none : Option Int), 500 < d.natAbs) ∧ 500 < (-501 : Int).natAbs ∧ ¬ 500 < (500 : Int).natAbs ∧ (200 : Int).natAbs ≤ 200 ∧ 200 < (201 : Int).natAbs := by decide +kernel

def rC (n : Nat) (c : Cand) : State := { up1 with refs := { up1.refs with in1 := 1, cands := [(n, c)] }, tbs := [(15, { valid := true })] }
theorem met_Candidates : candEnabled (rC 25 {}) 25 = true ∧ candEnabled up1 25 = false ∧ candActive (rC 25 {}) 25 false = false ∧ candActive (rC 25 {}) 25 true = true
    ∧ (cand (rC 25 { state := 2 }) 25).state = 2 ∧ (rC 25 {}).refs.reject * 100 < (candFreq (rC 25 {}) 25 15001).natAbs ∧ (candFreq (rC 25 {}) 25 15000).natAbs ≤ (rC 25 {}).refs.reject * 100
    ∧ 9200 < (candFreq (rC 25 {}) 25 9201).natAbs ∧ (candFreq (rC 25 {}) 25 9200).natAbs ≤ 9200 ∧ (cand (rC 25 { state := 1, left := 10 }) 25).left ≤ (rC 25 {}).refs.qualTime
    ∧ 1 < (cand (rC 25 { state := 1, left := 10 }) 25).left ∧ (cand (rC 25 { state := 1, left := 1 }) 25).left = 1 ∧ (cand (rC 25 { state := 1 }) 25).state = 1 ∧ up1.refs.force = 0 ∧ firstCand up1 = none
    ∧ refSel (tripSet up1 .refSel 25) ≠ 0x7F ∧ firstCand (tripSet up1 .refSel 25) = none := by decide +kernel

def syn7 (y : Syn) : State := { up1 with syns := [(7, y)] }
theorem met_OutputMovesSlowly : (syn (syn7 { holder := 2, relock := true }) 7).holder ≠ 0 ∧ (syn (syn7 { holder := 2, relock := true }) 7).relock = true ∧ up1.refs.apll = true
    ∧ (syn up1 7).holder = 0 ∧ ({ up1.refs with apll := false } : Refs).apll = false ∧ (syn (syn7 { holder := 2 }) 7).locked = false
    ∧ ({ up1 with mere := 1199999, refs := { up1.refs with syncAt := some 0 } } : State).mere - 0 < 1200000 ∧ up1.refs.syncAt = none ∧ bit up1.refs.syncMask 7 = true
    ∧ (syn (syn7 { holder := 2, locked := true }) 7).gliding = false ∧ (∃ b ∈ tget (bT { mode := 3 }).tbs 15, b.mode = 3) := by decide +kernel

def twinW (r : Nat) (f : Twin → Twin) : State := { twin r with twin := f (twin r).twin }
theorem met_TwinRoles : beats (twin 2) = true ∧ role (twin 2) = 2 ∧ beats (twin 3) = true ∧ role (twin 3) ≠ 2 ∧ beats up1 = false ∧ role up1 = 0 ∧ role (twin 1) = 1 ∧ twinId (twin 1) = 1 ∧ beats (twin 1) = true
    ∧ beats { twin 1 with ctl := { up1.ctl with stage := 3 } } = false
    ∧ twinId { twin 1 with dev := { up1.dev with straps := 16 } } = 2 ∧ h0.state = 2 ∧ ((127 % 256 + 256 - (twin 2).twin.epoch) % 256 < 128 ∧ 128 < (129 % 256 + 256 - (twin 2).twin.epoch) % 256)
    ∧ ({ h0 with yld := true } : Heartbeat).yld = true ∧ role (twin 4) = 4 ∧ role (twin 5) = 5 ∧ beats (twin 5) = true ∧ (twin 3).twin.down1 = false ∧ (twinW 3 ({ · with down1 := true })).twin.down1 = true
    ∧ (twinW 2 ({ · with leaseAt := some 0 })).twin.leaseAt ≠ none ∧ (twin 3).twin.leaseAt = none ∧ (twinW 2 ({ · with seenHigh := true })).twin.seenHigh = true
    ∧ (twin 1).twin.heard = false ∧ (twin 1).ctl.stage = 4 ∧ (twin 3).twin.displaced = none ∧ (twinW 3 ({ · with misses := [(0x2F, 1)] })).twin.watchN ≤ tgetD (twinW 3 ({ · with misses := [(0x2F, 1)] })).twin.misses 0x2F 0
    ∧ (∃ a ∈ (twinW 3 ({ · with displaced := some 5 })).twin.displaced, (twin 3).mere < a + secCycles (twin 3).twin.holdoff)
    ∧ (twin 3).twin.holdoff ≠ 0 ∧ (twinW 3 ({ · with standbyAt := some 0 })).twin.standbyAt ≠ none ∧ thas ({ twin 3 with tenants := [] } : State).tenants 0 = false
    ∧ (twinW 2 ({ · with peerState := 3 })).twin.peerState = 3 ∧ thas (twin 2).tenants 0 = true ∧ (twinW 2 ({ · with holdoff := 0 })).twin.holdoff = 0
    ∧ tgetD (twin 3).twin.misses 0 0 < (twin 3).twin.watchN := by decide +kernel

theorem met_TwinValues : (twin 3).clk.running = true ∧ follows (twin 3) = true ∧ thas (twin 3).tenants v0.tenant = true ∧ v0.onTime = true ∧ v0.ahead = false ∧ ({ v0 with ahead := true } : TwinVals).ahead = true
    ∧ ({ v0 with onTime := false } : TwinVals).onTime = false ∧ role (twin 3) ≠ 0
    ∧ ((twinW 3 ({ · with crcs := [(0, 1, [(5, 6)])] })).twin.crcs.find? (fun e => e.1 == 0 && e.2.1 == 1)).isSome = true ∧ firstDiff [(5, 6)] [(5, 6)] = none ∧ firstDiff [(5, 6)] [(5, 7)] ≠ none
    ∧ 2 ≤ (twinW 3 ({ · with diverged := 2 })).twin.diverged ∧ (twinW 5 ({ · with resync := true })).twin.resync = true ∧ (twin 5).twin.resync = false
    ∧ (commandOf 0x0201).isSome = true ∧ up1.ctl.paused = false ∧ up1.ctl.failover = false ∧ up1.ctl.mgmtDown = false ∧ up1.ctl.stage = 4 := by decide +kernel

def cw (f : Cway → Cway) : State := { up1 with cway := f up1.cway }
def pFw : PendCmd := ⟨0, 0x0C03, 1, 0xFFFF, .forward 5 64, [.device 5], false⟩
def dev (ident : Nat) (fresh : Bool) (hops : Nat) : CwDev := ⟨ident, fresh, [hops], true, hops, 0, [0], 0, 4⟩
def cwM : State := cw ({ · with manager := true, numbered := true, link := 0xF, lanes := 0xF, devs := [(1, dev 1 false 1), (2, dev 3 true 2), (63, dev 2 false 1)] })
theorem met_Causeway : up1.clk.started = true ∧ up1.dev.safe = false ∧ bit up1.clk.sds 2 = true ∧ up1.pwr.state < 3 ∧ State.reset.clk.started = false ∧ bit cwM.cway.link 3 = true ∧ bit up1.cway.link 3 = false
    ∧ (cw ({ · with numbered := true, link := 8 })).cway.manager = false ∧ (cw ({ · with numbered := true, link := 8 })).cway.numbered = true ∧ cwM.cway.manager = true
    ∧ cwM.cway.devs.Pairwise (fun p q => p.1 < q.1) ∧ bit (cw ({ · with link := 8 })).cway.twinLink 3 = false ∧ twinId (cw ({ · with link := 8 })) = 0
    ∧ (i0.twinId = 0 ∧ i0.lane < 4 ∧ bit cwM.cway.lanes i0.lane = true ∧ i0.broken = false) ∧ ({ i0 with broken := true } : EnumInfo).broken = true
    ∧ (dev 1 true 1).fresh = true ∧ ((cwM.cway.devs.filter (fun e => !e.2.fresh)).find? (fun e => e.2.ident == 1)).map (·.1) = some 1
    ∧ (cwM.cway.devs.filter (fun e => !e.2.fresh)).find? (fun e => e.2.ident == 9) = none ∧ (cwM.cway.devs.filter (·.2.fresh)).Pairwise (fun p q => ¬ q.2.order < p.2.order)
    ∧ ((numbered 0 cwM.cway.devs (dev 9 true 1)).filter (·.2.fresh)).map (fun e => (e.1, e.2.ident)) = [(2, 9), (3, 3)]
    ∧ (cw ({ · with found := [i0] })).cway.found ≠ [] ∧ up1.cway.found = [] ∧ forwards up1 5 = []
    ∧ forwards (upCtl ({ · with pend := [pFw] })) 5 = [pFw] ∧ ([⟨5, some 2, zb 65⟩] : List Fwd).find? (·.dev == 5) = some ⟨5, some 2, zb 65⟩ ∧ (zb 32).length ≠ 16 ∧ (zb 16).length = 16 ∧ cwM.ctl.stage = 4
    ∧ vc0Used up1.cway 3 ≤ 64 ∧ vc1Held up1.cway 3 ≤ 64 ∧ (cwLanes (cw ({ · with link := 3 }))).filter (· != 0) = [1] ∧ (1 ≠ (cw ({ · with link := 3 })).cway.devNum) ∧ (cw ({ · with numbered := true, devNum := 1 })).cway.devNum = 1
    ∧ (rxLegs (cw ({ · with numbered := true })) (fun c _ => isAaf (cFormat c))).isNone = true ∧ (rxLegs ups (fun c _ => isAaf (cFormat c))).isSome = true := by decide +kernel

theorem met_Registers : ((pathWord (compareAt .pf 0x60 (begun up1)) .pf 0x60).map (·.counter)) = some true ∧ 0x60 % 8 = 0 ∧ 0x64 % 8 = 4 ∧ 4 < 0x65 % 8 ∧ up1.clk.started = true
    ∧ tget (tgetD ({ up1 with fns := [(0, { latch := [(0, (0x60, 7))] })] } : State).fns (latchOf .pf).1 {}).latch (latchOf .pf).2 = some (0x60, 7) ∧ ¬ ((2 = 4 ∨ 2 = 8) ∧ 0 % 2 = 0) ∧ (pathWord up1 .pf 0xFFFFF8).isNone = true
    ∧ (0x98000 < 0xFF0000 ∧ 0x98008 / 8 ≠ 0x98000 / 8) ∧ ((pathWord up1 .pf 0x0F0000).map (fun w => (2 ^ 32 ^^^ w.val) &&& w.rv &&& (2 ^ 64 - 1) != 0)) = some true
    ∧ keyPins up1 < 2 ^ 32 ∧ bootStatus up1 < 2 ^ 24 ∧ (0xF00000 : BitVec 64).toNat < 2 ^ 24 ∧ bits (0xF00000 : BitVec 64).toNat 23 20 = 15 ∧ chainReserved 8 = false ∧ chainReserved 7 = true
    ∧ chainReserved 0x77 = false ∧ chainReserved 0x78 = true ∧ up1.chain.assigned = false ∧ 256 ≤ (0x100 : BitVec 32).toNat := by decide +kernel

def upH (f : Health → Health) : State := { upq with health := f up1.health }
def upRes (n : Nat) : State := { upq with pwr := { up1.pwr with resUsed := n } }
theorem met_Memory : (upH ({ · with poison := [(.wellhead, 3)] })).health.poison.contains (.wellhead, 3) = true ∧ up1.health.poison.contains (.wellhead, 3) = false
    ∧ (∃ x ∈ tget upq.queues 0x20, x.ctx.isSome = true) ∧ upq.health.poison.contains (.queueCtx 0x20, 0) = false ∧ 39 < up1.health.marginMin ∧ 9 ≤ tgetD (upH ({ · with low := [(15, 9)] })).health.low 15 0
    ∧ tarnSpareLeft up1 0 = true ∧ up1.tarn.failed.contains 15 = false ∧ up1.health.wear.any (fun x => x / 17 == 0) = false ∧ eddyServes up1 12 = false ∧ eddyServes up1 11 = true
    ∧ poolServes up1 8 = false ∧ poolServes up1 7 = true ∧ up1.health.eddyRep = none ∧ up1.health.poolRep = none ∧ (upRes 0).pwr.resUsed + 3 ≤ tripGet (upRes 0) .reserve
    ∧ tripGet (upRes 12) .reserve < (upRes 12).pwr.resUsed + 2 ∧ bankBusy up1 true = false ∧ bankBusy up1 false = false
    ∧ bankBusy (upH ({ · with eddyMove := [3] })) true = true ∧ bankBusy (upH ({ · with poolMove := [3] })) false = true
    ∧ eddyServes (upH ({ · with eddyRep := some 0 })) 12 = true ∧ poolServes (upH ({ · with poolRep := some 0 })) 8 = true
    ∧ ((upH ({ · with rowWait := [(true, 9, false)] })).health.rowWait.find? (fun w => w.1 == true)).map (·.2.1) = some 9
    ∧ (up1.health.rowWait.find? (fun w => w.1 == true)).map (·.2.1) ≠ some 9 ∧ [(3 : Nat)] ≠ [] ∧ up1.health.lkbSpares ≠ 0 ∧ (upH ({ · with lkbSpares := 0 })).health.lkbSpares = 0 := by decide +kernel

def upP (f : Pwr → Pwr) : State := { up1 with pwr := f up1.pwr }
theorem met_Power : (0 : Nat) ≤ 12 ∧ [(⟨1, 3, .hbmExit⟩ : WeirReq)].all (fun e => e.cls != 0) = true ∧ (weirAdmit 2 1 0 [⟨1, 3, .hbmExit⟩]).1.head? = some ⟨1, 3, .hbmExit⟩ ∧ (upP ({ · with commit := true })).pwr.commit = true
    ∧ tripGet up1 .reserve ≤ tripGet up1 .budget
    ∧ weirPairOk (tripGet up1 .budgetSt) (tripGet up1 .reserveSt) = true ∧ weirPairOk (tripGet (tripSet up1 .budgetSt 8) .budgetSt) (tripGet up1 .reserveSt) = false
    ∧ ((0x40 : BitVec 64).toNat / 2 ^ 6 % 4 ≠ 0) ∧ ¬ ((0x1103F : BitVec 64).toNat / 2 ^ 6 % 4 ≠ 0 ∨ (0x1103F : BitVec 64).toNat / 2 ^ 14 % 4 ≠ 0 ∨ (0x1103F : BitVec 64).toNat / 2 ^ 18 ≠ 0)
    ∧ up1.ctl.stage = 4 ∧ up1.pwr.waking = false ∧ up1.pwr.entering = none ∧ (upP ({ · with waking := true })).pwr.waking = true ∧ (upP ({ · with entering := some 4 })).pwr.entering = some 4
    ∧ up1.pwr.state = 0 ∧ (upP ({ · with state := 4 })).pwr.state ≠ 0 ∧ 3 ≤ (upP ({ · with state := 4 })).pwr.state
    ∧ (upP ({ · with waking := true, weirQ := [⟨1, 3, .hbmExit⟩] })).pwr.weirQ.any (fun r => r.cls == 1) = true ∧ up1.pwr.weirQ.any (fun r => r.cls == 1) = false := by decide +kernel

def tr : Trip := ⟨1, 1, 0⟩
theorem met_ResetsAndVotes : tripGet (tripSet up1 .armed 1) .armed = 1 ∧ up1.dev.held = false ∧ up1.dev.thermal = false ∧ (0x5D : BitVec 8) ≠ 0xD1 ∧ tripGet up1 .armed ≠ 1
    ∧ tripCopies ({ up1 with votes := [(.armed, tr)] } : State).votes .armed = tr ∧ tr.a = tr.b ∧ ¬ (tr.a = tr.b ∧ tr.b = tr.c) ∧ (⟨0, 1, 2⟩ : Trip).a ≠ (⟨0, 1, 2⟩ : Trip).b
    ∧ (1 : BitVec 32).toNat < 2 ∧ ({ up1 with dev := { up1.dev with held := true } } : State).dev.held = true ∧ bits (0x10 : BitVec 9).toNat 4 3 = 2 ∧ bits (0x18 : BitVec 9).toNat 4 3 = 3
    ∧ bits (0x04 : BitVec 9).toNat 4 3 = 0 ∧ bit up1.dev.straps 7 = false ∧ bit ({ up1.dev with straps := 128 } : Dev).straps 7 = true ∧ up1.clk.started = true
    ∧ (∀ e ∈ upr.queues, e.1 = 0x20 → e.2.tenant ≠ 511 ∨ e.2.typ ≤ 4)
    ∧ up1.dev.resetDue = false ∧ ({ up1.dev with resetDue := true } : Dev).resetDue = true := by decide +kernel

def bootS (straps : Nat) (sl : Tbl Slot) : State := { up with ctl := { State.reset.ctl with slots := sl }, dev := { up.dev with straps := straps } }
theorem met_Boot : (bootS 0 State.reset.ctl.slots).clk.started = true ∧ (bootS 0 State.reset.ctl.slots).dev.held = false ∧ (bootS 0 State.reset.ctl.slots).dev.bootHalt = false
    ∧ (bootS 0 State.reset.ctl.slots).ctl.stage = 0 ∧ bootSel (bootS 0 State.reset.ctl.slots) % 3 = 0 ∧ bootSel (bootS 3 State.reset.ctl.slots) % 3 = 0 ∧ (bootS 0 State.reset.ctl.slots).ctl.preferred = 0
    ∧ slotCheck (bootS 0 State.reset.ctl.slots) 0 = 0 ∧ slotCheck (bootS 0 []) 0 ≠ 0 ∧ slotCheck (bootS 0 []) 1 ≠ 0 ∧ bootSel (bootS 1 []) = 1 ∧ bootSel (bootS 2 []) = 2
    ∧ (upCtl ({ · with stage := 3 })).ctl.stage = 3 ∧ up1.dev.safe = false ∧ up1.health.config = [] ∧ (upCtl ({ · with stage := 1 })).ctl.stage ≠ 3 ∧ (upCtl ({ · with stage := 1 })).ctl.stage ≠ 4
    ∧ up1.ctl.stage = 4 ∧ ({ up1.dev with safe := true } : Dev).safe = true := by decide +kernel
end Sys2Proof.Tests
end

section
/-! The frame boundary (01 R10, 21 R391, 22 R404): the order of a frame's records, the media clock's way to a boundary, and what of the
tenants the computation of a frame leaves alone. -/
namespace Sys2Proof.Machine

/-! ### The order of the records of a frame (22 R404) -/

/-- The place of a record in its frame: its TYPE, completions behind every event. -/
def evRank (o : EvOut) : Nat := b2n o.comp * 65536 + o.ev.typ

theorem insertEv_cons (e x : EvOut) (xs : List EvOut) :
    insertEv e (x :: xs) = if evRank e < evRank x then e :: x :: xs else x :: insertEv e xs := rfl

theorem insertEv_perm (e : EvOut) (es : List EvOut) : (insertEv e es).Perm (e :: es) := by
  induction es with
  | nil => exact .refl _
  | cons x xs ih =>
    rw [insertEv_cons]; split
    · exact .refl _
    · exact (ih.cons x).trans (.swap e x xs)

/-- The records of a frame stand in the order of 22 R404. -/
def EvSorted (es : List EvOut) : Prop := es.Pairwise (fun a b => evRank a ≤ evRank b)

theorem insertEv_sorted (e : EvOut) {es : List EvOut} (h : EvSorted es) : EvSorted (insertEv e es) := by
  induction es with
  | nil => exact List.pairwise_singleton _ _
  | cons x xs ih =>
    obtain ⟨hx, hxs⟩ := List.pairwise_cons.mp h
    rw [insertEv_cons]; split
    · rename_i hlt
      refine List.pairwise_cons.mpr ⟨fun y hy => ?_, h⟩
      rcases List.mem_cons.mp hy with rfl | hy
      · exact Nat.le_of_lt hlt
      · exact Nat.le_trans (Nat.le_of_lt hlt) (hx y hy)
    · rename_i hge
      refine List.pairwise_cons.mpr ⟨fun y hy => ?_, ih hxs⟩
      rcases List.mem_cons.mp ((insertEv_perm e xs).subset hy) with rfl | hy
      · exact Nat.le_of_not_lt hge
      · exact hx y hy

theorem foldl_insertEv_perm (es : List EvOut) : ∀ acc, (es.foldl (fun acc e => insertEv e acc) acc).Perm (es ++ acc) := by
  induction es with
  | nil => exact fun acc => .refl _
  | cons e es ih => exact fun acc => (ih _).trans (((insertEv_perm e acc).append_left es).trans List.perm_middle)

theorem foldl_insertEv_sorted (es : List EvOut) :
    ∀ {acc}, EvSorted acc → EvSorted (es.foldl (fun acc e => insertEv e acc) acc) := by
  induction es with
  | nil => exact fun h => h
  | cons e es ih => exact fun h => ih (insertEv_sorted e h)

/-- Sorting loses no record and makes none. -/
theorem sortEvs_perm (es : List EvOut) : (sortEvs es).Perm es := by simpa [sortEvs] using foldl_insertEv_perm es []

theorem sortEvs_sorted (es : List EvOut) : EvSorted (sortEvs es) := foldl_insertEv_sorted es List.Pairwise.nil

/-! ### The media clock on its way to a sample count (05 R105, R107) -/

/-- Reading a table whose entries have all been changed by `f`. -/
theorem tget_map {α β : Type} (f : α → β) (t : Tbl α) (k : Nat) : tget (t.map (fun p => (p.1, f p.2))) k = (tget t k).map f := by
  induction t with
  | nil => rfl
  | cons p t ih =>
    obtain ⟨i, v⟩ := p
    simp only [List.map_cons, tget, ih]
    split <;> rfl

/-- A media clock after `n` Mere cycles (05 R105). -/
def MClk.after (n : Nat) (m : MClk) : MClk := { m with acc := (m.acc + n * m.inc) % 2 ^ 104 }

theorem tget_advance {s : State} (h : mereRuns s = true) (n k : Nat) :
    tget (advance n s).tenants k = (tget s.tenants k).map (fun x => { x with mclk := x.mclk.after n }) := by
  rw [advance, if_pos h]
  exact tget_map (fun x : Tenant => { x with mclk := x.mclk.after n }) s.tenants k

/-- A distance in the 104-bit accumulator shrinks by what the accumulator gains, within half its range. -/
theorem sext_distance_sub {c a d : Nat} (h : -2 ^ 103 ≤ sext 104 (c % 2 ^ 104 + 2 ^ 104 - a % 2 ^ 104) - (d : Int)) :
    sext 104 (c % 2 ^ 104 + 2 ^ 104 - (a + d) % 2 ^ 104 % 2 ^ 104) = sext 104 (c % 2 ^ 104 + 2 ^ 104 - a % 2 ^ 104) - (d : Int) := by
  simp only [sext] at h ⊢
  split at h <;> split <;> omega

theorem MClk.ahead_after {m : MClk} {n c : Nat} (h : -2 ^ 103 ≤ m.ahead c - (n * m.inc : Nat)) :
    (m.after n).ahead c = m.ahead c - (n * m.inc : Nat) := sext_distance_sub h

/-- The fewest Mere cycles after which a media clock has reached count `c`, as `advanceToCount` waits for it. -/
def MClk.cyclesTo (m : MClk) (c : Nat) : Nat := ((m.ahead c).toNat + m.inc - 1) / m.inc

theorem MClk.cyclesTo_bounds {m : MClk} {c : Nat} (hi : 0 < m.inc) (ha : 0 < m.ahead c) :
    m.ahead c ≤ (m.cyclesTo c * m.inc : Nat) ∧ ((m.cyclesTo c * m.inc : Nat) : Int) < m.ahead c + m.inc := by
  have hd := Nat.div_add_mod' ((m.ahead c).toNat + m.inc - 1) m.inc
  have hm := Nat.mod_lt ((m.ahead c).toNat + m.inc - 1) hi
  rw [MClk.cyclesTo]
  omega

theorem MClk.ahead_after_cyclesTo {m : MClk} {c : Nat} (hi : 0 < m.inc) (hlt : m.inc < 2 ^ 103) (ha : 0 < m.ahead c) :
    (m.after (m.cyclesTo c)).ahead c ≤ 0 ∧ -(m.inc : Int) < (m.after (m.cyclesTo c)).ahead c := by
  obtain ⟨hlo, hhi⟩ := m.cyclesTo_bounds hi ha
  rw [m.ahead_after (by omega)]
  omega

theorem tenant_of_tget {s : State} {k : Nat} {x : Tenant} (h : tget s.tenants k = some x) : tenant s k = x := by
  simp [tenant, tgetD, h]

theorem tenant_advanceToCount {s : State} {k c : Nat} {x : Tenant} (hx : tget s.tenants k = some x) (hr : mereRuns s = true)
    (hi : 0 < x.mclk.inc) (ha : 0 < x.mclk.ahead c) :
    tenant (advanceToCount k c s) k = { x with mclk := x.mclk.after (x.mclk.cyclesTo c) } := by
  apply tenant_of_tget
  simp only [advanceToCount, tenant_of_tget hx]
  rw [if_pos ⟨ha, Nat.pos_iff_ne_zero.mp hi⟩, tget_advance hr, hx]
  rfl

/-! ### Operations that leave the tenants alone -/

/-- What every step of a fold keeps, the fold keeps. -/
theorem foldl_keeps {α β γ : Type} (p : β → γ) {f : β → α → β} (h : ∀ b a, p (f b a) = p b) (l : List α) :
    ∀ b, p (l.foldl f b) = p b := by
  induction l with
  | nil => exact fun _ => rfl
  | cons a l ih => exact fun b => (ih _).trans (h b a)

@[simp] theorem modTwin_tenants (s : State) (f : Twin → Twin) : (modTwin s f).tenants = s.tenants := rfl
@[simp] theorem modLp_tenants (s : State) (k : Nat) (f : LpPort → LpPort) : (modLp s k f).tenants = s.tenants := rfl
@[simp] theorem modStream_tenants (s : State) (k : Nat) (f : Stream → Stream) : (modStream s k f).tenants = s.tenants := rfl
@[simp] theorem clearMarks_tenants (f : MemOwner → Bool) (s : State) : (clearMarks f s).tenants = s.tenants := rfl
@[simp] theorem unpoison_tenants (s : State) (o : MemOwner) : (unpoison s o).tenants = s.tenants := rfl
@[simp] theorem evT_tenants (s : State) (t a b c d : Nat) : (evT s t a b c d).tenants = s.tenants := rfl
@[simp] theorem evD_tenants (s : State) (a b c d : Nat) : (evD s a b c d).tenants = s.tenants := rfl
@[simp] theorem streamEv_tenants (s : State) (k typ aux : Nat) : (streamEv s k typ aux).tenants = s.tenants := rfl
@[simp] theorem lpEv_tenants (s : State) (k typ aux : Nat) : (lpEv s k typ aux).tenants = s.tenants := rfl
@[simp] theorem lpCount_tenants (s : State) (k i n : Nat) : (lpCount s k i n).tenants = s.tenants := rfl
@[simp] theorem setClusterMem_tenants (s : State) (n : Nat) (m : Tbl W16) : (setClusterMem s n m).tenants = s.tenants := rfl
@[simp] theorem loadLocal_tenants (w : Task) (d : Nat) (s : State) : (loadLocal w d s).tenants = s.tenants := rfl
@[simp] theorem taskOut_tenants (n : Nat) (s : State) : (taskOut n s).tenants = s.tenants := rfl
@[simp] theorem drawF_tenants (s : State) : (drawF s).2.tenants = s.tenants := rfl

@[simp] theorem laneOut_tenants (s : State) (l kind : Nat) (b : List Byte) : (laneOut s l kind b).tenants = s.tenants := by
  unfold laneOut; split <;> rfl

@[simp] theorem setRole_tenants (s : State) (r : Nat) : (setRole s r).tenants = s.tenants := by
  simp [setRole, apply_ite State.tenants]

@[simp] theorem valuesMissed_tenants (s : State) : (valuesMissed s).tenants = s.tenants := by
  unfold valuesMissed unfit; split <;> simp

@[simp] theorem msix_tenants (s : State) (f v : Nat) : (msix s f v).tenants = s.tenants := (congrArg State.tenants (msix_rest s f v) : _)
@[simp] theorem setInt_tenants (s : State) (f : Nat) (b : IntBit) : (setInt s f b).tenants = s.tenants := (congrArg State.tenants (setInt_rest s f b) : _)
@[simp] theorem addUnsig_tenants (s : State) (k n : Nat) : (addUnsig s k n).tenants = s.tenants := (congrArg State.tenants (addUnsig_rest s k n) : _)

@[simp] theorem d2hWrite_tenants (s : State) (k kind src : Nat) (time : Option (Nat × Nat)) (d : List Byte) :
    (d2hWrite s k kind src time d).tenants = s.tenants := by
  unfold d2hWrite; split
  · rfl
  · split
    · rfl
    · split
      · rfl
      · split <;> simp

@[simp] theorem ringOut_tenants (t k : Nat) (s : State) : (ringOut t k s).tenants = s.tenants := by
  unfold ringOut; split
  · rfl
  · split
    · rfl
    · split
      · rfl
      · simp

@[simp] theorem finish_tenants (s : State) (p : PendCmd) (status aux : Nat) : (finish s p status aux).tenants = s.tenants := by
  unfold finish complete; dsimp only; split
  · rfl
  · split <;> simp

/-! ### Tarn cores and their stores -/

@[simp] theorem drainOne_tenants (n : Nat) (s : State) : (drainOne n s).tenants = s.tenants := by
  have hw : ∀ a l, (List.foldl (fun s i => unpoison s (wordOwner s n (a + i))) s l).tenants = s.tenants :=
    fun a l => foldl_keeps State.tenants (by intros; rfl) l s
  unfold drainOne; dsimp only; split
  · rfl
  · split <;> simp [hw]

@[simp] theorem drainK_tenants (n k : Nat) : ∀ s : State, (drainK n k s).tenants = s.tenants := by
  induction k with
  | zero => exact fun _ => rfl
  | succ k ih => exact fun s => (ih _).trans (drainOne_tenants n s)

@[simp] theorem requestHalt_tenants (n : Nat) (s : State) : (requestHalt n s).tenants = s.tenants := by
  unfold requestHalt settleHalt; dsimp only; split
  · rfl
  · simp [drainAll]

@[simp] theorem taskFrame_tenants (n m : Nat) (s : State) : (taskFrame n m s).tenants = s.tenants := by
  unfold taskFrame; split
  · rfl
  · dsimp only; split
    · rfl
    · split
      · rfl
      · split <;> rfl

/-! ### Streams and local ports -/

@[simp] theorem countSlip_tenants (s : State) (k slip : Nat) : (countSlip s k slip).tenants = s.tenants := by
  unfold countSlip; split
  · rfl
  · simp [apply_ite State.tenants]

theorem unpoison_foldl_tenants (k : Nat) (l : List Nat) (s : State) :
    (l.foldl (fun s q => unpoison s (.jitter k q)) s).tenants = s.tenants :=
  foldl_keeps State.tenants (by intros; rfl) l s

theorem finish_foldl_tenants (st aux : Nat) (l : List PendCmd) (s : State) :
    (l.foldl (fun s p => finish s p st aux) s).tenants = s.tenants :=
  foldl_keeps State.tenants (by simp) l s

@[simp] theorem rxFrame_tenants (k c0 n : Nat) (tw : Option TwinStream) (s : State) : (rxFrame k c0 n tw s).1.tenants = s.tenants := by
  unfold rxFrame; split
  · rfl
  · simp [apply_ite Prod.fst, apply_ite State.tenants, finish_foldl_tenants, unpoison_foldl_tenants]

@[simp] theorem takeRatios_tenants (v : TwinVals) (s : State) : (takeRatios v s).tenants = s.tenants :=
  foldl_keeps State.tenants (fun s e => by dsimp only; split <;> rfl) v.streams s

@[simp] theorem lpInt_tenants (s : State) (k b : Nat) : (lpInt s k b).tenants = s.tenants := by
  simp [lpInt, apply_ite State.tenants]

@[simp] theorem lpSlip_tenants (s : State) (k : Nat) (drop : Bool) : (lpSlip s k drop).tenants = s.tenants := by
  simp [lpSlip, apply_ite State.tenants]

@[simp] theorem lpFollow_tenants (k c n w : Nat) (s : State) : (lpFollow k c n w s).2.2.tenants = s.tenants := by
  unfold lpFollow; dsimp only; split
  · rfl
  · simp [apply_ite State.tenants]

@[simp] theorem lpInputFrame_tenants (k c n : Nat) (s : State) : (lpInputFrame k c n s).tenants = s.tenants := by
  simp [lpInputFrame, apply_ite State.tenants, apply_ite (fun r : List Inst × Nat × State => r.2.2)]

@[simp] theorem portClose_tenants (k c n : Nat) (s : State) : (portClose k c n s).tenants = s.tenants := by
  simp [portClose]

@[simp] theorem lpOutputFrame_tenants (k m : Nat) (s : State) : (lpOutputFrame k m s).tenants = s.tenants := by
  unfold lpOutputFrame; dsimp only; split <;> rfl

@[simp] theorem sendVals_tenants (t m : Nat) (xs : List TwinStream) (lost : List Nat) (s : State) :
    (sendVals t m xs lost s).tenants = s.tenants := by
  unfold sendVals; split <;> rfl

/-! ### The mix draws free values, no more (06 R140, R141) -/

@[simp] theorem busOutput_tenants (s : State) (g x : F32) : (busOutput s g x).2.2.tenants = s.tenants := by
  simp [busOutput, apply_ite (fun r : F32 × Bool × State => r.2.2), apply_ite State.tenants]

@[simp] theorem busOutputs_tenants (g : F32) (xs : List F32) : ∀ s : State, (busOutputs g xs s).2.2.tenants = s.tenants := by
  induction xs with
  | nil => exact fun _ => rfl
  | cons x xs ih => exact fun s => (ih _).trans (busOutput_tenants s g x)

@[simp] theorem busInstant_tenants (parents : List BusRun) (vals : List BusVals) (r : BusRun) (s : State) :
    (busInstant parents vals r s).2.2.tenants = s.tenants := busOutputs_tenants _ _ s

@[simp] theorem mixInstant_tenants (rs : List BusRun) : ∀ (done : List BusRun) (vals : List BusVals) (s : State),
    (mixInstant rs done vals s).2.tenants = s.tenants := by
  induction rs with
  | nil => exact fun _ _ _ => rfl
  | cons r rs ih => exact fun done vals s => (ih _ _ _).trans (busInstant_tenants done vals r s)

@[simp] theorem mixInstants_tenants (n : Nat) : ∀ (rs : List BusRun) (s : State), (mixInstants n rs s).2.tenants = s.tenants := by
  induction n with
  | zero => exact fun _ _ => rfl
  | succ n ih => exact fun rs s => (ih _ _).trans (mixInstant_tenants rs [] [] s)

/-! ### Operations that leave every tenant's frame number alone -/

/-- The number of the frame that tenant `k` is in, where the tenant exists. -/
def frameNo (k : Nat) (s : State) : Option Nat := (tget s.tenants k).map (·.frame)

theorem frameNo_congr {s s' : State} (h : s'.tenants = s.tenants) (k : Nat) : frameNo k s' = frameNo k s := by
  rw [frameNo, frameNo, h]

/-- A change of a tenant that keeps its frame number keeps every frame number. -/
theorem frameNo_modTenant {f : Tenant → Tenant} (hf : ∀ x, (f x).frame = x.frame) (k t : Nat) (s : State) :
    frameNo k (modTenant s t f) = frameNo k s := by
  simp only [frameNo, modTenant]
  by_cases h : k = t
  · subst h; simp [tget_tmod_self, Function.comp_def, hf]
  · rw [tget_tmod_ne _ _ h]

@[simp] theorem frameNo_modMix (k t : Nat) (s : State) (f : Mix → Mix) : frameNo k (modMix s t f) = frameNo k s :=
  frameNo_modTenant (by intro; rfl) k t s

@[simp] theorem frameNo_modBus (k t lq : Nat) (s : State) (f : Bus → Bus) : frameNo k (modBus s t lq f) = frameNo k s :=
  frameNo_modMix k t s _

@[simp] theorem frameNo_keyToPool (k t src port node key : Nat) (held : Bool) (s : State) :
    frameNo k (keyToPool s t src port node key held) = frameNo k s := frameNo_modTenant (by intro; rfl) k t s

@[simp] theorem frameNo_evT (k t a b c d : Nat) (s : State) : frameNo k (evT s t a b c d) = frameNo k s := rfl

@[simp] theorem frameNo_modTask (k n : Nat) (s : State) (f : Task → Task) : frameNo k (modTask s n f) = frameNo k s := rfl

@[simp] theorem frameNo_taskOut (k n : Nat) (s : State) : frameNo k (taskOut n s) = frameNo k s := rfl

theorem frameNo_schedAct (k : Nat) (s : State) (e : Sched) : frameNo k (schedAct s e).1 = frameNo k s := by
  unfold schedAct; split
  · dsimp only; split
    · rfl
    · split
      · rfl
      · exact frameNo_modBus ..
  · dsimp only; split <;> rfl
  · rfl

@[simp] theorem frameNo_schedShoot (k : Nat) (s : State) (a : SchedShot) : frameNo k (schedShoot s a) = frameNo k s := by
  unfold schedShoot; split
  · rfl
  · rename_i e _
    have hact : ∀ p : State × Nat, frameNo k (if e.rep = 0 ∨ e.trigger = 1 then { p.1 with sched := tdel p.1.sched a.entry }
        else { p.1 with sched := tset p.1.sched a.entry { e with due := false, last := a.last } }) = frameNo k p.1 :=
      fun p => by split <;> rfl
    rw [frameNo_evT, hact]
    split
    · rfl
    · exact frameNo_schedAct k s e

@[simp] theorem frameNo_overrun (k n : Nat) (s : State) : frameNo k (overrun n s) = frameNo k s := by
  unfold overrun; split
  · rfl
  · rename_i w _
    have hhalt : ∀ d, frameNo k (requestHalt d s) = frameNo k s := fun d => frameNo_congr (requestHalt_tenants d s) k
    have hlog : ∀ s, frameNo k (modTenant s w.tenant (fun x => { x with overran := x.overran ++ [n] })) = frameNo k s :=
      frameNo_modTenant (by intro; rfl) k w.tenant
    simp [apply_ite (frameNo k), hhalt, hlog]

@[simp] theorem frameNo_taskStops (k t cause : Nat) (s : State) : frameNo k (taskStops s t cause) = frameNo k s := by
  unfold taskStops; split
  · rfl
  · rw [frameNo_evT, frameNo_modTask, frameNo_modTenant (by intro; rfl)]

/-! ### The frame that ends keeps every tenant's frame number -/

@[simp] theorem frameNo_deadBuses (k t n : Nat) (s : State) : frameNo k (deadBuses t n s) = frameNo k s :=
  foldl_keeps (frameNo k) (by intros; split <;> simp) _ s

@[simp] theorem frameNo_mixFrame (k t n : Nat) (s : State) : frameNo k (mixFrame t n s) = frameNo k s := by
  unfold mixFrame
  exact (foldl_keeps (frameNo k) (by intros; dsimp only; split <;> simp) _ _).trans (frameNo_congr (mixInstants_tenants ..) k)

@[simp] theorem frameNo_mixClose (k t n : Nat) (s : State) : frameNo k (mixClose t n s) = frameNo k s := by
  simp [mixClose]

@[simp] theorem frameNo_lostQueue (k q : Nat) (s : State) : frameNo k (lostWord s (.queueCtx q)) = frameNo k s := rfl

@[simp] theorem frameNo_takeVals (k t : Nat) (v : TwinVals) (s : State) : frameNo k (takeVals t v s) = frameNo k s := by
  unfold takeVals
  rw [frameNo_modMix, foldl_keeps (frameNo k) (by simp), foldl_keeps (frameNo k) (by intros; split <;> simp),
    foldl_keeps (frameNo k) (by simp), foldl_keeps (frameNo k) (by simp), foldl_keeps (frameNo k) (by intros; split <;> rfl)]

@[simp] theorem frameNo_tasksClose (k t : Nat) (vals : Option TwinVals) (s : State) : frameNo k (tasksClose t vals s) = frameNo k s := by
  unfold tasksClose
  refine foldl_keeps (frameNo k) (fun s e => ?_) _ s
  cases vals with
  | none => simp [apply_ite (frameNo k)]
  | some v =>
    dsimp only
    split <;> split <;> simp [apply_ite (frameNo k)]

@[simp] theorem frameNo_valuesMissed (k : Nat) (s : State) : frameNo k (valuesMissed s) = frameNo k s :=
  frameNo_congr (valuesMissed_tenants s) k

@[simp] theorem frameNo_takeRatios (k : Nat) (v : TwinVals) (s : State) : frameNo k (takeRatios v s) = frameNo k s :=
  frameNo_congr (takeRatios_tenants v s) k

@[simp] theorem frameNo_streamsClose (k t c0 n : Nat) (vals : Option TwinVals) (s : State) :
    frameNo k (streamsClose t c0 n vals s).1 = frameNo k s :=
  foldl_keeps (fun a : State × List TwinStream => frameNo k a.1) (by intros; exact frameNo_congr (rxFrame_tenants ..) k) _ _

/-- An operation that changes no tenant, folded over a list of keys. -/
theorem frameNo_foldl_of_tenants {f : Nat → State → State} (hf : ∀ j s, (f j s).tenants = s.tenants) (k : Nat) (l : List Nat) (s : State) :
    frameNo k (l.foldl (fun s j => f j s) s) = frameNo k s :=
  foldl_keeps (frameNo k) (fun s j => frameNo_congr (hf j s) k) l s

theorem frameNo_closeFrame (k t : Nat) (s : State) : frameNo k (closeFrame t s) = frameNo k s := by
  unfold closeFrame
  dsimp only
  rw [frameNo_modTenant (by intro; rfl), frameNo_congr (sendVals_tenants ..), frameNo_foldl_of_tenants (ringOut_tenants t),
    frameNo_foldl_of_tenants (fun j => lpOutputFrame_tenants j _), frameNo_foldl_of_tenants (fun j => taskFrame_tenants j _),
    frameNo_mixClose, frameNo_foldl_of_tenants (fun j => portClose_tenants j _ _), frameNo_streamsClose, frameNo_tasksClose]
  split <;> split <;> simp [apply_ite (frameNo k)]

/-! ### The boundary -/

theorem frameNo_advance (k n : Nat) (s : State) : frameNo k (advance n s) = frameNo k s := by
  by_cases h : mereRuns s = true
  · simp [frameNo, tget_advance h, Function.comp_def]
  · rw [advance, if_neg h]

theorem frameNo_advanceToCount (k t c : Nat) (s : State) : frameNo k (advanceToCount t c s) = frameNo k s := by
  unfold advanceToCount; dsimp only; split
  · exact frameNo_advance ..
  · rfl

/-- Two changes that agree on the tenant, where it exists, have the same effect. -/
theorem modTenant_congr {s : State} {t : Nat} {f g : Tenant → Tenant} (h : ∀ x, tget s.tenants t = some x → f x = g x) :
    modTenant s t f = modTenant s t g := by
  unfold modTenant tmod; split
  · rename_i x hx; rw [h x hx]
  · rfl

/-- Counting on from a frame number that nothing has changed gives the successor of the one at the start. -/
theorem modTenant_nextFrame {s u : State} {t : Nat} (ht : thas s.tenants t = true) (hu : frameNo t u = frameNo t s) :
    modTenant u t (fun x => { x with frame := x.frame + 1, skip := 0 })
      = modTenant u t (fun x => { x with frame := (tenant s t).frame + 1, skip := 0 }) := by
  obtain ⟨y, hy⟩ := Option.isSome_iff_exists.mp ht
  refine modTenant_congr fun x hx => ?_
  have hfr : x.frame = y.frame := by simpa [frameNo, hx, hy] using hu
  rw [tenant_of_tget hy, hfr]

theorem frameBoundary_of_absent {s : State} {t : Nat} (ht : thas s.tenants t = false) : frameBoundary t s = s :=
  if_pos (by simp [ht])

theorem frameBoundary_of_runs {s : State} {t : Nat} (ht : thas s.tenants t = true) (hr : mereRuns s = true) :
    frameBoundary t s =
      let m := (tenant s t).frame + 1
      let b := modTenant (closeFrame t (advanceToCount t (m * (tenant s t).n) s)) t (fun y => { y with frame := m, skip := 0 })
      let u := if (tenant b t).destroying then dismantle t m b else openFrame t m b
      { u with evs := sortEvs u.evs } := by
  have hfr : frameNo t (closeFrame t (advanceToCount t (((tenant s t).frame + 1) * (tenant s t).n) s)) = frameNo t s :=
    (frameNo_closeFrame ..).trans (frameNo_advanceToCount ..)
  rw [frameBoundary, if_neg (by simp [ht, hr])]
  dsimp only
  rw [modTenant_nextFrame ht hfr]

theorem exec_frameBoundary (t : Nat) (s : State) :
    exec (.frameBoundary t) s = .next (settled s (if mereRuns s then frameBoundary t (begun s) else begun s)) := rfl

/-- Settles O23: computing the frame that ends keeps its number, so the boundary opens the next one; insertion by rank sorts the records;
and the fewest cycles that reach a sample count pass it by less than one increment. That the row itself moves Mere time to the boundary is
the model's choice (log entry 6). -/
theorem frameBoundaryOrder : Obligations.FrameBoundaryOrder := by
  unfold Obligations.FrameBoundaryOrder
  refine ⟨fun k s ht hr => ?_, fun k s h => ?_, fun es => ⟨sortEvs_perm es, sortEvs_sorted es⟩, fun k c s x hx hr hi hlt ha => ?_⟩
  · rw [exec_frameBoundary, if_pos hr, frameBoundary_of_runs (s := begun s) ht hr]
    rfl
  · rw [exec_frameBoundary]
    rcases h with ht | hr
    · rw [frameBoundary_of_absent (s := begun s) ht, ite_self]
    · rw [if_neg (by simp [hr])]
  · rw [tenant_advanceToCount hx hr hi ha]
    exact MClk.ahead_after_cyclesTo hi hlt ha

end Sys2Proof.Machine
end

section
/-! Steps, runs and descriptors (02 R28, R36): what every step does to the queue of commands, and a descriptor as the 64 bytes of a ring entry. -/
namespace Sys2Proof.Machine

/-! ### Steps and runs -/

theorem run_atRest {s t : State} {f : State → State} (h : run s f = .next t) : AtRest t ∧ t.pending = s.pending := by
  rw [run_eq, Host.Outcome.next.injEq] at h
  subst h
  exact ⟨settled_atRest _ _, rfl⟩

theorem exec_atRest {i : Instr} {s t : State} (h : exec i s = .next t) : AtRest t ∧ t.pending = s.pending := by
  rcases exec_ends i s with ⟨f, hf⟩ | ⟨o, ho⟩
  · exact run_atRest (hf ▸ h)
  · rw [ho] at h; cases h

/-- A step takes the command at the front of the queue, if one waits, and ends at rest. -/
theorem step_atRest {s t : State} (h : step s = .next t) : AtRest t ∧ t.pending = s.pending.tail := by
  unfold step at h
  split at h
  · rename_i hp
    obtain ⟨hr, hq⟩ := run_atRest h
    exact ⟨hr, by rw [hq, hp, List.tail_nil]⟩
  · rename_i c rest hp
    obtain ⟨hr, hq⟩ := exec_atRest h
    exact ⟨hr, by rw [hq, hp, List.tail_cons]⟩

/-- A run of one step and more takes that step, then the rest. -/
theorem run_succ_next {M : Host.Core} {n : Nat} {s t : M.State} (h : M.run (n + 1) s = .next t) :
    ∃ u, M.step s = .next u ∧ M.run n u = .next t := by
  unfold Host.Core.run at h
  split at h
  · rename_i u hu; exact ⟨u, hu, h⟩
  · cases h
  · cases h

/-- Settles O5, by induction on the number of steps. -/
theorem runsTakeTheirCommandsInOrder : Obligations.RunsTakeTheirCommandsInOrder := by
  unfold Obligations.RunsTakeTheirCommandsInOrder
  intro n
  induction n with
  | zero =>
    intro s t h
    cases h
    exact ⟨List.drop_zero.symm, fun h => absurd rfl h⟩
  | succ n ih =>
    intro s t h
    obtain ⟨u, hstep, hrun⟩ := run_succ_next h
    obtain ⟨hrest, hpend⟩ := step_atRest hstep
    obtain ⟨hdrop, hend⟩ := ih u t hrun
    refine ⟨by rw [hdrop, hpend, List.drop_tail], fun _ => ?_⟩
    cases n with
    | zero => cases hrun; exact hrest
    | succ n => exact hend n.succ_ne_zero

/-! ### Byte fields -/

@[simp] theorem putLe_length (k n : Nat) : (putLe k n).length = k := by
  induction k generalizing n with
  | zero => rfl
  | succ k ih => rw [putLe, List.length_cons, ih]

theorem leNat_putLe {k n : Nat} (h : n < 256 ^ k) : leNat (putLe k n) = n := by
  induction k generalizing n with
  | zero => rw [Nat.pow_zero] at h; rw [putLe, leNat]; omega
  | succ k ih =>
    rw [putLe, leNat, ih (by rw [Nat.pow_succ] at h; omega), BitVec.toNat_ofNat]
    omega

/-- A slice that lies within the bytes is cut out of them. -/
theorem slice_of_le {bs : List Byte} {o n : Nat} (h : o + n ≤ bs.length) : slice bs o n = (bs.drop o).take n := by
  have hlen : ((bs.drop o).take n).length = n := by rw [List.length_take, List.length_drop]; omega
  simp [slice, hlen]

theorem slice_self {bs : List Byte} {n : Nat} (h : bs.length = n) : slice bs 0 n = bs := by
  rw [slice_of_le (by omega), List.drop_zero, List.take_of_length_le (by omega)]

/-- The field in front is read. -/
theorem slice_putLe_front (k n : Nat) (bs : List Byte) : slice (putLe k n ++ bs) 0 k = putLe k n := by
  rw [slice_of_le (by simp), List.drop_zero, List.take_left' (putLe_length k n)]

/-- A field in front of the offset is passed over. -/
theorem slice_putLe_skip {k o : Nat} (m n : Nat) (bs : List Byte) (h : k ≤ o) : slice (putLe k m ++ bs) o n = slice bs (o - k) n := by
  rw [slice, slice, List.drop_append, List.drop_of_length_le (by simpa using h), List.nil_append, putLe_length]

@[simp] theorem fit_length (n : Nat) (bs : List Byte) : (fit n bs).length = n := by
  simp only [fit, slice, List.length_append, List.length_take, List.length_replicate]
  omega

theorem fit_of_length {n : Nat} {bs : List Byte} (h : bs.length = n) : fit n bs = bs :=
  slice_self h

/-! ### Descriptors in a command ring -/

theorem descBytes_length (d : Desc) : (descBytes d).length = 64 := by
  simp [descBytes, le2, le4]

/-- Reading a descriptor's bytes inverts writing them, where its fields fit (02 R28). -/
theorem descOf_descBytes {d : Desc} (h : descFits d = true) : descOf (descBytes d) = d := by
  obtain ⟨opcode, flags, tenant, tag, length, rsvd, payload⟩ := d
  simp only [descFits, Bool.and_eq_true, decide_eq_true_eq, beq_iff_eq] at h
  obtain ⟨⟨⟨⟨⟨⟨hop, hfl⟩, hte⟩, hta⟩, hle⟩, hrs⟩, hpl⟩ := h
  simpa [descOf, descBytes, le2, le4, fld, slice_putLe_front, slice_putLe_skip, slice_self hpl, fit_of_length hpl]
    using ⟨leNat_putLe hop, leNat_putLe hfl, leNat_putLe hte, leNat_putLe hta, leNat_putLe hle, leNat_putLe hrs⟩

theorem mread_eq_map (m : List Host.Cell) (n : Nat) : ∀ a, mread m a n = (List.range n).map (fun i => mget 0 m (a + i)) := by
  induction n with
  | zero => exact fun _ => rfl
  | succ n ih => intro a; simp [mread, ih, List.range_succ_eq_map, Function.comp_def, Nat.add_assoc, Nat.add_comm 1]

/-- Bytes written to a memory in canonical form are read back. -/
theorem mread_mwrite {m : List Host.Cell} {bs : List Byte} (a : Nat) (hm : Rising m) : mread (mwrite m a bs) a bs.length = bs := by
  rw [mread_eq_map]
  refine List.ext_getElem (by simp) fun i hi hb => ?_
  rw [List.getElem_map, List.getElem_range, mget_mwrite_in bs m a i hm hb, List.getD_eq_getElem?_getD, List.getElem?_eq_getElem hb, Option.getD_some]

/-- Settles O8: the fields of a descriptor stand one behind another in its bytes, and a memory in canonical form reads back what was
written. -/
theorem descriptorRoundTrip : Obligations.DescriptorRoundTrip := by
  unfold Obligations.DescriptorRoundTrip
  refine ⟨fun d hd => ⟨descBytes_length d, descOf_descBytes hd⟩, fun d m i hd hm => ?_⟩
  have hread := mread_mwrite (bs := descBytes d) ((i % 64) * 64) ((wf_iff 0 m.cmd).mp hm).1
  rw [descBytes_length] at hread
  rw [entryDesc, hread, descOf_descBytes hd]

end Sys2Proof.Machine
end

section
/-! Rows of the command set posted to a mailbox that serves (02 R31 to R36, 22 R398). -/
namespace Sys2Proof.Machine

/-! ### Executing a command (02 R35) -/

/-- Settles O9: a row is its command posted, and a mailbox that serves takes, executes and answers it. That all this is one step is the
model's choice (log entry 8). -/
theorem postedCommandIsAnsweredInItsStep : Obligations.PostedCommandIsAnsweredInItsStep := by
  unfold Obligations.PostedCommandIsAnsweredInItsStep
  intro i k r s hrow hserves hfence
  rw [runRow i k r s hrow, runCmd_serves k r s hserves hfence]

section
variable {k : Cmd} {mb : Nat} {who : Bool × Option Nat} {d : Desc} {carried : List Byte} {rf : Bool} {s : State}

/-- Where the effect of a command begins: an active twin draws the choices of a mirrored one under its number (log entry 62). -/
def effectStart (k : Cmd) (s : State) : State := if mirrors k s = true then { s with free := choicesOf s.twin.chosen } else s

/-- What follows the effect, which led to `t`: a mirrored command leaves with its number (16 R323). -/
def mirrorSent (k : Cmd) (mb : Nat) (d : Desc) (c : Ctx) (s t : State) : State :=
  if mirrors k s = true then
    emit { t with free := s.free, twin := { t.twin with chosen := s.twin.chosen + 1 } }
      (.mirror ⟨mb, { d with opcode := k.opcode }, if c.ind then c.p else [], false⟩ s.twin.chosen)
  else t

theorem effectStart_of_query (h : k.query = true) (s : State) : effectStart k s = s :=
  if_neg (by simp [mirrors, h])

theorem applyMirrored_eq (p : Plan) (c : Ctx) :
    applyMirrored k mb d p c s = (mirrorSent k mb d c s (p.act (effectStart k s)).1, (p.act (effectStart k s)).2) := by
  unfold applyMirrored mirrorSent effectStart
  split <;> rfl

theorem execCmd_of_fail {st : Nat} {det : List Byte} {f : State → State} (h : check k mb who d carried rf false s = .fail st det f) :
    execCmd k mb who d carried rf false false s = (f s, response d k.opcode st det) := by
  rw [execCmd, h]

section
variable {p : Plan} {c : Ctx} (h : check k mb who d carried rf false s = .go p c)
include h

theorem execCmd_of_ok {det : List Byte} (hdry : c.dry = false) (ha : (p.act (effectStart k s)).2 = .ok det) :
    execCmd k mb who d carried rf false false s = (mirrorSent k mb d c s (p.act (effectStart k s)).1, response d k.opcode 0 det) := by
  rw [execCmd, h]
  simp [hdry, applyMirrored_eq, ha]

theorem execCmd_of_pend {w : PendWhat} {o : List Obj} (hdry : c.dry = false) (ha : (p.act (effectStart k s)).2 = .pend w o) :
    execCmd k mb who d carried rf false false s =
      let u := mirrorSent k mb d c s (p.act (effectStart k s)).1
      (p.after { u with ctl := { u.ctl with pend := u.ctl.pend ++ [⟨mb, k.opcode, d.tag, d.tenant, w, o, false⟩] } }, response d k.opcode 1 []) := by
  rw [execCmd, h]
  simp [hdry, applyMirrored_eq, ha]

/-- With DRY_RUN a query gives its DETAIL, any other command none (log entry 13). -/
theorem execCmd_of_dry (hdry : c.dry = true) :
    execCmd k mb who d carried rf false false s =
      (s, response d k.opcode 0 (if k.query then (match (p.act s).2 with | .ok x => x | .pend _ _ => []) else [])) := by
  rw [execCmd, h]
  cases hq : k.query with
  | false => simp [hdry]
  | true => cases ha : (p.act s).2 <;> simp [hdry, applyMirrored_eq, effectStart_of_query hq, ha]

end
end

/-- Settles O10: the executor applies the plan of a command that passes, and its answer says whether it is listed as pending.
That the row does this in one step is the model's choice (log entry 8). -/
theorem commandThatPassesIsApplied : Obligations.CommandThatPassesIsApplied := by
  unfold Obligations.CommandThatPassesIsApplied
  intro i k r s p c hrow hserves hfence hcheck hdry d v m x u
  rw [runRow i k r s hrow, runCmd_serves k r s hserves hfence]
  split
  · rename_i det hx
    rw [execCmd_of_ok hcheck hdry hx]
    rfl
  · rename_i w o hx
    rw [execCmd_of_pend hcheck hdry hx]
    rfl

/-! ### What a refused command, or one that is only tried, leaves as it was -/

theorem planMixStats_onConflict (c : Ctx) (s : State) : (planMixStats c s).onConflict = id := by
  unfold planMixStats
  split <;> rfl

/-- Only time.adjust does something when it is refused (13 R280). -/
theorem scsRow_onConflict {i : Instr} {k : Cmd} {r : Req} (h : scsRow i = some (k, r)) (ha : ∀ q, i ≠ .timeAdjust q) (c : Ctx) (s : State) :
    (k.plan c s).onConflict = id := by
  cases i
  case timeAdjust q => exact absurd rfl (ha q)
  case mixStats q => cases h; exact planMixStats_onConflict c s
  all_goals cases h <;> rfl

/-- Where refusing the plan does nothing, a failing check leaves the state as it was. -/
theorem check_refusal_eq_id {k : Cmd} {mb : Nat} {who : Bool × Option Nat} {d : Desc} {carried : List Byte} {rf mir : Bool} {s : State}
    {st : Nat} {det : List Byte} {f : State → State} (hk : ∀ c, (k.plan c s).onConflict = id)
    (h : check k mb who d carried rf mir s = .fail st det f) : f = id := by
  unfold check at h
  dsimp only at h
  repeat' split at h
  all_goals cases h <;> simp only [hk]

/-- The tables of the device: what neither a mailbox, an event queue nor a pin holds. -/
def State.tables (s : State) : State := { s.rest with pending := [], mbx := [], ctl := {}, dev := {} }

theorem settled_tables (s u : State) : (settled s u).tables = u.tables := by
  simp [State.tables, State.rest]

theorem setInt_tables (s : State) (f : Nat) (b : IntBit) : (setInt s f b).tables = s.tables := by
  rw [State.tables, setInt_rest]
  rfl

theorem laneOut_tables (s : State) (l kind : Nat) (b : List Byte) : (laneOut s l kind b).tables = s.tables := by
  unfold laneOut
  split <;> rfl

/-- A response changes its mailbox, its interrupt and its session, and no table. -/
theorem respond_tables (s : State) (mb : Nat) (r : List Byte) (peer : List Byte × Nat) : (respond s mb r peer).tables = s.tables := by
  have hint : ∀ c : Bool, ∀ u : State, (if c then setInt u mb .mbxRsp else u).tables = u.tables := fun c u => by
    split
    · exact setInt_tables ..
    · rfl
  unfold respond
  dsimp only
  split
  · rw [laneOut_tables, hint]; rfl
  · split
    · exact hint _ _
    · exact hint _ _

/-- A row that is answered where it started leaves every table as it was. -/
theorem answered_tables (k : Cmd) (r : Req) (s : State) (x : List Byte) :
    (settled s (respond (rowStart k r s) r.mb x ([], 0))).tables = s.tables := by
  rw [settled_tables, respond_tables]
  rfl

/-- Settles O11: the executor of a command that fails, or is only tried, hands its start to the answer, and answering changes no table.
That the row ends in one step (log entry 8) and what DETAIL holds under DRY_RUN (log entry 13) are the model's choices. -/
theorem failedOrDryRunChangesNothing : Obligations.FailedOrDryRunChangesNothing := by
  unfold Obligations.FailedOrDryRunChangesNothing
  refine ⟨fun i k r s st det f hrow hadj hserves hfence hcheck => ?_, fun i k r s p c hrow hserves hfence hcheck hdry => ?_⟩
  · have hid := check_refusal_eq_id (scsRow_onConflict hrow hadj · _) hcheck
    rw [runRow i k r s hrow, runCmd_serves k r s hserves hfence, execCmd_of_fail hcheck, hid]
    refine ⟨_, rfl, rfl, ?_⟩
    have ht := answered_tables k r s (response (rowEntry k r s) k.opcode st det)
    simp only [State.tables, State.rest, State.mk.injEq] at ht
    simp only [id, ht, and_self]
  · rw [runRow i k r s hrow, runCmd_serves k r s hserves hfence, execCmd_of_dry hcheck hdry]
    refine ⟨_, rfl, rfl, ?_⟩
    generalize response _ _ _ _ = x
    have ht := answered_tables k r s x
    simp only [State.tables, State.rest, State.mk.injEq] at ht
    simp only [ht, and_self]

end Sys2Proof.Machine
end

section
/-! Mailboxes: doorbells, the response consumer index, the taking of commands, and control datagrams (02 R27, R32 to R34). -/
namespace Sys2Proof.Machine

/-! ### Reading a mailbox -/

@[simp] theorem mbox_settled (s u : State) (mb : Nat) : mbox (settled s u) mb = mbox u mb := by simp [mbox]

@[simp] theorem mbox_begun (s : State) (mb : Nat) : mbox (begun s) mb = mbox s mb := rfl

theorem mbox_modMbx_ne (s : State) {mb j : Nat} (f : Mbx → Mbx) (h : j ≠ mb) : mbox (modMbx s mb f) j = mbox s j := tgetD_tset_ne _ _ _ h

theorem wake_of_awake {s : State} (h : awake s = true) : wake s = s := by
  simp only [awake, Bool.and_eq_true, beq_iff_eq] at h
  simp [wake, h]

/-! ### Steps of the fallback set and of the Mere domain -/

theorem runBase_of_started {s : State} (h : s.clk.started = true) (f : State → State) : runBase s f = .next (settled s (f (begun s))) := by
  rw [runBase, run_eq, if_pos (by exact h)]

theorem runMere_of_running {s : State} (h : s.clk.running = true) (f : State → State) : runMere s f = .next (settled s (f (begun s))) := by
  rw [runMere, run_eq, if_pos (by exact h)]

/-- A value within the low bits has no others. -/
theorem bits_eq_zero {n hi lo : Nat} (h : n < 2 ^ lo) : bits n hi lo = 0 := by
  rw [bits, Nat.div_eq_of_lt h, Nat.zero_mod]

/-! ### Doorbells (02 R32) -/

/-- What a doorbell leaves of its mailbox: refused where the mailbox is not ready, a bad index, full, or accepted. -/
def rung (ready : Bool) (pi : Nat) (m : Mbx) : Mbx :=
  if ready = false then { m with dbResult := 0x0401, busySeen := true }
  else if (pi + 128 - m.pi) % 128 = 0 ∨ 65 ≤ (pi + 128 - m.pi) % 128 then { m with dbResult := 0x0103, dbErr := true }
  else if 64 < (pi + 128 - m.cmdCi) % 128 then { m with dbResult := 0x0401, busySeen := true }
  else { m with dbResult := 0, pi := pi }

theorem ringDoorbell_eq (s : State) (mb pi : Nat) : ringDoorbell s mb pi = modMbx s mb (rung (mbReady s mb) pi) := by
  cases hr : mbReady s mb <;> simp [ringDoorbell, modMbx_eq, rung, hr, apply_ite (putMbx s mb)]

theorem exec_mbxDoorbell {s : State} {mb : Nat} {val : BitVec 64} (hmb : mb ≤ 518) (hval : val.toNat < 128) (hst : s.clk.started = true)
    (haw : awake s = true) :
    exec (.mbxDoorbell mb val) s = .next (settled s (modMbx (begun s) mb (rung (mbReady s mb) val.toNat))) := by
  have hlo : bits val.toNat 15 7 = 0 := bits_eq_zero (by omega)
  have hhi : bits val.toNat 63 32 = 0 := bits_eq_zero (by omega)
  have hex : mbExists mb = true := by simpa [mbExists] using hmb
  change execMbxDoorbell mb val s = _
  rw [execMbxDoorbell]
  simp only [hlo, hhi, ne_eq, not_true, or_self, if_false, hex, if_true, Nat.mod_eq_of_lt hval, runBase_of_started hst, ringDoorbell_eq]
  rw [wake_of_awake (by exact haw)]
  rfl

/-- Settles O12, by the four answers of `rung`. The stop on a reserved bit is the model's choice (log entry 47). -/
theorem mailboxDoorbellIsHandledWhole : Obligations.MailboxDoorbellIsHandledWhole := by
  unfold Obligations.MailboxDoorbellIsHandledWhole
  refine ⟨fun mb val s hmb hval hready haw hst => ?_, fun mb val s h => if_pos h, fun mb val s h => if_pos h⟩
  rw [exec_mbxDoorbell hmb hval hst haw, hready]
  refine ⟨_, rfl, fun h => ?_, fun h => ?_, fun h => ?_, fun j hj => ?_, ?_, ?_, ?_⟩
  · rw [mbox_settled, mbox_modMbx, mbox_begun, rung, if_neg (by decide), if_neg (by omega), if_neg (by omega)]
  · rw [mbox_settled, mbox_modMbx, mbox_begun, rung, if_neg (by decide), if_neg (by omega), if_pos (by omega)]
  · rw [mbox_settled, mbox_modMbx, mbox_begun, rung, if_neg (by decide), if_pos h]
  · rw [mbox_settled, mbox_modMbx_ne _ _ hj, mbox_begun]
  all_goals simp [begun]

/-! ### The response consumer index and the taking of commands (02 R34) -/

/-- What a write of MBX_RSP_CI leaves of its mailbox. -/
def consumed (ci : Nat) (m : Mbx) : Mbx :=
  if (ci + 128 - m.rspCi) % 128 ≤ (m.rspPi + 128 - m.rspCi) % 128 then { m with rspCi := ci } else { m with dbErr := true }

theorem rspCiWrite_eq (s : State) (mb ci : Nat) : rspCiWrite mb ci s = modMbx s mb (consumed ci) := by
  simp [rspCiWrite, modMbx_eq, consumed, apply_ite (putMbx s mb)]

theorem exec_mbxRspCiWrite {s : State} {mb : Nat} {val : BitVec 32} (hmb : mb ≤ 518) (hval : val.toNat < 128) (hst : s.clk.started = true) :
    exec (.mbxRspCiWrite mb val) s = .next (settled s (modMbx (begun s) mb (consumed val.toNat))) := by
  have hhi : bits val.toNat 31 7 = 0 := bits_eq_zero (by omega)
  have hex : mbExists mb = true := by simpa [mbExists] using hmb
  change execMbxRspCiWrite mb val s = _
  rw [execMbxRspCiWrite]
  simp only [hhi, ne_eq, not_true, if_false, hex, if_true, Nat.mod_eq_of_lt hval, runBase_of_started hst, rspCiWrite_eq]

theorem exec_cmdTake {s : State} {mb : Nat} (hmb : mb ≤ 518) (hst : s.clk.started = true) :
    exec (.cmdTake mb) s = .next (settled s (ringTake (begun s) mb)) := by
  have hex : mbExists mb = true := by simpa [mbExists] using hmb
  change runBase s (fun s => if mbExists mb then ringTake s mb else s) = _
  simp only [runBase_of_started hst, hex, if_true]

/-- Settles O13: a write of the index is `consumed`, and a taking moves CI past the entry or does nothing. -/
theorem responseConsumerIndex : Obligations.ResponseConsumerIndex := by
  unfold Obligations.ResponseConsumerIndex
  refine ⟨fun mb val s hmb hval hst => ?_, fun mb s hmb hst => ⟨fun hne hroom hready hpause hhand => ?_, fun heq => ?_⟩⟩
  · rw [exec_mbxRspCiWrite hmb hval hst]
    refine ⟨_, rfl, fun h => ?_, fun h => ?_, fun j hj => ?_⟩
    · rw [mbox_settled, mbox_modMbx, mbox_begun, consumed, if_pos h]
    · rw [mbox_settled, mbox_modMbx, mbox_begun, consumed, if_neg h]
    · rw [mbox_settled, mbox_modMbx_ne _ _ hj, mbox_begun]
  · have htake : ringTake (begun s) mb = modMbx (begun s) mb (·.take (rightsOf s mb)) :=
      if_pos ⟨hne, hroom, hready, by simpa [begun] using hpause, by simpa [begun] using hhand⟩
    rw [exec_cmdTake hmb hst, htake]
    refine ⟨_, rfl, ?_, rfl, fun j hj => ?_⟩
    · rw [mbox_settled, mbox_modMbx, mbox_begun, Mbx.take]
    · rw [mbox_settled, mbox_modMbx_ne _ _ hj, mbox_begun]
  · have htake : ringTake (begun s) mb = begun s := if_neg fun h => h.1 heq
    rw [exec_cmdTake hmb hst, htake]

/-! ### Control datagrams (02 R27) -/

/-- Whether a sequence number is greater than the last one accepted. -/
def Session.fresh (ss : Session) (seq : Nat) : Bool := match ss.rxSeq with | none => true | some l => decide (l < seq)

/-- Whether a datagram authenticates under the session's key. -/
def Session.authentic (ss : Session) (seq : Nat) (body tag : List Byte) : Bool :=
  tag == gcmTag (ctlKey ss) (ctlNonce false seq) (Config.ctlAad false seq) body

/-- What session `n` asks of a datagram. -/
def datagramOk (n seq : Nat) (body tag : List Byte) (s : State) : Bool :=
  let ss := tgetD s.ctl.sessions n {}
  decide (n < 4) && ss.rights != 0 && ss.fresh seq && ss.authentic seq body tag

/-- Session `n` has accepted sequence number `seq`. -/
def seqTaken (n seq : Nat) (s : State) : State :=
  { s with ctl := { s.ctl with sessions := tset s.ctl.sessions n { tgetD s.ctl.sessions n {} with rxSeq := some seq } } }

/-- What a datagram says under the session's key. -/
def clearText (n seq : Nat) (body : List Byte) (s : State) : List Byte := gcmCrypt (ctlKey (tgetD s.ctl.sessions n {})) (ctlNonce false seq) body

/-- An accepted datagram enters the session's ring. -/
def datagramTaken (n seq : Nat) (body addr : List Byte) (port : Nat) (s : State) : State :=
  modMbx (seqTaken n seq s) (515 + n) (fun m => rung true ((m.pi + 1) % 128)
    (m.putEntry (descOf (fit 64 (clearText n seq body s))) (some ((clearText n seq body s).drop 64)) (addr, port)))

/-- Any other is counted, and reported at most once per second. -/
def datagramDropped (n : Nat) (s : State) : State :=
  let ss := tgetD s.ctl.sessions n {}
  let s := { s with ctl := { s.ctl with authDrop := inc48 s.ctl.authDrop 1 } }
  if ss.dropAt = some (secs s) then s
  else evD { s with ctl := { s.ctl with sessions := tset s.ctl.sessions n { ss with dropAt := some (secs s) } } } 0x0101 n 0 0

theorem mbReady_session {s : State} {n : Nat} (hdown : s.ctl.mgmtDown = false) (hstage : s.ctl.stage = 4)
    (h : (tgetD s.ctl.sessions n {}).rights ≠ 0) : mbReady s (515 + n) = true := by
  have hs : session s (515 + n) = tgetD s.ctl.sessions n {} := by simp [session, show 515 + n ≠ 513 by omega]
  simp [mbReady, hdown, hstage, hs, h, show ¬ 515 + n ≤ 512 by omega, show 515 + n ≠ 514 by omega]

theorem controlDatagram_of_ok {n seq port : Nat} {body tag addr : List Byte} {s : State} (hdown : s.ctl.mgmtDown = false)
    (hstage : s.ctl.stage = 4) (hr : (tgetD s.ctl.sessions n {}).rights ≠ 0) (h : datagramOk n seq body tag s = true) :
    controlDatagram n seq body tag addr port s = datagramTaken n seq body addr port s := by
  have hready : mbReady (seqTaken n seq s) (515 + n) = true := mbReady_session hdown hstage (by simpa [seqTaken] using hr)
  refine (if_pos h).trans ((ringDoorbell_eq _ _ _).trans ?_)
  rw [mbReady_modMbx, modMbx_modMbx, datagramTaken, ← hready]
  rfl

theorem controlDatagram_of_not_ok {n seq port : Nat} {body tag addr : List Byte} {s : State} (h : datagramOk n seq body tag s = false) :
    controlDatagram n seq body tag addr port s = datagramDropped n s := if_neg (Bool.eq_false_iff.mp h)

theorem datagramDropped_mbx (n : Nat) (s : State) : (datagramDropped n s).mbx = s.mbx := by
  unfold datagramDropped; dsimp only; split <;> rfl

theorem datagramDropped_authDrop (n : Nat) (s : State) : (datagramDropped n s).ctl.authDrop = inc48 s.ctl.authDrop 1 := by
  unfold datagramDropped; dsimp only; split <;> rfl

/-- A ring with room takes the entry and its doorbell. -/
theorem rung_putEntry {m : Mbx} {d : Desc} {b : List Byte} {src : List Byte × Nat} (hroom : (m.pi + 128 - m.cmdCi) % 128 < 64) (hpi : m.pi < 128) :
    rung true ((m.pi + 1) % 128) (m.putEntry d (some b) src) =
      { m with cmd := mwrite m.cmd ((m.pi % 64) * 64) (descBytes d), side := tset m.side (m.pi % 64) (b, src), dbResult := 0, pi := (m.pi + 1) % 128 } := by
  rw [Mbx.putEntry, if_pos hroom, rung, if_neg (by decide)]
  dsimp only
  rw [idx1 hpi, if_neg (by omega), if_neg (by omega)]

theorem mbox_datagramTaken {n seq port : Nat} {body addr clear : List Byte} {s : State} {m : Mbx} (hm : mbox s (515 + n) = m)
    (hclear : clearText n seq body s = clear) (hpi : m.pi < 128) (hroom : (m.pi + 128 - m.cmdCi) % 128 < 64) :
    mbox (datagramTaken n seq body addr port s) (515 + n) =
      { m with cmd := mwrite m.cmd ((m.pi % 64) * 64) (descBytes (descOf (fit 64 clear)))
               side := tset m.side (m.pi % 64) (clear.drop 64, addr, port), dbResult := 0, pi := (m.pi + 1) % 128 } := by
  subst hm hclear
  exact (mbox_modMbx ..).trans (rung_putEntry hroom hpi)

end Sys2Proof.Machine

namespace Sys2Proof
open Machine

/-- Settles O15: what is accepted moves the session's sequence number and its ring, what is not moves the counter. -/
theorem controlDatagram : Obligations.ControlDatagram := by
  unfold Obligations.ControlDatagram
  intro n seq port body tag addr s hn hrun hdown hstage ss m auth clear fresh
  have hok : datagramOk n seq body tag (begun s) = (decide (n < 4) && ss.rights != 0 && fresh && auth) := rfl
  refine ⟨_, runMere_of_running hrun _, fun hr ha hf hroom hpi => ?_, fun h => ?_⟩
  · rw [controlDatagram_of_ok (s := begun s) hdown hstage hr (hok.trans (by simp [hn, hr, ha, hf])), mbox_settled,
      mbox_datagramTaken (s := begun s) (m := m) (clear := clear) rfl rfl hpi hroom]
    dsimp only
    exact ⟨by simp [datagramTaken, seqTaken], rfl, rfl, tget_tset_self .., by simp [datagramTaken, seqTaken, begun]⟩
  · rw [controlDatagram_of_not_ok (s := begun s) (hok.trans (by rcases h with h | h | h <;> simp [h]))]
    exact ⟨by rw [mbox_settled, mbox, datagramDropped_mbx]; rfl, by rw [settled_ctl_authDrop, datagramDropped_authDrop]; rfl⟩

end Sys2Proof
end

section
/-! The management pairs: the start of commands, failover, and what is left with both pairs down (02 R34, R39, R40). -/
namespace Sys2Proof.Machine

/-! ### Starting a command (02 R34) -/

/-- The mailbox whose turn it is starts its oldest taken command. -/
theorem cmdStart_of_next {s : State} {mb : Nat} {c : Taken} {cs : List Taken} (hn : nextMailbox s = some mb) (ht : (mbox s mb).taken = c :: cs)
    (carried : List Byte) (rf : Bool) :
    cmdStart carried rf s = answerOne mb c (executeOne mb c carried rf (modMbx (turnTaken mb s) mb (fun m => { m with taken := cs }))) := by
  have hs : startTurn mb s = modMbx (turnTaken mb s) mb (fun m => { m with taken := cs }) := by
    rw [startTurn, modMbx_eq, modMbx_eq, show mbox (turnTaken mb s) mb = mbox s mb from rfl, ht]
    rfl
  simp only [cmdStart, hn, ht, hs]

theorem answerOne_of_loud {c : Taken} (h : c.quiet = false) (mb : Nat) (x : State × List Byte) : answerOne mb c x = respond x.1 mb x.2 c.peer :=
  if_neg (by simp [h])

theorem turnTaken_pf0Turn (mb : Nat) (s : State) : (turnTaken mb s).ctl.pf0Turn = (mb != 0) := by
  by_cases h : mb = 0 <;> simp [turnTaken, h]

/-! ### Failover (02 R39) -/

theorem failoverStart_of_standby {s : State} (hdown : s.ctl.mgmtDown = false) (hpairs : 1 < s.ctl.pairs) :
    failoverStart s = { s with ctl := { s.ctl with pairs := 1, failover := true, paused := true } } := by
  rw [failoverStart, if_neg (by simp [hdown]), if_neg (by omega)]

theorem mgmtFailover_between {s : State} (hdown : s.ctl.mgmtDown = false) (hfail : s.ctl.failover = false) (carried : List Byte) (rf : Bool) :
    mgmtFailover 0 carried rf s = failoverStart s := by
  simp [mgmtFailover, hdown, hfail]

/-- The state in which the standby pair begins to serve. -/
def standbyServes (s : State) : State := unpoison { s with ctl := { s.ctl with failover := false, paused := false, inFlight := none } } .wellhead

theorem failoverDone_of_none {s : State} (hfail : s.ctl.failover = true) (hf : s.ctl.inFlight = none) (carried : List Byte) (rf : Bool) :
    failoverDone carried rf s = standbyServes s := by
  simp only [failoverDone, hfail, hf, Bool.not_true, Bool.false_eq_true, if_false, standbyServes]

theorem failoverDone_of_committed {s : State} {f : InFlight} (hfail : s.ctl.failover = true) (hf : s.ctl.inFlight = some f)
    (hc : f.committed = true) (carried : List Byte) (rf : Bool) :
    failoverDone carried rf s = answerOne f.mb f.cmd (standbyServes s, f.response) := by
  simp only [failoverDone, hfail, hf, hc, Bool.not_true, Bool.false_eq_true, if_false, if_true, standbyServes]

/-! ### Both pairs down (02 R40) -/

/-- What the control state holds when the last pair has failed. -/
theorem mgmtDown_ctl (s : State) : (mgmtDown s).ctl.mgmtDown = true ∧ (mgmtDown s).ctl.handover = false ∧ (mgmtDown s).ctl.paused = false
    ∧ (mgmtDown s).ctl.inFlight = none := ⟨rfl, rfl, rfl, rfl⟩

theorem mbReady_of_mgmtDown {s : State} (h : s.ctl.mgmtDown = true) (mb : Nat) : mbReady s mb = false := by
  simp [mbReady, h]

/-- Away from a handover a step leaves the control state as its effect did. -/
theorem settled_ctl {u : State} (s : State) (h : u.ctl.handover = false) : (settled s u).ctl = u.ctl :=
  (drive_ctl (flush u) (by simpa using h)).trans (flush_ctl u)

/-- Settles O14, clause by clause from what starts a command, what a failover leaves, and what stays with both pairs down. -/
theorem managementPairs : Obligations.ManagementPairs := by
  unfold Obligations.ManagementPairs
  refine ⟨⟨fun carried rf mb c cs s hst hn ht hq => ⟨?_, ?_⟩, fun carried rf s hst hdown hfail hpairs => ?_, fun carried rf s hst hfail =>
    ⟨fun hf => ?_, fun f hf hc hq => ?_⟩⟩, fun s hdown => ?_, fun mb val s hmb hval hdown haw hst => ?_⟩
  · refine (runBase_of_started hst _).trans ?_
    rw [cmdStart_of_next hn ht, answerOne_of_loud hq]
  · exact turnTaken_pf0Turn mb (begun s)
  · refine (runBase_of_started hst _).trans ?_
    rw [mgmtFailover_between (s := begun s) hdown hfail, failoverStart_of_standby (s := begun s) hdown hpairs]
    rfl
  · refine (runBase_of_started hst _).trans ?_
    rw [failoverDone_of_none (s := begun s) hfail hf]
    rfl
  · refine (runBase_of_started hst _).trans ?_
    rw [failoverDone_of_committed (s := begun s) hfail hf hc, answerOne_of_loud hq]
    rfl
  · have hexec : exec .mgmtDown s = .next (settled s (mgmtDown (begun s))) := by
      change execMgmtDown s = _
      rw [execMgmtDown, run_eq, if_neg (by simp [begun, hdown])]
    obtain ⟨hd, hh, hp, hi⟩ := mgmtDown_ctl (begun s)
    have hd' : (settled s (mgmtDown (begun s))).ctl.mgmtDown = true := by rw [settled_ctl_mgmtDown, hd]
    exact ⟨_, hexec, hd', by simp [faultPin, hd], by rw [settled_ctl s hh, hp], by rw [settled_ctl_inFlight, hi],
      mbReady_of_mgmtDown hd'⟩
  · rw [exec_mbxDoorbell hmb hval hst haw, mbReady_of_mgmtDown hdown]
    exact ⟨_, rfl, by rw [mbox_settled, mbox_modMbx]; rfl⟩

end Sys2Proof.Machine
end

section
/-! Firmware replacement (02 R43 to R46) and boot (02 R41, R42, 19 R372). -/
namespace Sys2Proof.Machine

/-! ### What Lakebed writes and completion records leave as it was -/

/-- The state without what a Lakebed write may change: the health record, the count of free values, and events. -/
def State.offLakebed (s : State) : State := { s with health := {}, free := 0, evs := [] }

@[simp] theorem modHealth_offLakebed (s : State) (f : Health → Health) : (modHealth s f).offLakebed = s.offLakebed := rfl
@[simp] theorem memErr_offLakebed (s : State) (b : Nat) : (memErr s b).offLakebed = s.offLakebed := rfl
@[simp] theorem evD_offLakebed (s : State) (typ obj status aux : Nat) : (evD s typ obj status aux).offLakebed = s.offLakebed := rfl

@[simp] theorem levelBlock_offLakebed (l : Nat) (s : State) : (levelBlock l s).offLakebed = s.offLakebed := by
  unfold levelBlock; dsimp only; split <;> simp

@[simp] theorem retireBlock_offLakebed (l : Nat) (s : State) : (retireBlock l s).offLakebed = s.offLakebed := by
  unfold retireBlock; dsimp only; split
  · simp
  · split <;> simp

@[simp] theorem writeBlock_offLakebed (l n : Nat) (s : State) : (writeBlock l n s).offLakebed = s.offLakebed := by
  unfold writeBlock; dsimp only; split <;> simp

theorem writeLines_offLakebed (b n : Nat) (s : State) : (writeLines b n s).offLakebed = s.offLakebed :=
  foldl_keeps State.offLakebed (by simp) _ s

@[simp] theorem drawBytes_offLakebed (n : Nat) (s : State) : (drawBytes n s).2.offLakebed = s.offLakebed := by
  unfold drawBytes
  exact foldl_keeps (fun x : List Byte × State => x.2.offLakebed) (by intros; rfl) _ _

@[simp] theorem logWrite_offLakebed (s : State) (w : LogWhat) : (logWrite s w).offLakebed = s.offLakebed := by
  simp [logWrite]

@[simp] theorem logSummary_offLakebed (s : State) : (logSummary s).offLakebed = s.offLakebed := by
  unfold logSummary; dsimp only; split
  · rfl
  · split <;> simp

theorem faultLog_offLakebed (s : State) (w : LogWhat) : (faultLog s w).offLakebed = s.offLakebed := by
  unfold faultLog; dsimp only; split <;> simp

theorem writeLines_ctl (b n : Nat) (s : State) : (writeLines b n s).ctl = s.ctl := (congrArg State.ctl (writeLines_offLakebed b n s) :)

/-- A completion record takes its command off the list of pending ones, and changes nothing else of the control state. -/
theorem finish_ctl (s : State) (p : PendCmd) (status aux : Nat) :
    (finish s p status aux).ctl = { s.ctl with pend := s.ctl.pend.filter (fun q => q != p) } := by
  unfold finish complete laneOut
  dsimp only
  split
  · rfl
  · split
    · split <;> rfl
    · rfl

/-! ### Firmware replacement -/

theorem verified_of_slotCheck {s : State} {k : Nat} (h : slotCheck s k = 0) : (tgetD s.ctl.slots k {}).verified = true := by
  cases hv : (tgetD s.ctl.slots k {}).verified with
  | true => rfl
  | false => simp [slotCheck, hv] at h

/-- Slot `k` holds the image that the Lakebed write has brought. -/
def slotLoaded (k : Nat) (img : List Byte) (s : State) : State :=
  let s := writeLines (2048 * k) ((img.length + 63) / 64) s
  { s with ctl := { s.ctl with slots := tset s.ctl.slots k { verified := true, svn := (Config.imgSvn img).toNat, version := (Config.imgVersion img).toNat, image := img } } }

/-- The image of slot `k` runs on trial (02 R46). -/
def slotOnTrial (k : Nat) (s : State) : State :=
  let im := tgetD s.ctl.slots k {}
  { s with ctl := { s.ctl with
      handover := false, slot := k, trial := true, svn := im.svn, version := im.version, pairs := 2, failover := false, paused := false
      stage := if s.ctl.stage = 1 then 3 else s.ctl.stage } }

/-- The pair that serves resumes, with `code` as the last failed check. -/
def oldPairServes (code : Nat) (s : State) : State :=
  { s with ctl := { s.ctl with paused := s.ctl.failover, handover := false, failCode := code } }

section
variable {s : State} {p : PendCmd} {k : Nat} {img : List Byte} (hpend : s.ctl.pend = [p])
include hpend

theorem pendingFor_only {w : PendWhat → Bool} (hw : w p.what = true) : pendingFor s w = [p] := by
  simp [pendingFor, hpend, hw]

theorem finish_only_pend (status aux : Nat) : (finish s p status aux).ctl.pend = [] := by
  simp [finish_ctl, hpend]

theorem fwLoaded_of_good (hw : p.what = .fwLoad k img) (hro : regionReadOnly s 0 = false) :
    fwLoaded true s = finish (slotLoaded k img s) p 0 0 := by
  unfold fwLoaded
  rw [pendingFor_only hpend (by simp [hw])]
  simp [hw, hro, slotLoaded]

theorem fwLoaded_of_failed (hw : p.what = .fwLoad k img) : fwLoaded false s = finish s p 0x0601 0 := by
  unfold fwLoaded
  rw [pendingFor_only hpend (by simp [hw])]
  simp [hw]

theorem endActivation_of_good (hw : p.what = .fwActivate k) (hpause : s.ctl.paused = true) (hchk : slotCheck s k = 0) :
    endActivation true s = finish (slotOnTrial k s) p 0 0 := by
  unfold endActivation
  rw [pendingFor_only hpend (by simp [hw])]
  simp [hw, hpause, hchk, verified_of_slotCheck hchk, slotOnTrial]

theorem endActivation_of_failed (hw : p.what = .fwActivate k) (hpause : s.ctl.paused = true) :
    ∃ code, endActivation false s = finish (oldPairServes code s) p 0x0601 0 := by
  unfold endActivation
  rw [pendingFor_only hpend (by simp [hw])]
  by_cases hchk : (tgetD s.ctl.slots k {}).verified = true ∧ slotCheck s k ≠ 0
  · exact ⟨slotCheck s k, by simp [hw, hpause, hchk.1, hchk.2, oldPairServes]⟩
  · exact ⟨s.ctl.failCode, by simp [hw, hpause, hchk, oldPairServes]⟩

end

/-- Settles O16: one command waits, and each end of it is `finish` after its own change of the control state. -/
theorem firmwareReplacement : Obligations.FirmwareReplacement := by
  unfold Obligations.FirmwareReplacement
  refine ⟨fun p k img s hst hpend hw hro => ?_, fun p k img s hst hpend hw => ?_, fun p k s hst hpend hw hpause hchk => ?_,
    fun p k s hst hpend hw hpause hfail => ?_⟩
  · refine ⟨_, runBase_of_started hst _, ?_⟩
    rw [fwLoaded_of_good (s := begun s) hpend hw hro]
    refine ⟨?_, ?_⟩
    · rw [settled_ctl_pend, finish_only_pend]
      simpa [slotLoaded, writeLines_ctl, begun] using hpend
    · simp [finish_ctl, slotLoaded]
  · refine ⟨_, runBase_of_started hst _, ?_⟩
    rw [fwLoaded_of_failed (s := begun s) hpend hw]
    exact ⟨by rw [settled_ctl_pend, finish_only_pend (s := begun s) hpend], by rw [settled_ctl_slots, finish_ctl]; rfl⟩
  · refine ⟨_, runBase_of_started hst _, ?_⟩
    rw [endActivation_of_good (s := begun s) hpend hw hpause hchk, settled_ctl _ (by rw [finish_ctl]; rfl)]
    exact ⟨finish_only_pend (s := slotOnTrial k (begun s)) hpend .., by rw [finish_ctl]; exact ⟨rfl, rfl, rfl, rfl⟩⟩
  · obtain ⟨code, hend⟩ := endActivation_of_failed (s := begun s) hpend hw hpause
    refine ⟨_, runBase_of_started hst _, runBase_of_started hst _, ?_⟩
    rw [hend, settled_ctl _ (by rw [finish_ctl]; rfl)]
    exact ⟨finish_only_pend (s := oldPairServes code (begun s)) hpend .., by rw [finish_ctl]; exact ⟨rfl, rfl, hfail, rfl⟩⟩

end Sys2Proof.Machine
end

section
/-! Secure boot and readiness (02 R41 to R43, 19 R370, R372). -/
namespace Sys2Proof.Machine

/-! ### What has left the device stays sent -/

section
variable {o : Out} {s : State}

theorem msix_out_mem {f v : Nat} (h : o ∈ s.out) : o ∈ (msix s f v).out := by
  unfold msix; dsimp only; split
  · split
    · exact h
    · exact List.mem_append_left _ h
  · exact h

theorem setInt_out_mem {f : Nat} {b : IntBit} (h : o ∈ s.out) : o ∈ (setInt s f b).out := by
  unfold setInt; split
  · exact h
  · exact msix_out_mem h

theorem checkIrq_out_mem {k : Nat} (h : o ∈ s.out) : o ∈ (checkIrq s k).out := by
  unfold checkIrq; split
  · exact h
  · split
    · exact h
    · split
      · dsimp only; split
        · exact h
        · exact msix_out_mem h
      · exact h

theorem putRecord_out_mem {k : Nat} {q : Queue} {c : QCtx} {e : Ev} (h : o ∈ s.out) : o ∈ (putRecord s k q c e).out := by
  unfold putRecord addUnsig
  exact checkIrq_out_mem h

theorem loseEvent_out_mem {f : Nat} (h : o ∈ s.out) : o ∈ (loseEvent s f).out := by
  unfold loseEvent
  exact setInt_out_mem h

theorem drain_out_mem {f n : Nat} (h : o ∈ s.out) : o ∈ (drain f n s).out := by
  induction n generalizing s with
  | zero => exact h
  | succ n ih =>
    unfold drain; split
    · exact h
    · split
      · exact h
      · split
        · exact ih (putRecord_out_mem h)
        · split
          · exact h
          · exact putRecord_out_mem h

theorem deliver_out_mem {e : EvOut} (h : o ∈ s.out) : o ∈ (deliver s e).out := by
  have hd : o ∈ (drain e.fn ((tgetD s.fns e.fn {}).held.length + 1) s).out := drain_out_mem h
  unfold deliver; dsimp only; split
  · split
    · exact putRecord_out_mem hd
    · split
      · exact hd
      · exact loseEvent_out_mem hd
  · split
    · exact hd
    · exact loseEvent_out_mem hd

theorem foldl_deliver_out_mem {es : List EvOut} (h : o ∈ s.out) : o ∈ (es.foldl deliver s).out := by
  induction es generalizing s with
  | nil => exact h
  | cons e es ih => exact ih (deliver_out_mem h)

theorem flushN_out_mem {n : Nat} (h : o ∈ s.out) : o ∈ (flushN n s).out := by
  induction n generalizing s with
  | zero => exact h
  | succ n ih =>
    unfold flushN; split
    · exact h
    · exact ih (foldl_deliver_out_mem h)

/-- A step sends what its effect sent, and what delivering its events adds. -/
theorem settled_out_mem {u : State} (h : o ∈ u.out) : o ∈ (settled s u).out := by
  have hf : o ∈ (flush u).out := flushN_out_mem (n := 2) h
  exact (drive_out (flush u)).symm ▸ hf

end

/-! ### Secure boot (02 R41 to R43) -/

theorem settled_faultN_of_bootHalt {s u : State} (h : u.dev.bootHalt = true) : (settled s u).dev.faultN = false := by
  simp [faultPin, h]

theorem exec_secureBoot (img : List Byte) (s : State) : exec (.secureBoot img) s = .next (settled s (secureBoot img (begun s))) := rfl

/-- The image that the manager has sent starts. -/
def managerImage (img : List Byte) (s : State) : State :=
  { s with ctl := { s.ctl with
      stage := 3, source := 2, trial := false, svn := (Config.imgSvn img).toNat, version := (Config.imgVersion img).toNat } }

section
variable {s : State} (hst : s.clk.started = true) (hheld : s.dev.held = false) (hhalt : s.dev.bootHalt = false) (hstage : s.ctl.stage = 0)
include hst hheld hhalt hstage

theorem secureBoot_lakebed (h : bootSel s % 3 = 0) (img : List Byte) : secureBoot img s = lakebedBoot s := by
  simp [secureBoot, hst, hheld, hhalt, hstage, h]

theorem secureBoot_romWait (h : bootSel s = 1) (img : List Byte) : secureBoot img s = romWait s 1 := by
  simp [secureBoot, hst, hheld, hhalt, hstage, h]

theorem secureBoot_manager_of_good (h : bootSel s = 2) {img : List Byte} (himg : img ≠ []) (hchk : imageCheck s img = 0) :
    secureBoot img s = managerImage img s := by
  simp [secureBoot, hst, hheld, hhalt, hstage, h, himg, hchk, managerImage]

theorem secureBoot_manager_of_bad (h : bootSel s = 2) {img : List Byte} (himg : img ≠ []) (hchk : imageCheck s img ≠ 0) :
    secureBoot img s = bootFail (romWait s 2) (imageCheck s img) := by
  simp [secureBoot, hst, hheld, hhalt, hstage, h, himg, hchk]

end

theorem lakebedBoot_preferred {s : State} (h : slotCheck s s.ctl.preferred = 0) : lakebedBoot s = startSlot s.ctl.preferred s := if_pos h

theorem lakebedBoot_other {s : State} (ha : slotCheck s s.ctl.preferred ≠ 0) (hb : slotCheck s (1 - s.ctl.preferred) = 0) :
    lakebedBoot s = startSlot (1 - s.ctl.preferred) (bootFail s (slotCheck s s.ctl.preferred)) :=
  (if_neg ha).trans (if_pos hb)

theorem lakebedBoot_none {s : State} (ha : slotCheck s s.ctl.preferred ≠ 0) (hb : slotCheck s (1 - s.ctl.preferred) ≠ 0) :
    lakebedBoot s =
      let u := bootFail s (slotCheck s (1 - s.ctl.preferred))
      if bootSel s = 3 then romWait u 1 else { u with ctl := { u.ctl with stage := 15 }, dev := { u.dev with bootHalt := true } } :=
  (if_neg ha).trans (if_neg hb)

/-! ### Readiness (19 R372) -/

/-- The device opens to every partner: what readiness leaves, but for events and the fault log. -/
def opened (s : State) : State :=
  { s with
    ctl := { s.ctl with stage := 4, hostUp := true }, twin := { s.twin with leaseAt := some s.mere }, out := s.out ++ [.pcieReady]
    clk := { s.clk with report := [] }, dev := { s.dev with tripped := false } }

/-- Reports of recovered clocks only raise events. -/
theorem foldl_evD_eq (ks : List Nat) (s : State) : ∃ es, ks.foldl (fun s k => evD s 0xD11 k 0 0) s = { s with evs := es } := by
  induction ks generalizing s with
  | nil => exact ⟨s.evs, rfl⟩
  | cons k ks ih => exact ih (evD s 0xD11 k 0 0)

theorem readiness_offLakebed {s : State} (hstage : s.ctl.stage = 3) (hsafe : s.dev.safe = false) :
    (readiness s).offLakebed = (opened s).offLakebed := by
  unfold readiness
  rw [if_neg (by omega), if_neg (by simp [hstage, hsafe])]
  dsimp only
  generalize hu : emit (modTwin _ _) Out.pcieReady = u
  obtain ⟨es, he⟩ := foldl_evD_eq u.clk.report u
  rw [he]
  subst hu
  cases ht : s.dev.tripped with
  | true =>
    rw [if_pos (by exact ht), faultLog_offLakebed]
    rfl
  | false =>
    rw [if_neg (by simp [modClk, modTwin, ht])]
    simp [opened, State.offLakebed, modClk, modTwin, emit, ← ht]

theorem exec_readiness {s : State} (hst : s.clk.started = true) (ok : Bool) :
    exec (.readiness ok) s = .next (settled s (openUp ok (begun s))) := runBase_of_started hst _

/-- A step of the fallback set that has nothing to do, whether the set runs or not. -/
theorem runBase_of_idle {s : State} {f : State → State} (h : f (begun s) = begun s) : runBase s f = .next (settled s (begun s)) := by
  rw [runBase, run_eq, h, ite_self]

theorem openUp_of_ready {s : State} (hstage : s.ctl.stage = 4) : openUp true s = { s with ctl := { s.ctl with hostUp := true } } := by
  simp [openUp, readiness, hstage]

theorem openUp_of_bare {s : State} (hconf : s.health.config = []) : openUp true s = readiness s := by
  simp [openUp, hconf]

theorem openUp_of_early {s : State} (hstage : s.ctl.stage ≠ 4) (h : s.ctl.stage ≠ 3 ∨ s.dev.safe = true) : openUp true s = s := by
  have hno : ¬ (s.ctl.stage = 3 ∧ (!s.dev.safe) = true) := by
    rintro ⟨h3, hs⟩
    rcases h with h | h
    · exact h h3
    · simp [h] at hs
  rw [openUp, if_neg (by decide), if_neg hno, readiness, if_neg hstage, if_pos h]

theorem openUp_of_unreached {s : State} (hstage : s.ctl.stage ≠ 4) :
    openUp false s = { s with dev := { s.dev with bootHalt := true }, ctl := { s.ctl with stage := 15 } } := by
  simp [openUp, hstage]

/-- The slot that starts is the preferred one, or the other where that one fails its checks. -/
theorem lakebedBoot_starts {s : State} {k : Nat} (hk : s.ctl.preferred = k ∨ (slotCheck s s.ctl.preferred ≠ 0 ∧ 1 - s.ctl.preferred = k))
    (hchk : slotCheck s k = 0) : ∃ u, lakebedBoot s = startSlot k u ∧ u.ctl.slots = s.ctl.slots ∧ u.tenants = s.tenants := by
  rcases hk with rfl | ⟨ha, rfl⟩
  · exact ⟨_, lakebedBoot_preferred hchk, rfl, rfl⟩
  · exact ⟨_, lakebedBoot_other ha hchk, rfl, rfl⟩

/-- The one instant of readiness: the device opens, and the twin's lease starts. -/
theorem exec_readiness_opens {s : State} (hst : s.clk.started = true) (hstage : s.ctl.stage = 3) (hsafe : s.dev.safe = false)
    (hconf : s.health.config = []) :
    ∃ t, exec (.readiness true) s = .next t ∧ t.ctl.stage = 4 ∧ t.ctl.hostUp = true ∧ .pcieReady ∈ t.out ∧ t.twin.leaseAt = some s.mere
      ∧ t.clk.report = [] ∧ t.tenants = s.tenants ∧ t.votes = s.votes := by
  have hu : (openUp true (begun s)).offLakebed = (opened (begun s)).offLakebed := by
    rw [openUp_of_bare (s := begun s) hconf, readiness_offLakebed (s := begun s) hstage hsafe]
  rw [exec_readiness hst]
  generalize openUp true (begun s) = u at hu
  have hctl : u.ctl = (opened (begun s)).ctl := (congrArg State.ctl hu :)
  have hout : u.out = (opened (begun s)).out := (congrArg State.out hu :)
  have htwin : u.twin = (opened (begun s)).twin := (congrArg State.twin hu :)
  have hclk : u.clk = (opened (begun s)).clk := (congrArg State.clk hu :)
  have hten : u.tenants = s.tenants := (congrArg State.tenants hu :)
  have hvotes : u.votes = s.votes := (congrArg State.votes hu :)
  exact ⟨_, rfl, by rw [settled_ctl_stage, hctl]; rfl, by rw [settled_ctl_hostUp, hctl]; rfl, settled_out_mem (by simp [hout, opened]),
    by rw [settled_twin, htwin]; rfl, by rw [settled_clk, hclk]; rfl, by rw [settled_tenants, hten], by rw [settled_votes, hvotes]⟩

/-- Settles O60, by boot source and by the stage that readiness meets. That STAGE goes to 3 in one step is the model's choice (log entry 57). -/
theorem bootAndReadiness : Obligations.BootAndReadiness := by
  unfold Obligations.BootAndReadiness
  refine fun img s => ⟨fun hst hheld hhalt hstage => ⟨fun k hsel hk hchk => ?_, fun ha hb => ⟨fun hsel => ?_, fun hsel => ?_⟩, fun hsel => ?_,
    fun hsel himg => ?_⟩, fun h => ?_, fun hst hstage hsafe hconf => ?_, fun hst hstage => ⟨?_, ?_⟩, fun hst hstage => ?_, fun hstage h => ?_⟩
  · obtain ⟨u, hu, hslots, hten⟩ := lakebedBoot_starts (s := begun s) hk hchk
    rw [exec_secureBoot, secureBoot_lakebed (s := begun s) hst hheld hhalt hstage hsel, hu]
    exact ⟨_, rfl, by simp [startSlot], by simp [startSlot], by simp [startSlot, hslots, begun], by simp [startSlot], by simp [startSlot, hten, begun]⟩
  · rw [exec_secureBoot, secureBoot_lakebed (s := begun s) hst hheld hhalt hstage (by change bootSel s % 3 = 0; omega),
      lakebedBoot_none (s := begun s) ha hb, if_neg (by change ¬ bootSel s = 3; omega)]
    exact ⟨_, rfl, by simp, by simp, settled_faultN_of_bootHalt rfl, by rw [settled_ctl_failCode]; rfl⟩
  · rw [exec_secureBoot, secureBoot_lakebed (s := begun s) hst hheld hhalt hstage (by change bootSel s % 3 = 0; omega),
      lakebedBoot_none (s := begun s) ha hb, if_pos (by exact hsel)]
    exact ⟨_, rfl, by simp [romWait], by simpa [romWait, bootFail, begun] using hhalt⟩
  · rw [exec_secureBoot, secureBoot_romWait (s := begun s) hst hheld hhalt hstage hsel]
    exact ⟨_, rfl, by simp [romWait], by simp [mbReady, romWait]⟩
  · refine ⟨_, exec_secureBoot img s, fun hok => ?_, fun hbad => ?_⟩
    · rw [secureBoot_manager_of_good (s := begun s) hst hheld hhalt hstage hsel himg hok]
      simp [managerImage]
    · rw [secureBoot_manager_of_bad (s := begun s) hst hheld hhalt hstage hsel himg hbad]
      exact ⟨by simp [bootFail, romWait], by rw [settled_ctl_failCode]; rfl⟩
  · rw [exec_secureBoot, secureBoot, if_pos (by simpa [begun] using h)]
  · exact exec_readiness_opens hst hstage hsafe hconf
  · rw [exec_readiness hst, openUp_of_ready (s := begun s) hstage]
    rfl
  · rw [exec_readiness hst, openUp, if_pos (by decide), if_pos (by exact hstage)]
  · rw [exec_readiness hst, openUp_of_unreached (s := begun s) hstage]
    exact ⟨_, rfl, by simp, by simp, settled_faultN_of_bootHalt rfl⟩
  · exact runBase_of_idle (openUp_of_early (s := begun s) hstage h)

end Sys2Proof.Machine
end

section
/-! Queues: the frame of delivering events, the memory that rings lie in, doorbells, interrupts and host frames (03 R57 to R66, 10 R223). -/
namespace Sys2Proof.Machine

/-! ### What ends every step -/

/-- Driving the pins changes PAUSED alone of the control state, and FAULT_N alone of the device's pins. -/
theorem drive_ctl_frame (s : State) : (drive s).ctl = { s.ctl with paused := (drive s).ctl.paused } := by
  unfold drive; dsimp only; split <;> rfl

theorem drive_dev_frame (s : State) : (drive s).dev = { s.dev with faultN := (drive s).dev.faultN } := by
  unfold drive; dsimp only; split <;> rfl

theorem settled_ctl_frame (s u : State) : (settled s u).ctl = { u.ctl with paused := (settled s u).ctl.paused } := by
  rw [← flush_ctl u]
  exact drive_ctl_frame (flush u)

theorem settled_dev_frame (s u : State) : (settled s u).dev = { u.dev with faultN := (settled s u).dev.faultN } := by
  rw [← flush_dev u]
  exact drive_dev_frame (flush u)

/-- Settles O6, by the frame of delivering events and the frame of driving the pins. -/
theorem deliveringEventsTouchesOnlyQueues : Obligations.DeliveringEventsTouchesOnlyQueues := by
  unfold Obligations.DeliveringEventsTouchesOnlyQueues
  refine fun s u => ⟨?_, ⟨settled_ctl_frame s u, settled_dev_frame s u⟩, settled_quiet s u⟩
  simp

/-- Settles O7, by the rules of writing bytes to a memory. That an unlisted byte reads 0 is the model's choice (log entry 7). -/
theorem memoryOperationsKeepTheForm : Obligations.MemoryOperationsKeepTheForm := by
  unfold Obligations.MemoryOperationsKeepTheForm
  intro m a bs hm
  have hrise : Rising m := ((wf_iff 0 m).mp hm).1
  exact ⟨wf_mwrite bs m a hm, fun i hi => mget_mwrite_in bs m a i hrise hi, fun b hb => mget_mwrite_out bs m a b hb⟩

/-! ### Messages and causes change no queue -/

@[simp] theorem evT_queues (s : State) (t typ obj status aux : Nat) : (evT s t typ obj status aux).queues = s.queues := rfl

@[simp] theorem msix_queues (s : State) (f v : Nat) : (msix s f v).queues = s.queues := by
  unfold msix; dsimp only; split
  · split <;> rfl
  · rfl

@[simp] theorem setInt_queues (s : State) (f : Nat) (b : IntBit) : (setInt s f b).queues = s.queues := by
  unfold setInt; split <;> simp

/-- A message changes at most the pending bits of its function. -/
theorem msix_fn (s : State) (f v : Nat) : ∃ vs, tgetD (msix s f v).fns f {} = { tgetD s.fns f {} with vecs := vs } := by
  unfold msix; dsimp only; split
  · split
    · exact ⟨_, by rw [modFn_fns, tgetD_tset_self]⟩
    · exact ⟨_, rfl⟩
  · exact ⟨_, rfl⟩

/-- Once set, a cause of INT_STATUS stays set, and setting it changes of its function nothing but that cause and pending bits. -/
theorem setInt_fn (s : State) (f : Nat) (b : IntBit) :
    ∃ vs, tgetD (setInt s f b).fns f {} = { intPut (tgetD s.fns f {}) b with vecs := vs } := by
  unfold setInt; split
  · rename_i h
    refine ⟨(tgetD s.fns f {}).vecs, ?_⟩
    cases b <;> simp only [intGet] at h <;> simp only [intPut, ← h]
  · obtain ⟨vs, hvs⟩ := msix_fn (modFn s f (intPut · b)) f 0
    exact ⟨vs, by rw [hvs, modFn_fns, tgetD_tset_self]⟩

/-! ### The interrupt of a queue (03 R64) -/

/-- A queue whose interrupt has been raised. -/
def Queue.raised (q : Queue) : Queue := { q with armed := false, unsig := 0, timeUp := false, irqs := inc48 q.irqs 1 }

/-- A queue after its interrupt condition has been checked. -/
def Queue.checked (q : Queue) : Queue := if (running q).any (irqDue q) then q.raised else q

/-- What a check of the interrupt condition does to the table of queues. -/
theorem checkIrq_queues {s : State} {k : Nat} {q : Queue} (hq : tget s.queues k = some q) :
    (checkIrq s k).queues = if (running q).any (irqDue q) then tset s.queues k q.raised else s.queues := by
  simp only [checkIrq, hq]
  cases running q with
  | none => rfl
  | some c =>
    simp only [Option.any_some]
    split
    · split <;> simp [Queue.raised]
    · rfl

theorem checkIrq_of_absent {s : State} {k : Nat} (hq : tget s.queues k = none) : checkIrq s k = s := by
  simp only [checkIrq, hq]

theorem tget_checkIrq_self (s : State) (k : Nat) : tget (checkIrq s k).queues k = (tget s.queues k).map Queue.checked := by
  cases hq : tget s.queues k with
  | none => rw [checkIrq_of_absent hq, hq]; rfl
  | some q =>
    rw [checkIrq_queues hq, Option.map_some, Queue.checked]
    split
    · rw [tget_tset_self]
    · exact hq

theorem tget_checkIrq_ne (s : State) {k j : Nat} (h : j ≠ k) : tget (checkIrq s k).queues j = tget s.queues j := by
  cases hq : tget s.queues k with
  | none => rw [checkIrq_of_absent hq]
  | some q =>
    rw [checkIrq_queues hq]
    split
    · rw [tget_tset_ne _ _ h]
    · rfl

theorem tget_addUnsig_self (s : State) (k n : Nat) :
    tget (addUnsig s k n).queues k = (tget s.queues k).map (fun q => { q with unsig := q.unsig + n }.checked) := by
  rw [addUnsig, tget_checkIrq_self, tget_tmod_self, Option.map_map]
  rfl

theorem tget_addUnsig_ne (s : State) {k j : Nat} (n : Nat) (h : j ≠ k) : tget (addUnsig s k n).queues j = tget s.queues j := by
  rw [addUnsig, tget_checkIrq_ne _ h, tget_tmod_ne _ _ h]

/-- The interrupt leaves the indices and the counters of entries as they were. -/
theorem checked_indices (q : Queue) :
    q.checked.ci = q.ci ∧ q.checked.pi = q.pi ∧ q.checked.consumed = q.consumed ∧ q.checked.badEnt = q.badEnt := by
  unfold Queue.checked; split <;> exact ⟨rfl, rfl, rfl, rfl⟩

/-! ### Stray doorbells (03 R61) -/

theorem stray_queues (s : State) (fn : Nat) : (stray s fn).queues = s.queues := by simp [stray]

/-- A discarded doorbell is counted, and INT_DB_STRAY sets. -/
theorem stray_fn (s : State) (fn : Nat) :
    (tgetD (stray s fn).fns fn {}).strayCnt = inc48 (tgetD s.fns fn {}).strayCnt 1 ∧ (tgetD (stray s fn).fns fn {}).dbStray = true := by
  obtain ⟨vs, hvs⟩ := setInt_fn (modFn s fn (fun f => { f with strayCnt := inc48 f.strayCnt 1 })) fn .dbStray
  rw [stray, hvs, modFn_fns, tgetD_tset_self]
  exact ⟨rfl, rfl⟩

theorem doorbell_of_stray {fn off size : Nat} {s : State} (h : size ≠ 8 ∨ off % 8 ≠ 0 ∨ bellSlot s fn off = none) (v : Nat) :
    doorbell fn off size v s = stray s fn := by
  unfold doorbell; split
  · rfl
  · rename_i ha
    have hslot : bellSlot s fn off = none := by
      rcases h with h | h | h
      · exact absurd (.inl h) ha
      · exact absurd (.inr h) ha
      · exact h
    rw [hslot]

theorem bellRv_of_stray {fn off size : Nat} {s : State} (h : size ≠ 8 ∨ off % 8 ≠ 0 ∨ bellSlot s fn off = none) (v : Nat) :
    bellRv s fn off size v = false := by
  rcases h with h | h | h <;> simp [bellRv, h]

/-! ### A doorbell is no wake event in Run (19 R368) -/

@[simp] theorem refuseDoorbell_rest (s : State) (k : Nat) (q : Queue) :
    (refuseDoorbell s k q).rest = s.rest := by
  unfold refuseDoorbell; dsimp only; split <;> rfl

@[simp] theorem armQueue_rest (s : State) (k : Nat) (arm : Bool) : (armQueue s k arm).rest = s.rest := by
  unfold armQueue; split
  · rw [checkIrq_rest]; rfl
  · rfl

@[simp] theorem ringBell_rest (s : State) (k : Nat) (q : Queue) (c : QCtx) (i : Nat) (arm : Bool) : (ringBell s k q c i arm).rest = s.rest := by
  have hset : ∀ q', (armQueue { s with queues := tset s.queues k q' } k arm).rest = s.rest := fun q' => armQueue_rest _ k arm
  unfold ringBell; dsimp only; repeat' split
  all_goals simp [drain_rest, hset]

theorem stray_rest (s : State) (fn : Nat) : (stray s fn).rest = s.rest := setInt_rest _ _ _

theorem doorbell_rest (fn off size v : Nat) (s : State) : (doorbell fn off size v s).rest = s.rest := by
  unfold doorbell; split
  · exact stray_rest s fn
  · split
    · exact stray_rest s fn
    · split <;> simp

theorem exec_queueDoorbell {s : State} {fn off size : Nat} {val : BitVec 64} (haw : awake s = true) (hst : s.clk.started = true)
    (hrv : bellRv s fn off size val.toNat = false) :
    exec (.queueDoorbell fn off size val) s = .next (settled s (doorbell fn off size val.toNat (begun s))) := by
  have hpwr : (doorbell fn off size val.toNat (begun s)).pwr = s.pwr := (congrArg State.pwr (doorbell_rest fn off size val.toNat (begun s)) :)
  have hwake : awake (doorbell fn off size val.toNat (begun s)) = true := by rw [awake, hpwr]; exact haw
  refine (if_neg (by simp [hrv])).trans ((runBase_of_started hst _).trans ?_)
  rw [wake_of_awake hwake]

/-! ### The outcomes of a doorbell on a ring (03 R61) -/

/-- How far index `i` lies ahead of index `last` on a ring. -/
def QCtx.ahead (c : QCtx) (i last : Nat) : Nat := (i + 2 ^ (c.ringLog + 1) - last) % 2 ^ (c.ringLog + 1)

section
variable {s : State} {k i : Nat} {q : Queue} {c : QCtx}

/-- Slot `k` of PF0 is the doorbell of queue `k`. -/
theorem bellSlot_pf0 (hq : tget s.queues k = some q) (hnext : q.next = none) (hctx : q.ctx = some c) (htyp : 5 ≤ q.typ)
    (hdes : q.destroy = false) : bellSlot s 0 (8 * k) = some (k, q, c) := by
  have hslot : 8 * k / 8 = k := by omega
  simp [bellSlot, hslot, hq, hdes, Queue.context, hnext, hctx, show ¬ q.typ ≤ 4 by omega]

theorem doorbell_of_index (hslot : bellSlot s 0 (8 * k) = some (k, q, c)) (hi : i < 2 ^ 21) :
    doorbell 0 (8 * k) 8 i s = ringBell s k q c i false := by
  have hlow : bits i 20 0 = i := by rw [bits, Nat.pow_zero, Nat.div_one, Nat.mod_eq_of_lt hi]
  have hhigh : bits i 31 21 = 0 := bits_eq_zero hi
  have harm : bit i 32 = false := by rw [bit, Nat.div_eq_of_lt (by omega)]; rfl
  rw [doorbell, if_neg (by omega), hslot]
  simp only [hlow, hhigh, harm, ne_eq, not_true, if_false]

/-- A refused doorbell of a ring: counted, and reported at most once per ms. -/
def Queue.refused (q : Queue) (now : Nat) : Queue := { q with dbRef := inc48 q.dbRef 1, refAt := some now }

theorem refuseDoorbell_queues (s : State) (k : Nat) (q : Queue) :
    (refuseDoorbell s k q).queues = tset s.queues k (q.refused (msecs s)) := by
  unfold refuseDoorbell; dsimp only; split <;> rfl

theorem ringBell_of_beyond (h : 2 ^ (c.ringLog + 1) ≤ i) : ringBell s k q c i false = refuseDoorbell s k q := if_pos h

section
variable (hi : i < 2 ^ (c.ringLog + 1))
include hi

theorem ringBell_of_same (hd : c.ahead i (if q.typ = 5 then q.pi else q.ci) = 0) :
    ringBell s k q c i false = s :=
  (if_neg (by omega)).trans (if_pos hd)

/-- A host-to-device ring takes an INDEX with room for what lies ahead of it as PI. -/
theorem ringBell_hostToDevice (htyp : q.typ = 5) : ringBell s k q c i false =
    if c.ahead i q.pi = 0 then s
    else if occ q c + c.ahead i q.pi ≤ 2 ^ c.ringLog then
      { s with queues := tset s.queues k { q with pi := i, produced := inc48 q.produced (c.ahead i q.pi) } }
    else refuseDoorbell s k q := by
  simp only [ringBell, htyp, if_true]
  rw [if_neg (by omega)]
  rfl

/-- A device-to-host ring takes an INDEX that is not past PI as CI. -/
theorem ringBell_deviceToHost (htyp : q.typ = 6) : ringBell s k q c i false =
    if c.ahead i q.ci = 0 then s
    else if c.ahead i q.ci ≤ occ q c then
      { s with queues := tset s.queues k { q with ci := i, consumed := inc48 q.consumed (c.ahead i q.ci) } }
    else refuseDoorbell s k q := by
  simp only [ringBell, htyp, Nat.reduceEqDiff, false_and, if_false]
  rw [if_neg (by omega)]
  rfl

end

/-! ### COAL_TIME (03 R64) -/

section
variable (hq : tget s.queues k = some q) (hrun : running q = some c)
include hq hrun

theorem coalExpired_of_idle (h : c.coalTime = 0 ∨ q.unsig = 0) : coalExpired k s = s := by
  simp only [coalExpired, hq, hrun]
  exact if_neg (by omega)

/-- An armed queue whose oldest unsignalled entry has waited COAL_TIME raises its interrupt. -/
theorem tget_coalExpired (htime : c.coalTime ≠ 0) (hunsig : q.unsig ≠ 0) (harm : q.armed = true) (hdes : q.destroy = false)
    (hvec : c.vector ≠ 0xFFFF) : tget (coalExpired k s).queues k = some q.raised := by
  have hdue : (running { q with timeUp := true }).any (irqDue { q with timeUp := true }) = true := by
    rw [show running { q with timeUp := true } = some c from hrun]
    simp [irqDue, harm, hdes, hvec, hunsig, htime]
  simp only [coalExpired, hq, hrun]
  rw [if_pos ⟨htime, hunsig⟩, tget_checkIrq_self, tget_tset_self, Option.map_some, Queue.checked, if_pos hdue]
  rfl

/-! ### Host frames (10 R223) -/

theorem hostTxFrame_of_empty (h : q.pi = q.ci) : hostTxFrame k s = s := by
  simp only [hostTxFrame, hq, hrun]
  exact if_pos (.inr (.inr (.inl h)))

end

/-- Whether entry `q.ci` of a packet ring holds a frame that fits it (03 R57). -/
abbrev FrameGood (s : State) (q : Queue) (c : QCtx) : Prop :=
  mget 0 s.host (entryAddr c q.ci + 4) = 1 ∧ leNat (mread s.host (entryAddr c q.ci) 4) + 16 ≤ 2 ^ c.entLog

/-- A packet ring from which the next entry has been taken. -/
def Queue.frameTaken (q : Queue) (c : QCtx) (good : Prop) [Decidable good] : Queue :=
  { q with ci := nextIdx c q.ci, consumed := inc48 q.consumed 1, badEnt := if good then q.badEnt else inc48 q.badEnt 1 }

theorem hostTxFrame_of_entry (hq : tget s.queues k = some q) (hrun : running q = some c) (htyp : q.typ = 5) (hlink : c.link = 0xFFFF)
    (hup : fnUp s (fnOf q.tenant) = true) (hne : q.pi ≠ q.ci) :
    hostTxFrame k s =
      let u := addUnsig { s with queues := tset s.queues k (q.frameTaken c (FrameGood s q c)) } k 1
      if FrameGood s q c then
        sendHost q.tenant (leNat (mread s.host (entryAddr c q.ci + 6) 2))
          (mread s.host (entryAddr c q.ci + 16) (leNat (mread s.host (entryAddr c q.ci) 4))) u
      else u := by
  simp only [hostTxFrame, hq, hrun]
  rw [if_neg (by simp [htyp, hlink, hup, hne])]
  simp only [Bool.and_eq_true, beq_iff_eq, decide_eq_true_eq]
  by_cases hg : FrameGood s q c
  · simp only [Queue.frameTaken, if_pos hg]
  · simp only [Queue.frameTaken, if_neg hg]

theorem frameTaken_indices (good : Prop) [Decidable good] :
    (tget (addUnsig { s with queues := tset s.queues k (q.frameTaken c good) } k 1).queues k).map (fun x => (x.ci, x.pi, x.consumed, x.badEnt))
      = some (nextIdx c q.ci, q.pi, inc48 q.consumed 1, if good then q.badEnt else inc48 q.badEnt 1) := by
  rw [tget_addUnsig_self, tget_tset_self]
  simp [checked_indices, Queue.frameTaken]

end

/-- Settles O18: the step of a doorbell is `doorbell` on the slot's queue, and each form of its index has one outcome of `ringBell`; the
interrupt is `checkIrq`, and the entry of a packet ring is taken whatever it holds. That an interrupt counts for an unbound tenant too
(log entry 105), that refusals are told apart by whole ms (log entry 9), what becomes of a bad entry and of a host frame (log entry 97), and the
stop on a reserved bit (log entry 47) are the model's choices. -/
theorem queueDoorbellsAndInterrupts : Obligations.QueueDoorbellsAndInterrupts := by
  unfold Obligations.QueueDoorbellsAndInterrupts
  refine ⟨fun fn off size val s haw hst => ⟨fun h => ?_, fun hsize hoff hslot hrv => ?_⟩,
    fun k val s q c haw hst hq hnext hctx htyp hdes hval => ?_, fun k s q c hst hmere hq hrun => ⟨fun htime hunsig harm hdes hvec => ?_,
      fun h => ?_, fun htyp hlink hup hne => ?_, fun h => ?_⟩⟩
  · refine ⟨_, exec_queueDoorbell haw hst (bellRv_of_stray h _), ?_⟩
    rw [doorbell_of_stray (s := begun s) h]
    exact ⟨stray_queues (begun s) fn, stray_fn (begun s) fn⟩
  · exact if_pos (by simp [bellRv, hsize, hoff, hrv, Option.isSome_iff_ne_none, hslot])
  · intro m i go
    have hslot : bellSlot (begun s) 0 (8 * k) = some (k, q, c) := bellSlot_pf0 hq hnext hctx htyp hdes
    have hrv : bellRv s 0 (8 * k) 8 val.toNat = false := by simp [bellRv, bits_eq_zero (n := val.toNat) (hi := 63) (lo := 33) (by omega)]
    have hexec := exec_queueDoorbell haw hst hrv
    rw [doorbell_of_index hslot hval] at hexec
    have hgo : ∀ {u q'}, ringBell (begun s) k q c i false = u → u.queues = tset s.queues k q' → go q' := fun hu h => by
      rw [hu] at hexec
      exact ⟨_, hexec, by rw [h, tget_tset_self], fun j hj => by rw [h, tget_tset_ne _ _ hj]⟩
    have hrefused : ringBell (begun s) k q c i false = refuseDoorbell (begun s) k q → go (q.refused (msecs s)) := fun hu =>
      hgo hu (refuseDoorbell_queues (begun s) k q)
    refine ⟨fun h5 hi hd hroom => ?_, fun h5 hi hd hfull => hrefused ?_, fun h6 hi hd hocc => ?_, fun h6 hi hocc => hrefused ?_,
      fun hi hd => ?_, fun hi => hrefused (ringBell_of_beyond hi)⟩
    · exact hgo ((ringBell_hostToDevice hi h5).trans ((if_neg (Nat.ne_of_gt hd)).trans (if_pos hroom))) rfl
    · exact (ringBell_hostToDevice hi h5).trans ((if_neg (Nat.ne_of_gt hd)).trans (if_neg (Nat.not_le_of_lt hfull)))
    · exact hgo ((ringBell_deviceToHost hi h6).trans ((if_neg (Nat.ne_of_gt hd)).trans (if_pos hocc))) rfl
    · exact (ringBell_deviceToHost hi h6).trans ((if_neg (Nat.ne_zero_of_lt hocc)).trans (if_neg (Nat.not_le_of_lt hocc)))
    · have hsame : ringBell (begun s) k q c i false = begun s := ringBell_of_same hi hd
      exact ⟨_, hexec, by rw [hsame]; exact hq, fun j _ => by rw [hsame]; rfl⟩
  · exact ⟨_, runBase_of_started hst _, tget_coalExpired (s := begun s) hq hrun htime hunsig harm hdes hvec⟩
  · exact (runBase_of_started hst _).trans (by rw [coalExpired_of_idle (s := begun s) hq hrun h])
  · refine ⟨?_, frameTaken_indices (s := begun s) _, fun j hj => ?_⟩
    · exact (runMere_of_running hmere _).trans (by rw [hostTxFrame_of_entry (s := begun s) hq hrun htyp hlink hup hne]; rfl)
    · exact (tget_addUnsig_ne _ 1 hj).trans (tget_tset_ne _ _ hj)
  · exact (runMere_of_running hmere _).trans (by rw [hostTxFrame_of_empty (s := begun s) hq hrun h])

end Sys2Proof.Machine
end

section
/-! Tenants: what their commands leave of the tenants, the quotas and the bindings (03 R48 to R52). -/
namespace Sys2Proof.Machine

/-! ### Bits of a number -/

/-- Adding a power of two whose bit is clear sets that bit and no other. -/
theorem bit_add_two_pow {n k : Nat} (h : bit n k = false) (j : Nat) : bit (n + 2 ^ k) j = if j = k then true else bit n j := by
  have hk : n / 2 ^ k % 2 = 0 := by simpa [bit] using h
  have hquot : (n + 2 ^ k) / 2 ^ k = n / 2 ^ k + 1 := Nat.add_div_right n (Nat.two_pow_pos k)
  rcases Nat.lt_trichotomy j k with hj | rfl | hj
  · obtain ⟨d, rfl⟩ := Nat.exists_eq_add_of_lt hj
    have hsplit : 2 ^ (j + d + 1) = 2 ^ j * (2 ^ d * 2) := by rw [Nat.add_assoc, Nat.pow_add, Nat.pow_succ]
    rw [if_neg (by omega), bit, bit, hsplit, Nat.add_mul_div_left _ _ (Nat.two_pow_pos j), Nat.add_mul_mod_self_right]
  · rw [if_pos rfl, bit, hquot]
    exact beq_iff_eq.mpr (by omega)
  · obtain ⟨d, rfl⟩ := Nat.exists_eq_add_of_lt hj
    have hhalf : (n / 2 ^ k + 1) / 2 = n / 2 ^ k / 2 := by omega
    have hshift : ∀ m, m / 2 ^ (k + d + 1) = m / 2 ^ k / 2 / 2 ^ d := fun m => by
      rw [Nat.div_div_eq_div_mul, Nat.div_div_eq_div_mul, ← Nat.pow_succ', ← Nat.pow_add, Nat.add_assoc]
    rw [if_neg (by omega), bit, bit, hshift, hshift, hquot, hhalf]

/-- Subtracting a power of two whose bit is set clears that bit and no other. -/
theorem bit_sub_two_pow {n k : Nat} (h : bit n k = true) (j : Nat) : bit (n - 2 ^ k) j = if j = k then false else bit n j := by
  have hone : n / 2 ^ k % 2 = 1 := by simpa [bit] using h
  have hle : 2 ^ k ≤ n := Nat.le_of_not_lt fun hlt => by
    rw [Nat.div_eq_of_lt hlt] at hone
    omega
  have hquot : (n - 2 ^ k) / 2 ^ k = n / 2 ^ k - 1 := by simpa using Nat.sub_mul_div n (2 ^ k) 1
  have hclear : bit (n - 2 ^ k) k = false := by
    rw [bit, hquot]
    exact beq_eq_false_iff_ne.mpr (by omega)
  have hback := bit_add_two_pow hclear j
  rw [Nat.sub_add_cancel hle] at hback
  split
  · rename_i hj; rw [hj, hclear]
  · rename_i hj; rw [hback, if_neg hj]

/-- A number with bit `k` cleared, as `setBit` clears it. -/
theorem bit_cleared (n k j : Nat) : bit (if bit n k then n - 2 ^ k else n) j = if j = k then false else bit n j := by
  split
  · rename_i h; exact bit_sub_two_pow h j
  · rename_i h
    split
    · rename_i hj; rw [hj]; exact eq_false_of_ne_true h
    · rfl

theorem bit_setBit (n k : Nat) (b : Bool) (j : Nat) : bit (setBit n k b) j = if j = k then b else bit n j := by
  have hclear := bit_cleared n k
  rw [setBit]
  generalize (if bit n k then n - 2 ^ k else n) = m at hclear
  cases b with
  | false => exact hclear j
  | true =>
    have hk : bit m k = false := by rw [hclear k, if_pos rfl]
    rw [if_pos rfl, bit_add_two_pow hk j, hclear j]
    split <;> rfl

/-! ### Triplicated fields and bindings (03 R52, 20 R377) -/

theorem tripCopies_tripPut (v : List (TripField × Trip)) (f g : TripField) (t : Trip) :
    tripCopies (tripPut v f t) g = if g = f then t else tripCopies v g := by
  induction v with
  | nil => simp only [tripPut, tripCopies, eq_comm]
  | cons p v ih =>
    obtain ⟨h, u⟩ := p
    by_cases hf : h = f
    · subst hf
      by_cases hg : h = g
      · subst hg; simp [tripPut, tripCopies]
      · simp [tripPut, tripCopies, hg, Ne.symm hg]
    · by_cases hg : h = g
      · subst hg; simp [tripPut, tripCopies, hf]
      · simp [tripPut, tripCopies, hf, hg, ih]

/-- What is written to a triplicated field is read back, and no other field changes. -/
theorem tripGet_tripSet (s : State) (f g : TripField) (n : Nat) : tripGet (tripSet s f n) g = if g = f then n else tripGet s g := by
  rw [tripGet, tripSet_votes, tripCopies_tripPut]
  split
  · simp [majority]
  · rfl

theorem bound_setBound (s : State) (t : Nat) (b : Bool) (j : Nat) : bound (setBound s t b) j = if j = t then b else bound s j := by
  rw [bound, setBound, tripGet_tripSet]
  by_cases hw : j / 64 = t / 64
  · rw [if_pos (by rw [hw]), bit_setBit, ← hw, ← bound]
    by_cases hj : j = t
    · rw [if_pos (by rw [hj]), if_pos hj]
    · rw [if_neg (by omega), if_neg hj]
  · rw [if_neg (by simpa using hw), if_neg (by rintro rfl; exact hw rfl), bound]

theorem bound_congr {s u : State} (h : u.votes = s.votes) (j : Nat) : bound u j = bound s j := by
  rw [bound, bound, tripGet, tripGet, h]

/-! ### What a row whose checks pass has met -/

theorem failIf_eq_nil {b : Bool} {f : Fail} (h : failIf b f = []) : b = false := by
  cases b with
  | false => rfl
  | true => cases h

theorem firstFail_eq_none {fs : List Fail} (h : firstFail fs = none) : fs = [] := by
  cases fs with
  | nil => rfl
  | cons f fs =>
    unfold firstFail at h
    split at h
    · cases h
    · split at h <;> cases h

/-- A command that passes has the plan of its row, which finds nothing at fault, for a TENANT that suits it (22 R398). -/
theorem check_go {k : Cmd} {mb : Nat} {who : Bool × Option Nat} {d : Desc} {carried : List Byte} {rf mir : Bool} {s : State} {p : Plan} {c : Ctx}
    (h : check k mb who d carried rf mir s = .go p c) : p = k.plan c s ∧ p.fails = [] ∧ tenantSuits k s c.tenant = true := by
  unfold check at h
  dsimp only at h
  split at h
  · split at h
    · cases h
    · split at h <;> cases h
  · split at h
    · split at h <;> cases h
    · rename_i hsuits
      split at h
      · cases h
      · rename_i hnone
        cases h
        have hall := firstFail_eq_none hnone
        simp only [List.append_eq_nil_iff] at hall
        obtain ⟨⟨⟨⟨-, hfails⟩, -⟩, -⟩, -⟩ := hall
        exact ⟨rfl, hfails, by simpa using failIf_eq_nil (Decidable.not_not.mp hsuits)⟩

/-- A row whose scope is a tenant passes for a tenant that exists only. -/
theorem tenant_exists {k : Cmd} {r : Req} {s : State} {p : Plan} {c : Ctx} (hcheck : rowCheck k r s = .go p c) (hop : k.opcode ≠ 0x0201)
    (hscope : k.scope = 'T') : ∃ x, tget s.tenants c.tenant = some x := by
  obtain ⟨-, -, hsuits⟩ := check_go hcheck
  rw [tenantSuits, if_neg hop, hscope] at hsuits
  exact Option.isSome_iff_exists.mp hsuits

/-! ### What answering a row, and mirroring it, leave as it was -/

theorem respond_tenants (s : State) (mb : Nat) (x : List Byte) (peer : List Byte × Nat) : (respond s mb x peer).tenants = s.tenants :=
  (congrArg State.tenants (respond_tables s mb x peer) :)

theorem respond_votes (s : State) (mb : Nat) (x : List Byte) (peer : List Byte × Nat) : (respond s mb x peer).votes = s.votes :=
  (congrArg State.votes (respond_tables s mb x peer) :)

theorem setInt_ctl (s : State) (f : Nat) (b : IntBit) : (setInt s f b).ctl = s.ctl := (congrArg State.ctl (setInt_rest s f b) :)

theorem laneOut_ctl (s : State) (l kind : Nat) (b : List Byte) : (laneOut s l kind b).ctl = s.ctl := by
  unfold laneOut; split <;> rfl

theorem respond_pend (s : State) (mb : Nat) (x : List Byte) (peer : List Byte × Nat) : (respond s mb x peer).ctl.pend = s.ctl.pend := by
  have hint : ∀ (b : Bool) (u : State), (if b then setInt u mb .mbxRsp else u).ctl.pend = u.ctl.pend := fun b u => by
    split
    · rw [setInt_ctl]
    · rfl
  unfold respond
  dsimp only
  split
  · rw [laneOut_ctl, hint]; rfl
  · split
    · exact hint _ _
    · exact hint _ _

section
variable (k : Cmd) (r : Req) (mb : Nat) (d : Desc) (c : Ctx) (s t : State)

theorem mirrorSent_tenants : (mirrorSent k mb d c s t).tenants = t.tenants := by unfold mirrorSent; split <;> rfl
theorem mirrorSent_votes : (mirrorSent k mb d c s t).votes = t.votes := by unfold mirrorSent; split <;> rfl
theorem mirrorSent_ctl : (mirrorSent k mb d c s t).ctl = t.ctl := by unfold mirrorSent; split <;> rfl

theorem mirrorSent_of_query (h : k.query = true) : mirrorSent k mb d c s t = t := if_neg (by simp [mirrors, h])

/-- The state in which the effect of a row takes place. -/
def rowAct : State := effectStart k (rowStart k r s)

theorem rowAct_tenants : (rowAct k r s).tenants = s.tenants := by unfold rowAct effectStart; split <;> rfl
theorem rowAct_votes : (rowAct k r s).votes = s.votes := by unfold rowAct effectStart; split <;> rfl
theorem rowAct_pend : (rowAct k r s).ctl.pend = s.ctl.pend := by
  have hturn : (rowStart k r s).ctl.pend = s.ctl.pend := by unfold rowStart turnTaken; split <;> rfl
  unfold rowAct effectStart; split <;> exact hturn

end

/-! ### Rows applied -/

section
variable {i : Instr} {k : Cmd} {r : Req} {s : State} {p : Plan} {c : Ctx}
variable (hrow : scsRow i = some (k, r)) (hserves : serves s r.mb = true) (hfence : fenceFree k r s = true)
  (hcheck : rowCheck k r s = .go p c) (hdry : c.dry = false)
include hrow hserves hfence hcheck hdry

theorem exec_of_ok {det : List Byte} (ha : (p.act (rowAct k r s)).2 = .ok det) :
    exec i s = .next (settled s (respond (mirrorSent k r.mb (rowEntry k r s) c (rowStart k r s) (p.act (rowAct k r s)).1) r.mb
      (response (rowEntry k r s) k.opcode 0 det) ([], 0))) := by
  rw [runRow i k r s hrow, runCmd_serves k r s hserves hfence, execCmd_of_ok hcheck hdry ha]
  rfl

/-- A row that is applied leaves the tenants and the bindings as its effect does. -/
theorem exec_effect {t : State} {det : List Byte} (ha : p.act (rowAct k r s) = (t, .ok det)) :
    ∃ u, exec i s = .next (settled s u) ∧ u.tenants = t.tenants ∧ u.votes = t.votes := by
  refine ⟨_, exec_of_ok hrow hserves hfence hcheck hdry (det := det) (by rw [ha]), ?_⟩
  rw [respond_tenants, respond_votes, mirrorSent_tenants, mirrorSent_votes, ha]
  exact ⟨rfl, rfl⟩

/-- A row that changes its tenant by `f` changes no other, and no binding. -/
theorem exec_modTenant {f : Tenant → Tenant} {x : Tenant} (ha : ∀ v, p.act v = (modTenant v c.tenant f, .ok []))
    (hx : tget s.tenants c.tenant = some x) :
    ∃ u, exec i s = .next (settled s u) ∧ tget u.tenants c.tenant = some (f x) ∧ (∀ j, j ≠ c.tenant → tget u.tenants j = tget s.tenants j)
      ∧ ∀ j, bound u j = bound s j := by
  obtain ⟨u, hu, hten, hvotes⟩ := exec_effect hrow hserves hfence hcheck hdry (ha (rowAct k r s))
  rw [modTenant, rowAct_tenants] at hten
  refine ⟨u, hu, ?_, fun j hj => ?_, bound_congr (hvotes.trans (rowAct_votes k r s))⟩
  · rw [hten, tget_tmod_self, hx]; rfl
  · rw [hten, tget_tmod_ne _ _ hj]

/-- A row that sets the binding for the next boundary, of a tenant that exists, changes no binding (02 R38). -/
theorem exec_nextBound {b : Bool} (hop : k.opcode ≠ 0x0201) (hscope : k.scope = 'T')
    (ha : ∀ v, p.act v = (modTenant v c.tenant (fun x => { x with nextBound := some b }), .ok [])) :
    ∃ u x, exec i s = .next (settled s u) ∧ tget s.tenants c.tenant = some x ∧ tget u.tenants c.tenant = some { x with nextBound := some b }
      ∧ (∀ j, j ≠ c.tenant → tget u.tenants j = tget s.tenants j) ∧ ∀ j, bound u j = bound s j := by
  obtain ⟨x, hx⟩ := tenant_exists hcheck hop hscope
  obtain ⟨u, hu, hself, hothers, hbound⟩ := exec_modTenant hrow hserves hfence hcheck hdry ha hx
  exact ⟨u, x, hu, hx, hself, hothers, hbound⟩

/-- A row that changes its tenant by `f` and pends is listed. -/
theorem exec_modTenant_pend {f : Tenant → Tenant} {what : PendWhat} {holds : List Obj}
    (ha : ∀ v, p.act v = (modTenant v c.tenant f, .pend what holds)) (hafter : p.after = id) :
    ∃ u w, exec i s = .next (settled s u) ∧ u.ctl.pend = s.ctl.pend ++ [w] ∧ w.what = what ∧ w.mb = r.mb
      ∧ ∀ j, j ≠ c.tenant → tget u.tenants j = tget s.tenants j := by
  have hact : (p.act (effectStart k (rowStart k r s))) = _ := ha (rowAct k r s)
  rw [runRow i k r s hrow, runCmd_serves k r s hserves hfence, execCmd_of_pend hcheck hdry (by rw [hact]), hact, hafter]
  refine ⟨_, ⟨r.mb, k.opcode, (rowEntry k r s).tag, (rowEntry k r s).tenant, what, holds, false⟩, rfl, ?_, rfl, rfl, fun j hj => ?_⟩
  · rw [respond_pend]
    dsimp only [id]
    rw [mirrorSent_ctl, modTenant]
    dsimp only
    rw [rowAct_pend]
  · rw [respond_tenants]
    dsimp only [id]
    rw [mirrorSent_tenants, modTenant, rowAct_tenants, tget_tmod_ne _ _ hj]

end

/-! ### tenant.create and tenant.quota_set -/

/-- The tenant that tenant.create makes. -/
def newTenant (c : Ctx) : Tenant :=
  let x : Tenant := { rate96 := c.u8 0 == 1, period := c.u8 1, perFn := c.u8 2 == 1, quota := quotasOf c }
  { x with mclk := { inc := x.nomInc } }

theorem planTenantCreate_act (c : Ctx) (v s : State) : (planTenantCreate c v).act s =
    (setBound { s with tenants := tset s.tenants c.tenant (newTenant c) } c.tenant (c.u8 3 == 1), .ok []) := rfl

/-- Where tenant.quota_set finds nothing at fault, no quota lies below its use (03 R51). -/
theorem useOf_le_of_planQuotaSet {c : Ctx} {v : State} {x : Tenant} (hx : tget v.tenants c.tenant = some x) (h : (planQuotaSet c v).fails = [])
    {j : Nat} (hlo : 1 ≤ j) (hhi : j ≤ 6) : useOf x.use j ≤ useOf (quotasOf c) j := by
  simp only [planQuotaSet, change, List.append_eq_nil_iff, List.flatMap_eq_nil_iff, tenant_of_tget hx] at h
  obtain ⟨⟨-, hlow⟩, -⟩ := h
  have hmem : j ∈ range 1 7 := by
    rw [range, List.mem_map]
    exact ⟨j - 1, by simp only [List.mem_range]; omega, by omega⟩
  simpa using failIf_eq_nil (hlow j hmem)

/-! ### The binding at a frame boundary (02 R38, 03 R52) -/

theorem bindOpen_rest {s : State} {t : Nat} {x : Tenant} {b : Bool} (hx : tget s.tenants t = some x) (hb : x.nextBound = some b) :
    (bindOpen t s).rest = (setBound (modTenant s t (fun x => { x with nextBound := none })) t b).rest := by
  simp only [bindOpen, tenant_of_tget hx, hb]
  split
  · exact drain_rest ..
  · rfl

/-- Settles O17: a row that passes has the plan of its row, whose effect on the tenants and the bindings answering and mirroring keep. That
the row is posted, taken, executed and answered in one step is the model's choice (log entry 8). -/
theorem tenantsAndQuotas : Obligations.TenantsAndQuotas := by
  unfold Obligations.TenantsAndQuotas
  refine ⟨fun r s p c hserves k hten hfence hcheck hdry => ?_, fun t b s x ht hx hb => ?_⟩
  · obtain ⟨hplan, hfails, -⟩ := check_go hcheck
    refine ⟨?create, ?quotaSet, ?bind, ?destroy, ?query⟩
    case create =>
      rintro rfl
      subst hplan
      obtain ⟨u, hu, htenants, hvotes⟩ := exec_effect (i := .tenantCreate r) rfl hserves hfence hcheck hdry (planTenantCreate_act c _ _)
      have hset : u.tenants = tset s.tenants c.tenant (newTenant c) := htenants.trans (by rw [← rowAct_tenants cmdTenantCreate r s]; rfl)
      have hbound : ∀ j, bound u j = if j = c.tenant then c.u8 3 == 1 else bound s j := fun j => by
        have hstart : bound (rowAct cmdTenantCreate r s) j = bound s j := bound_congr (rowAct_votes cmdTenantCreate r s) j
        rw [bound_congr hvotes, bound_setBound, ← hstart]
        rfl
      exact ⟨u, newTenant c, hu, by rw [hset, tget_tset_self], rfl, rfl, rfl, rfl, rfl, rfl, rfl, by rw [hbound, if_pos rfl], fun j hj =>
        ⟨by rw [hset, tget_tset_ne _ _ hj], fun _ => by rw [hbound, if_neg hj]⟩⟩
    case quotaSet =>
      rintro rfl x hx
      subst hplan
      obtain ⟨u, hu, hself, hothers, -⟩ := exec_modTenant (i := .tenantQuotaSet r) rfl hserves hfence hcheck hdry (fun _ => rfl) hx
      exact ⟨u, hu, hself, fun i hlo hhi => useOf_le_of_planQuotaSet (v := rowStart cmdQuotaSet r s) hx hfails hlo hhi, hothers⟩
    case bind =>
      rintro b i (⟨rfl, rfl, rfl⟩ | ⟨rfl, rfl, rfl⟩)
      all_goals exact exec_nextBound rfl hserves hfence hcheck hdry (by decide) rfl (fun _ => by rw [hplan]; rfl)
    case destroy =>
      rintro rfl
      subst hplan
      exact exec_modTenant_pend (i := .tenantDestroy r) rfl hserves hfence hcheck hdry (fun _ => rfl) rfl
    case query =>
      rintro rfl
      subst hplan
      rw [exec_of_ok (i := .tenantQuery r) rfl hserves hfence hcheck hdry rfl, mirrorSent_of_query _ _ _ _ _ _ rfl]
      rw [rowAct, effectStart_of_query rfl]
      rfl
  · have hrest := bindOpen_rest hx hb
    have hvotes : (bindOpen t s).votes = (setBound (modTenant s t (fun x => { x with nextBound := none })) t b).votes :=
      (congrArg State.votes hrest :)
    have htenants : (bindOpen t s).tenants = tmod s.tenants t (fun x => { x with nextBound := none }) := (congrArg State.tenants hrest :)
    have hbound : ∀ j, bound (bindOpen t s) j = if j = t then b else bound s j := fun j => (bound_congr hvotes j).trans (bound_setBound _ t b j)
    exact ⟨by rw [hbound, if_pos rfl], fun j _ hj => by rw [hbound, if_neg hj], by rw [htenants, tget_tmod_self, hx]; rfl⟩

end Sys2Proof.Machine
end


section
/-! Streams (04 R85 to R101): what changing and counting a stream does to the table, packets that fail a receive check, silence and idle
legs, calendar slots, and legs on Causeway lanes. -/
namespace Sys2Proof.Machine

/-! ### A stream changed or counted -/

theorem tmod_of_tget {α : Type} {t : Tbl α} {k : Nat} {v : α} (h : tget t k = some v) (f : α → α) : tmod t k f = tset t k (f v) := by
  rw [tmod, h]

theorem modStream_of_tget {s : State} {k : Nat} {st : Stream} (h : tget s.streams k = some st) (f : Stream → Stream) :
    modStream s k f = { s with streams := tset s.streams k (f st) } := by
  rw [modStream, tmod_of_tget h]

theorem tget_modStream_self {s : State} {k : Nat} {st : Stream} (h : tget s.streams k = some st) (f : Stream → Stream) :
    tget (modStream s k f).streams k = some (f st) := by
  rw [modStream, tget_tmod_self, h, Option.map_some]

theorem tget_modStream_ne (s : State) {k j : Nat} (f : Stream → Stream) (h : j ≠ k) : tget (modStream s k f).streams j = tget s.streams j :=
  tget_tmod_ne _ _ h

theorem tget_count_self {s : State} {k : Nat} {st : Stream} (h : tget s.streams k = some st) (i : Nat) :
    tget (count s k i).streams k = some (st.bump i 1) := tget_modStream_self h _

theorem tget_count_ne (s : State) {k j : Nat} (i : Nat) (h : j ≠ k) : tget (count s k i).streams j = tget s.streams j :=
  tget_modStream_ne s _ h

@[simp] theorem setLeg_tenant (st : Stream) (g : Nat) (l : Leg) : (st.setLeg g l).tenant = st.tenant := by unfold Stream.setLeg; split <;> rfl
@[simp] theorem setLeg_key (st : Stream) (g : Nat) (l : Leg) : (st.setLeg g l).key = st.key := by unfold Stream.setLeg; split <;> rfl
@[simp] theorem setLeg_nextKey (st : Stream) (g : Nat) (l : Leg) : (st.setLeg g l).nextKey = st.nextKey := by
  unfold Stream.setLeg; split <;> rfl

/-- The event of a change that leaves the stream with its tenant. -/
theorem streamEv_modStream {s : State} {k : Nat} {st : Stream} {f : Stream → Stream} (h : tget s.streams k = some st)
    (ht : (f st).tenant = st.tenant) (typ aux : Nat) :
    streamEv (modStream s k f) k typ aux = evT { s with streams := tset s.streams k (f st) } st.tenant typ k 0 aux := by
  rw [streamEv, tget_modStream_self h, Option.getD_some, ht, modStream_of_tget h]
  rfl

/-! ### Silence and idle legs (04 R94, R96) -/

theorem exec_noPacketForL {s : State} (hrun : s.clk.running = true) (n : Nat) :
    exec (.noPacketForL n) s = .next (settled s (noPacket n (begun s))) := runMere_of_running hrun _

theorem exec_legIdleTimeout {s : State} (hrun : s.clk.running = true) (n g : Nat) :
    exec (.legIdleTimeout n g) s = .next (settled s (legIdle n g (begun s))) := runMere_of_running hrun _

theorem skey_rx (n : Nat) : skey 0 n = n := by simp [skey]

section
variable {s : State} {n g : Nat} {st : Stream} (hst : tget s.streams n = some st)
include hst

theorem noPacket_of_audible (hact : st.rx.active = true) (hsil : st.rx.silent = false) :
    noPacket n s = evT { s with streams := tset s.streams n { st with rx := { st.rx with silent := true } } } st.tenant 0x402 n 0 0 := by
  simp only [noPacket, skey_rx, hst]
  rw [if_pos (by simp [hact, hsil])]
  exact streamEv_modStream hst (by rfl) _ _

theorem noPacket_of_unheard (h : st.rx.active = false ∨ st.rx.silent = true) : noPacket n s = s := by
  simp only [noPacket, skey_rx, hst]
  exact if_neg (by rcases h with h | h <;> simp [h])

theorem legIdle_of_up (hg : g < 2) (hup : (st.leg g).up = true) :
    legIdle n g s = evT { s with streams := tset s.streams n (st.setLeg g { st.leg g with up := false }) } st.tenant 0x404 n 0 g := by
  simp only [legIdle, skey_rx, hst, Nat.mod_eq_of_lt hg]
  rw [if_pos hup]
  exact streamEv_modStream (f := (·.setLeg g { st.leg g with up := false })) hst (setLeg_tenant _ _ _) _ _

theorem legIdle_of_down (hg : g < 2) (hup : (st.leg g).up = false) : legIdle n g s = s := by
  simp only [legIdle, skey_rx, hst, Nat.mod_eq_of_lt hg]
  exact if_neg (by simp [hup])

end

/-! ### Checks 1 to 3 of a packet, and the missing key (04 R85, R88, R97) -/

/-- What the policer of leg `g` makes of a packet just counted: the leg with its bucket, and whether the packet passes. -/
abbrev policed (s : State) (k g : Nat) (st : Stream) : Leg × Bool := police (count s k g) st.cfg (st.leg g)

/-- The state in which the checks after the policer find the stream: the packet counted, and the bucket as the policer left it, which a
loop packet does not meet. -/
def metered (s : State) (k g : Nat) (loop : Bool) (st : Stream) : State :=
  modStream (count s k g) k (·.setLeg g (if loop then st.leg g else (policed s k g st).1))

/-- The checks of a packet behind the policer: checksum, header and size, then the key or the order. -/
def rxFormat (k g : Nat) (c : List Byte) (sumOk : Bool) (b : List Byte) (arr : Nat) (s : State) : State :=
  match (if !sumOk then none else if isAaf (cFormat c) then parseAaf c b else parseRtp c b) with
  | none => count s k (6 + g)
  | some p =>
    if cKeyed c then rxKeyed k g p arr s
    else
      match unpad p.pad p.body with
      | some body => if sizeOk s k body.length then rxOrder k g p body arr s else count s k (6 + g)
      | none => count s k (6 + g)

theorem rxFormat_of_badSum (k g : Nat) (c b : List Byte) (arr : Nat) (s : State) : rxFormat k g c false b arr s = count s k (6 + g) := rfl

section
variable {k : Nat} {c b : List Byte} {s : State} {p : RxPkt} (hrtp : isAaf (cFormat c) = false) (hp : parseRtp c b = some p)
include hrtp hp

theorem rxFormat_of_keyed (hk : cKeyed c = true) (g arr : Nat) : rxFormat k g c true b arr s = rxKeyed k g p arr s := by
  simp [rxFormat, hrtp, hp, hk]

theorem rxFormat_of_wrongSize (hk : cKeyed c = false) (hsize : ∀ x, unpad p.pad p.body = some x → sizeOk s k x.length = false) (g arr : Nat) :
    rxFormat k g c true b arr s = count s k (6 + g) := by
  cases hx : unpad p.pad p.body with
  | none => simp [rxFormat, hrtp, hp, hk, hx]
  | some x => simp [rxFormat, hrtp, hp, hk, hx, hsize x hx]

end

theorem rxKeyed_of_keyless {s : State} {k : Nat} {st : Stream} (hst : tget s.streams k = some st) (hkey : st.key = none)
    (hnext : st.nextKey = none) (g : Nat) (p : RxPkt) (arr : Nat) :
    rxKeyed k g p arr s = if keyedSizeOk s k none p.pad p.body.length then count s k 18 else count s k (6 + g) := by
  have hfor : ∀ i, keyFor st i = (none, false) := fun i => by simp only [keyFor, hnext, hkey]
  simp only [rxKeyed, hst, Option.getD_some, hfor]
  cases keyedSizeOk s k none p.pad p.body.length <;> rfl

section
variable {s : State} {k g : Nat} {st : Stream} (hst : tget s.streams k = some st)
include hst

theorem metered_stream (loop : Bool) : ∃ x, tget (metered s k g loop st).streams k = some x ∧ x.key = st.key ∧ x.nextKey = st.nextKey :=
  ⟨_, tget_modStream_self (tget_count_self hst g) _, setLeg_key _ _ _, setLeg_nextKey _ _ _⟩

variable {loop sumOk : Bool} {b : List Byte} {arr : Nat}

theorem rxPacket_of_disabled (hen : bit st.legEn g = false) : rxPacket k g loop sumOk b arr s = count (count s k g) k (2 + g) := by
  simp only [rxPacket, hst, hen]
  rfl

theorem rxPacket_of_enabled (hen : bit st.legEn g = true) :
    rxPacket k g loop sumOk b arr s =
      if loop = true ∨ (policed s k g st).2 = true then rxFormat k g st.cfg sumOk b arr (metered s k g loop st)
      else count (metered s k g loop st) k (4 + g) := by
  simp only [rxPacket, hst, hen, metered, policed]
  generalize police (count s k g) st.cfg (st.leg g) = pl
  obtain ⟨l, ok⟩ := pl
  cases loop <;> cases ok <;> rfl

theorem rxPacket_of_tokenless (hen : bit st.legEn g = true) (htok : (policed s k g st).2 = false) :
    rxPacket k g false sumOk b arr s = count (metered s k g false st) k (4 + g) := by
  rw [rxPacket_of_enabled hst hen, if_neg (by simp [htok])]

theorem rxPacket_of_passed (hen : bit st.legEn g = true) (hpass : loop = true ∨ (policed s k g st).2 = true) :
    rxPacket k g loop sumOk b arr s = rxFormat k g st.cfg sumOk b arr (metered s k g loop st) := by
  rw [rxPacket_of_enabled hst hen, if_pos hpass]

end

/-- Settles O19: silence and idleness change one field of one stream, and a packet is metered before the checks of its format. That a
stream or a leg that was never up raises nothing is the model's choice (log entry 70), and so is the size asked of a packet whose key is
missing (log entry 69). -/
theorem receiveChecksAndSilence : Obligations.ReceiveChecksAndSilence := by
  unfold Obligations.ReceiveChecksAndSilence
  refine ⟨fun n s st _ hrun hst => ?silence, fun k g loop sumOk b arr s st hst => ?checks⟩
  case silence =>
    have hst' : tget (begun s).streams n = some st := hst
    refine ⟨fun hact hsil => ?_, fun h => ?_, fun g hg hup => ?_, fun g hg hdown => ?_⟩
    · rw [exec_noPacketForL hrun, noPacket_of_audible hst' hact hsil]
      rfl
    · rw [exec_noPacketForL hrun, noPacket_of_unheard hst' h]
    · rw [exec_legIdleTimeout hrun, legIdle_of_up hst' hg hup]
      rfl
    · rw [exec_legIdleTimeout hrun, legIdle_of_down hst' hg hdown]
  case checks =>
    refine ⟨rxPacket_of_disabled hst, fun hen hloop htok => ?_, fun hen hpass hsum => ?_, fun p hen hpass hsum hrtp hp =>
      ⟨fun hk hkey hnext => ?_, fun hk hsize => ?_⟩⟩
    · subst hloop
      exact rxPacket_of_tokenless hst hen htok
    · subst hsum
      exact (rxPacket_of_passed hst hen hpass).trans (rxFormat_of_badSum ..)
    · subst hsum
      obtain ⟨x, hx, hxkey, hxnext⟩ := metered_stream (g := g) hst loop
      calc rxPacket k g loop true b arr s
        _ = rxFormat k g st.cfg true b arr (metered s k g loop st) := rxPacket_of_passed hst hen hpass
        _ = rxKeyed k g p arr (metered s k g loop st) := rxFormat_of_keyed hrtp hp hk g arr
        _ = _ := rxKeyed_of_keyless hx (hxkey.trans hkey) (hxnext.trans hnext) g p arr
    · subst hsum
      exact (rxPacket_of_passed hst hen hpass).trans (rxFormat_of_wrongSize hrtp hp hk hsize g arr)

/-! ### Calendar slots (04 R85, R101, 10 R224) -/

theorem netInt_streams (s : State) (p b : Nat) : (netInt s p b).streams = s.streams := by
  unfold netInt; dsimp only; split
  · rfl
  · split <;> rfl

theorem netCount_streams (s : State) (p i n : Nat) : (netCount s p i n).streams = s.streams := by
  unfold netCount; dsimp only; split
  · exact netInt_streams _ _ _
  · rfl

theorem netStale_streams (s : State) (p : Nat) (l : Nat × Nat) : (netStale s p l).streams = s.streams := by
  unfold netStale; split
  · exact netCount_streams _ _ _ _
  · rfl

theorem exec_calendarSlot {s : State} (hrun : s.clk.running = true) (n g : Nat) :
    exec (.calendarSlot n g) s = .next (settled s (calendarSlot (ringLanes s) n g (begun s))) := runMere_of_running hrun _

theorem skey_tx (n : Nat) : skey 1 n = 65536 + n := by simp [skey]

/-- Whether leg `g` of a transmit stream has a packet to send. -/
abbrev Stream.due (st : Stream) (g : Nat) : Bool := if g = 0 then st.tx.dueA else st.tx.dueB

/-- A stream whose leg `g` has had its slot. -/
def Stream.released (st : Stream) (g : Nat) : Stream :=
  { st with tx := if g = 0 then { st.tx with dueA := false } else { st.tx with dueB := false } }

/-- What a slot does first: a packet of the leg that Outlet still holds is dropped, and the leg is no longer due. -/
def slotTaken (s : State) (k g : Nat) (st : Stream) : State :=
  { netStale s (legPort st.cfg (48 + 48 * g)) (k, g) with streams := tset s.streams k (st.released g) }

section
variable {s : State} {n g : Nat} {st : Stream} (hst : tget s.streams (65536 + n) = some st) (ring : List Nat)
include hst

theorem calendarSlot_of_idle (h : st.live = false ∨ st.due g = false) : calendarSlot ring n g s = s := by
  simp only [calendarSlot, skey_tx, hst]
  exact if_pos (by rcases h with h | h <;> simp [h])

theorem calendarSlot_of_due (hg : g < 2) (hlive : st.live = true) (hdue : st.due g = true) :
    calendarSlot ring n g s =
      if bit st.legEn g = false then slotTaken s (65536 + n) g st
      else if cKeyed st.cfg = true ∧ st.key = none then count (slotTaken s (65536 + n) g st) (65536 + n) 18
      else sendLeg ring (65536 + n) g (slotTaken s (65536 + n) g st) := by
  have hstale : tget (netStale s (legPort st.cfg (48 + 48 * g)) (65536 + n, g)).streams (65536 + n) = some st := by rw [netStale_streams, hst]
  simp only [calendarSlot, skey_tx, hst]
  rw [if_neg (by simp [hlive, hdue]; omega), modStream_of_tget hstale, netStale_streams]
  simp only [Bool.not_eq_true', Option.isNone_iff_eq_none]
  rfl

end

/-! ### Legs on Causeway lanes (04 R98, R99, 17 R339, R340) -/

/-- The packet as it leaves on leg `g`: an AVTPDU with the stream ID of the leg. -/
def legPacket (st : Stream) (g : Nat) (pkt : TxPkt) : TxPkt :=
  if isAaf (cFormat st.cfg) then { pkt with header := patch pkt.header 4 (slice st.cfg (72 + 48 * g) 8) } else pkt

/-- What a leg on a lane sends: the number of the destination device, and the packet protected. -/
def laneBytes (st : Stream) (g : Nat) (pkt : TxPkt) : List Byte := le1 (fld st.cfg (56 + 48 * g) 1) ++ protectPkt st (legPacket st g pkt)

/-- The same bytes on each of the lanes `ls`. -/
theorem foldl_emit_lanes (b : List Byte) (ls : List Nat) :
    ∀ s : State, ls.foldl (fun s l => emit s (.lane l 7 b)) s = { s with out := s.out ++ ls.map (fun m => .lane m 7 b) } := by
  induction ls with
  | nil => intro s; simp
  | cons l ls ih => intro s; rw [List.foldl_cons, ih]; simp [emit]

theorem legLanes_of_ring {ring : List Nat} {l : Nat} (h : ring.contains l = true) : legLanes ring (0x20 + l) = ring := by
  rw [legLanes, Nat.add_sub_cancel_left, if_pos h]

theorem legLanes_of_own {ring : List Nat} {l : Nat} (h : ring.contains l = false) : legLanes ring (0x20 + l) = [l] := by
  rw [legLanes, Nat.add_sub_cancel_left, if_neg (by simp only [h, Bool.false_eq_true, not_false_eq_true])]

section
variable {s : State} {k g l : Nat} {st : Stream} {pkt : TxPkt} (hl : l < 4) (hst : tget s.streams k = some st) (hpkt : st.tx.pkt = some pkt)
  (hport : legPort st.cfg (48 + 48 * g) = 0x20 + l) (ring : List Nat)
include hl hst hpkt hport

theorem sendLeg_lane :
    sendLeg ring k g s =
      let up := (legLanes ring (0x20 + l)).filter (bit s.cway.link)
      if up = [] then s else { count s k (26 + g) with out := s.out ++ up.map (fun m => .lane m 7 (laneBytes st g pkt)) } := by
  have hlane : isLane (0x20 + l) = true := by simp [isLane]; omega
  have hid : 48 + 48 * g + 24 = 72 + 48 * g := by omega
  have hdev : 48 + 48 * g + 8 = 56 + 48 * g := by omega
  simp only [sendLeg, hst, hpkt, hport, hid, hdev]
  rw [if_neg (by omega), if_pos hlane]
  simp only [foldl_emit_lanes, List.isEmpty_iff]
  rfl

theorem tget_sendLeg_lane_ne {j : Nat} (hj : j ≠ k) : tget (sendLeg ring k g s).streams j = tget s.streams j := by
  rw [sendLeg_lane hl hst hpkt hport]
  dsimp only; split
  · rfl
  · exact tget_count_ne s _ hj

end

/-- Settles O20: a slot takes the packet from Outlet and the leg from the due ones before it sends; a lane leg sends the same bytes on each
lane of its route that is up. -/
theorem calendarSlotAndLaneLeg : Obligations.CalendarSlotAndLaneLeg := by
  unfold Obligations.CalendarSlotAndLaneLeg
  refine ⟨fun n g s st hg hrun hst => ?slot, fun ring k g l s st pkt hl hst hpkt hport => ?lane⟩
  case slot =>
    have hst' : tget (begun s).streams (65536 + n) = some st := hst
    intro due p s0 s1
    have hs1 : slotTaken (begun s) (65536 + n) g st = s1 := rfl
    refine ⟨fun h => ?_, fun hlive hdue hen => ?_, fun hlive hdue hen hk hkey => ?_, fun hlive hdue hen hkey => ?_⟩
    · rw [exec_calendarSlot hrun, calendarSlot_of_idle hst' _ h]
    all_goals rw [exec_calendarSlot hrun, calendarSlot_of_due hst' _ hg hlive hdue, hs1]
    · rw [if_pos hen]
    · rw [if_neg (by simp [hen]), if_pos ⟨hk, hkey⟩]
    · rw [if_neg (by simp [hen]), if_neg (fun h => hkey h.1 h.2)]
  case lane =>
    have hsend := sendLeg_lane hl hst hpkt hport ring
    refine ⟨fun hown hup => ?_, fun hown hdown => ?_, fun hring => ?_, fun j hj => tget_sendLeg_lane_ne hl hst hpkt hport ring hj⟩
    · rw [hsend, legLanes_of_own hown, List.filter_cons_of_pos hup]
      rfl
    · rw [hsend, legLanes_of_own hown, List.filter_cons_of_neg (by simp only [hdown, Bool.false_eq_true, not_false_eq_true])]
      rfl
    · rw [hsend, legLanes_of_ring hring]
      rfl

end Sys2Proof.Machine
end

section
/-! Media clocks and resampling (05 R108, R112, R114, R115, R129): what the update of one media clock changes, and the end of an estimator's
window. -/
namespace Sys2Proof.Machine

/-! ### Values held within limits -/

theorem le_clampI {lo hi z a : Int} (hhi : a ≤ hi) (h : a ≤ lo ∨ a ≤ z) : a ≤ clampI lo hi z := by
  unfold clampI
  split
  · omega
  · split <;> omega

theorem clampI_le {lo hi z b : Int} (hlo : lo ≤ b) (h : hi ≤ b ∨ z ≤ b) : clampI lo hi z ≤ b := by
  unfold clampI
  split
  · omega
  · split <;> omega

/-- A value outside the limits is held at one of them. -/
theorem clampI_of_outside {lo hi z : Int} (h : z < lo ∨ hi < z) : clampI lo hi z = lo ∨ clampI lo hi z = hi := by
  unfold clampI
  split
  · omega
  · split <;> omega

/-! ### The INC of an update (05 R108) -/

theorem stepInc_fst (nom inc : Nat) (want : Int) :
    (stepInc nom inc want).1 = (clampI (nom - (nom * 500 / 1000000 : Nat)) (nom + (nom * 500 / 1000000 : Nat))
      (clampI (inc - (nom / 1000000 : Nat)) (inc + (nom / 1000000 : Nat)) want)).toNat := rfl

/-- INC stays within 500 ppm of nominal, whatever is called for. -/
theorem stepInc_range (nom inc : Nat) (want : Int) :
    nom - nom * 500 / 1000000 ≤ (stepInc nom inc want).1 ∧ (stepInc nom inc want).1 ≤ nom + nom * 500 / 1000000 := by
  rw [stepInc_fst]
  generalize clampI (inc - _) _ want = v
  generalize nom * 500 / 1000000 = w
  have hge : (nom - w : Int) ≤ clampI (nom - w) (nom + w) v := le_clampI (by omega) (.inl (Int.le_refl _))
  have hle : clampI (nom - w) (nom + w) v ≤ (nom + w : Int) := clampI_le (by omega) (.inl (Int.le_refl _))
  omega

/-- An INC within 500 ppm of nominal moves by at most 1 ppm of nominal: holding the result to the range moves it towards that INC. -/
theorem stepInc_near {nom inc : Nat} (hlow : nom - nom * 500 / 1000000 ≤ inc) (hhigh : inc ≤ nom + nom * 500 / 1000000) (want : Int) :
    (stepInc nom inc want).1 ≤ inc + nom / 1000000 ∧ inc ≤ (stepInc nom inc want).1 + nom / 1000000 := by
  rw [stepInc_fst]
  generalize nom / 1000000 = d
  generalize nom * 500 / 1000000 = w at hlow hhigh
  have hge : (inc - d : Int) ≤ clampI (inc - d) (inc + d) want := le_clampI (by omega) (.inl (Int.le_refl _))
  have hle : clampI (inc - d) (inc + d) want ≤ (inc + d : Int) := clampI_le (by omega) (.inl (Int.le_refl _))
  have hge' := le_clampI (lo := nom - w) (hi := nom + w) (by omega) (.inr hge)
  have hle' := clampI_le (lo := nom - w) (hi := nom + w) (by omega) (.inr hle)
  omega

/-! ### A media clock changed -/

theorem tget_modMclk_self {s : State} {t : Nat} {x : Tenant} (hx : tget s.tenants t = some x) (f : MClk → MClk) :
    tget (modMclk s t f).tenants t = some { x with mclk := f x.mclk } := by
  simp [modMclk, modTenant, tget_tmod_self, hx]

theorem tget_modMclk_ne (s : State) {t j : Nat} (f : MClk → MClk) (h : j ≠ t) : tget (modMclk s t f).tenants j = tget s.tenants j :=
  tget_tmod_ne _ _ h

/-- A media clock as it counts: accumulator and INC, without what its loop, its binding and its reports hold. -/
def MClk.counting (m : MClk) : MClk := { acc := m.acc, inc := m.inc }

/-- The tenants, of the clock of tenant `t` with nothing but accumulator and INC: what an update keeps until it sets INC. -/
def exceptLoop (t : Nat) (s : State) (j : Nat) : Option Tenant :=
  (tget s.tenants j).map (fun x => if j = t then { x with mclk := x.mclk.counting } else x)

theorem exceptLoop_self {s : State} {t : Nat} {x : Tenant} (hx : tget s.tenants t = some x) :
    exceptLoop t s t = some { x with mclk := x.mclk.counting } := by
  simp [exceptLoop, hx]

/-- `exceptLoop` tells the tenant's accumulator, its INC and its nominal INC. -/
theorem tget_of_exceptLoop {s : State} {t : Nat} {x : Tenant} (h : exceptLoop t s t = some x) :
    ∃ y, tget s.tenants t = some y ∧ y.mclk.acc = x.mclk.acc ∧ y.mclk.inc = x.mclk.inc ∧ y.nomInc = x.nomInc := by
  obtain ⟨y, hy, hyx⟩ := Option.map_eq_some_iff.mp h
  rw [if_pos rfl] at hyx
  exact ⟨y, hy, congrArg (·.mclk.acc) hyx, congrArg (·.mclk.inc) hyx, congrArg (·.nomInc) hyx⟩

theorem exceptLoop_ne (s : State) {t j : Nat} (h : j ≠ t) : exceptLoop t s j = tget s.tenants j := by
  simp [exceptLoop, h]

theorem exceptLoop_modMclk {f : MClk → MClk} (hacc : ∀ m, (f m).acc = m.acc) (hinc : ∀ m, (f m).inc = m.inc) (s : State) (t : Nat) :
    exceptLoop t (modMclk s t f) = exceptLoop t s := by
  funext j
  by_cases hj : j = t
  · subst hj
    simp [exceptLoop, modMclk, modTenant, tget_tmod_self, Function.comp_def, MClk.counting, hacc, hinc]
  · rw [exceptLoop_ne _ hj, exceptLoop_ne _ hj, tget_modMclk_ne _ _ hj]

@[simp] theorem exceptLoop_mclkEv (s : State) (t typ aux : Nat) : exceptLoop t (mclkEv s t typ aux) = exceptLoop t s := funext fun _ => rfl

/-! ### One media clock's update (05 R108, R111, R112) -/

/-- Whatever is called for, the clock takes the INC that the limits make of it. -/
theorem exceptLoop_setInc_self {s : State} {t : Nat} {x : Tenant} (hx : tget s.tenants t = some x) (want : Int) (keep : Bool) :
    exceptLoop t (setInc s t want keep) t = some { x with mclk := { acc := x.mclk.acc, inc := (stepInc x.nomInc x.mclk.inc want).1 } } := by
  simp only [setInc, tenant_of_tget hx, apply_ite (exceptLoop t), exceptLoop_mclkEv, ite_self]
  exact exceptLoop_self (tget_modMclk_self hx _)

theorem exceptLoop_setInc_ne (s : State) {t j : Nat} (h : j ≠ t) (want : Int) (keep : Bool) :
    exceptLoop t (setInc s t want keep) j = tget s.tenants j := by
  simp only [setInc, apply_ite (exceptLoop t), exceptLoop_mclkEv, ite_self]
  rw [exceptLoop_ne _ h, tget_modMclk_ne _ _ h]

/-- The loop of a clock whose source is there ends in setting its INC, and keeps accumulator and INC until then. -/
theorem mclkLoop_eq_setInc (s : State) (t : Nat) (e : Int) :
    ∃ u want, exceptLoop t u = exceptLoop t s ∧ mclkLoop s t e = setInc u t want false := by
  refine ⟨_, _, ?_, rfl⟩
  simp only [exceptLoop_modMclk, implies_true, apply_ite (exceptLoop t), exceptLoop_mclkEv, ite_self]

/-- What mclk.query answers for from an update on (05). -/
def MClk.reported (m : MClk) : MClk := { m with snap := some (m.acc, m.inc, m.state, m.err) }

/-- Every update of a clock, free, in holdover or in its loop, ends in setting its INC, and keeps accumulator and INC until then. -/
theorem mclkOne_eq_setInc (s : State) (t : Nat) :
    ∃ u want keep, exceptLoop t u = exceptLoop t s ∧ mclkOne s t = modMclk (setInc u t want keep) t MClk.reported := by
  unfold mclkOne
  dsimp only
  split
  case isTrue =>
    refine ⟨_, _, _, ?_, rfl⟩
    simp only [exceptLoop_modMclk, implies_true]
  case isFalse =>
    split
    next =>
      refine ⟨_, _, _, ?_, rfl⟩
      simp only [exceptLoop_modMclk, implies_true, apply_ite (exceptLoop t), exceptLoop_mclkEv, ite_self]
    next z _ =>
      obtain ⟨u, want, hu, heq⟩ := mclkLoop_eq_setInc s t ((tenant s t).mclk.phaseErr (z + (tenant s t).mclk.offUse))
      exact ⟨u, want, false, hu, by rw [heq]; rfl⟩

/-- An update keeps of a clock the accumulator, and gives it the INC that the limits make of one called for. -/
theorem tget_mclkOne_self {s : State} {t : Nat} {x : Tenant} (hx : tget s.tenants t = some x) :
    ∃ y want, tget (mclkOne s t).tenants t = some y ∧ y.mclk.acc = x.mclk.acc ∧ y.nomInc = x.nomInc
      ∧ y.mclk.inc = (stepInc x.nomInc x.mclk.inc want).1 := by
  obtain ⟨u, want, keep, hu, heq⟩ := mclkOne_eq_setInc s t
  obtain ⟨v, hv, hvacc, hvinc, hvnom⟩ := tget_of_exceptLoop (hu ▸ exceptLoop_self hx : exceptLoop t u t = _)
  have hset := exceptLoop_setInc_self hv want keep
  rw [hvnom, hvinc, ← exceptLoop_modMclk (f := MClk.reported) (fun _ => rfl) (fun _ => rfl), ← heq] at hset
  obtain ⟨y, hy, hyacc, hyinc, hynom⟩ := tget_of_exceptLoop hset
  exact ⟨y, want, hy, hyacc.trans hvacc, hynom.trans hvnom, hyinc⟩

theorem tget_mclkOne_ne (s : State) {t j : Nat} (h : j ≠ t) : tget (mclkOne s t).tenants j = tget s.tenants j := by
  obtain ⟨u, want, keep, hu, heq⟩ := mclkOne_eq_setInc s t
  calc tget (mclkOne s t).tenants j
    _ = tget (setInc u t want keep).tenants j := by rw [heq, tget_modMclk_ne _ _ h]
    _ = exceptLoop t u j := by rw [← exceptLoop_ne _ h, exceptLoop_setInc_ne _ h, exceptLoop_ne _ h]
    _ = tget s.tenants j := by rw [hu, exceptLoop_ne _ h]

theorem exec_mclkUpdate {s : State} (hrun : s.clk.running = true) :
    exec .mclkUpdate s = .next (settled s (mclkUpdate (begun s))) := runMere_of_running hrun _

/-- Settles O21: every update of a clock ends in `setInc`, which holds INC to the step and to the range; until then accumulator and INC
stand. That the row itself moves Mere time to its 1 ms grid is the model's choice (log entry 6). -/
theorem mediaClockUpdate : Obligations.MediaClockUpdate := by
  unfold Obligations.MediaClockUpdate
  refine ⟨fun s hrun => exec_mclkUpdate hrun, fun s k x hx => ?_⟩
  obtain ⟨y, want, hy, hacc, hnom, hinc⟩ := tget_mclkOne_self hx
  obtain ⟨hlow, hhigh⟩ := stepInc_range x.nomInc x.mclk.inc want
  dsimp only
  rw [tenant_of_tget hy, hinc]
  exact ⟨hacc, hnom, hlow, hhigh, fun hl hh => stepInc_near hl hh want, fun j hj => tget_mclkOne_ne s hj⟩

/-! ### The end of an estimator's window (05 R114, R115) -/

section
variable {s : State} {n : Nat} {st : Stream} (hst : tget s.streams n = some st)
include hst

theorem estWindow_of_anchored (hn : n < 65536) (harr : cArrival st.cfg = true) (hanch : st.rx.anchored = true) :
    estWindow n s =
      let x := estLoop (st.rx.est.rebase (cFs st.cfg) (tb s (cTb st.cfg)).now) st.rx.est.window
      let u := modStream s n (fun y => { y with rx := { y.rx with est := x.1 } })
      if x.2 then evT u st.tenant 0x40A n 0 0 else u := by
  simp only [estWindow, hst]
  rw [if_neg (by simp [harr, hanch, hn])]
  split
  · rw [streamEv_modStream hst (by rfl), modStream_of_tget hst]
  · rfl

theorem estWindow_of_idle (h : cArrival st.cfg = false ∨ st.rx.anchored = false) : estWindow n s = s := by
  simp only [estWindow, hst]
  exact if_pos (by rcases h with h | h <;> simp [h])

end

theorem exec_estimatorWindow {s : State} (hrun : s.clk.running = true) (n : Nat) :
    exec (.estimatorWindow n) s = .next (settled s (estWindow n (begun s))) := runMere_of_running hrun _

/-- The anchor moves up at a window's end, and nothing else (log entry 107). -/
theorem Est.rebase_eq (e : Est) (fs now : Nat) : ∃ pos time, e.rebase fs now = { e with predPos := pos, predTime := time } := ⟨_, _, rfl⟩

/-- A window without an admitted packet gives the loop no input (05 R115). -/
theorem estLoop_of_empty {e : Est} (h : e.minErr = none) (ms : Nat) :
    estLoop e ms = ({ e with state := 3, acqLeft := e.acqLeft - ms }, false) := by
  simp only [estLoop, h]

/-- A window with a packet sets r to what its loop calls for, within 2 % of 1, and says by STATE and event whether r is held there. -/
theorem estLoop_of_fed {e : Est} {err : Int} (h : e.minErr = some err) (ms : Nat) :
    ∃ r : Int, (estLoop e ms).1.r = (clampI rLow rHigh r).toNat ∧ (estLoop e ms).1.minErr = none
      ∧ (estLoop e ms).1.state = (if r < rLow ∨ rHigh < r then 4 else if e.acqLeft - ms = 0 then 2 else 1)
      ∧ (estLoop e ms).2 = (decide (r < rLow ∨ rHigh < r) && !e.limited) := by
  simp only [estLoop, h]
  exact ⟨_, rfl, trivial, by simp, rfl⟩

theorem estLoop_fed_r {e : Est} (h : e.minErr ≠ none) (ms : Nat) : rLow ≤ ((estLoop e ms).1.r : Int) ∧ ((estLoop e ms).1.r : Int) ≤ rHigh := by
  obtain ⟨err, herr⟩ := Option.ne_none_iff_exists'.mp h
  obtain ⟨r, hr, -⟩ := estLoop_of_fed herr ms
  have hge : rLow ≤ clampI rLow rHigh r := le_clampI (by decide) (.inl (Int.le_refl _))
  have hle : clampI rLow rHigh r ≤ rHigh := clampI_le (by decide) (.inl (Int.le_refl _))
  have hpos : 0 ≤ rLow := by decide
  omega

/-- Settles O22: the two forms of a window's end, and the two of the loop, with a packet and without. The gain, its rounding and the move of
the anchor at a window's end are the model's choice (log entry 107). -/
theorem estimatorWindowEnds : Obligations.EstimatorWindowEnds := by
  unfold Obligations.EstimatorWindowEnds
  refine ⟨fun n s st hn hrun hst => ⟨fun harr hanch => ?anchored, fun h => ?idle⟩, fun e ms => ⟨fun hmin => ?empty, fun hmin => ?fed, ?rebased⟩⟩
  case anchored => rw [exec_estimatorWindow hrun, estWindow_of_anchored (s := begun s) hst hn harr hanch]; rfl
  case idle => rw [exec_estimatorWindow hrun, estWindow_of_idle (s := begun s) hst h]
  case empty => simp [estLoop_of_empty hmin]
  case fed =>
    obtain ⟨hge, hle⟩ := estLoop_fed_r hmin ms
    obtain ⟨err, herr⟩ := Option.ne_none_iff_exists'.mp hmin
    obtain ⟨r, hr, hnone, hstate, hraised⟩ := estLoop_of_fed herr ms
    refine ⟨hge, hle, hnone, fun h4 => ?_, fun hx => ?_⟩
    · have hout : r < rLow ∨ rHigh < r := Decidable.byContradiction fun hin => by
        rw [hstate, if_neg hin] at h4
        split at h4 <;> omega
      rw [hr]
      exact (clampI_of_outside hout).imp (congrArg _) (congrArg _)
    · rw [hraised, Bool.and_eq_true, decide_eq_true_iff, Bool.not_eq_true'] at hx
      obtain ⟨hout, hfirst⟩ := hx
      exact ⟨by rw [hstate, if_pos hout], hfirst⟩
  case rebased =>
    obtain ⟨pos, time, hmoved⟩ := e.rebase_eq 48000 ms
    rw [hmoved]
    exact ⟨rfl, rfl⟩

end Sys2Proof.Machine
end

section
/-! Mixing in Pool (06 R138 to R141, R152): a gain ramp sample by sample, the range of a bus output, and a crosspoint under a change of a key. -/
namespace Sys2Proof.Machine

/-! ### A gain ramp (06 R138) -/

theorem rampStart_of_pos (x : Xp) (target : F32) {len : Nat} (h : 0 < len) :
    rampStart x target len = { x with g0 := x.g, d := roundF false (fVal target - fVal x.g) len, k := 0, left := len, target := target } :=
  if_neg (Nat.ne_of_gt h)

/-- Starting a ramp changes the gain and the ramp's own fields, and no other. -/
theorem rampStart_eq (x : Xp) (target : F32) (len : Nat) :
    ∃ g g0 d k left, rampStart x target len = { x with g := g, g0 := g0, d := d, k := k, left := left, target := target } := by
  unfold rampStart
  split
  · exact ⟨target, x.g0, x.d, x.k, 0, rfl⟩
  · exact ⟨x.g, x.g, _, 0, len, rfl⟩

theorem rampSample_of_done {x : Xp} (h : x.left = 0) : rampSample x = x := if_pos h

theorem rampSample_of_last {x : Xp} (h : x.left = 1) : (rampSample x).g = x.target ∧ (rampSample x).left = 0 := by
  simp [rampSample, h]

theorem rampSample_of_running {x : Xp} (h : 1 < x.left) :
    rampSample x = { x with k := x.k + 1, left := x.left - 1, g := fma (ofScaled (x.k + 1 : Nat) 0) x.d x.g0 } := by
  simp [rampSample, Nat.ne_of_gt h, Nat.ne_of_gt (Nat.lt_of_succ_lt h)]

/-- The gain after `n` samples of a ramp that has not ended: the start plus n times the step, rounded once. -/
def rampGain (g0 d : F32) (n : Nat) : F32 := if n = 0 then g0 else fma (ofScaled n 0) d g0

theorem rampGain_succ (g0 d : F32) (n : Nat) : rampGain g0 d (n + 1) = fma (ofScaled (n + 1 : Nat) 0) d g0 := if_neg n.succ_ne_zero

/-- A ramp before its last sample: the count, what is left, and the gain. -/
theorem ramp_running (x : Xp) (target : F32) {len n : Nat} (h : n < len) :
    Nat.repeat rampSample n (rampStart x target len) =
      { rampStart x target len with k := n, left := len - n, g := rampGain x.g (roundF false (fVal target - fVal x.g) len) n } := by
  induction n with
  | zero => rw [rampStart_of_pos x target h]; rfl
  | succ n ih =>
    have hleft : 1 < len - n := by omega
    rw [Nat.repeat, ih (Nat.lt_of_succ_lt h), rampSample_of_running hleft, rampStart_of_pos x target (Nat.zero_lt_of_lt h), rampGain_succ,
      Nat.sub_succ]
    rfl

/-- A ramp after its last sample stands on its target. -/
theorem ramp_ended (x : Xp) (target : F32) {len n : Nat} (h : len ≤ n) :
    (Nat.repeat rampSample n (rampStart x target len)).g = target ∧ (Nat.repeat rampSample n (rampStart x target len)).left = 0 := by
  induction h with
  | refl =>
    cases len with
    | zero => exact ⟨rfl, rfl⟩
    | succ m =>
      have hlast : m + 1 - m = 1 := by omega
      rw [Nat.repeat, ramp_running x target m.lt_succ_self]
      exact rampSample_of_last hlast
  | step _ ih => rwa [Nat.repeat, rampSample_of_done ih.2]

/-- Settles O24: a running ramp counts its samples, the last one sets the target, and an ended ramp stays. -/
theorem rampEndsOnItsTarget : Obligations.RampEndsOnItsTarget := by
  unfold Obligations.RampEndsOnItsTarget
  intro x target len n
  obtain ⟨g, g0, d, k, left, hstart⟩ := rampStart_eq x target len
  refine ⟨ramp_ended x target, fun hn hlen => ?running, by rw [hstart], by rw [hstart], fun hlen => by rw [rampStart_of_pos x target hlen]⟩
  case running =>
    rw [ramp_running x target hlen]
    exact ⟨if_neg (Nat.ne_of_gt hn), rfl⟩

/-! ### The limit of a bus output (06 R141) -/

/-- A finite binary32 of magnitude at most 2^24. -/
def InLimit (x : F32) : Prop := isNaN x = false ∧ isInf x = false ∧ fMag x ≤ 2 ^ (149 + 24)

/-- Exponent 150 is the last one below 2^24. -/
theorem inLimit_of_fExp_le {x : F32} (h : fExp x ≤ 150) : InLimit x := by
  have hfinite : fExp x ≠ 255 := by omega
  refine ⟨by simp [isNaN, hfinite], by simp [isInf, hfinite], ?_⟩
  have hfrac : fFrac x < 2 ^ 23 := Nat.mod_lt _ (by decide)
  unfold fMag
  split
  · omega
  · calc (2 ^ 23 + fFrac x) * 2 ^ (fExp x - 1)
      _ ≤ 2 ^ 24 * 2 ^ 149 := Nat.mul_le_mul (by omega) (Nat.pow_le_pow_right (by decide) (by omega))
      _ = 2 ^ (149 + 24) := by decide

/-- A free value has its exponent taken down by 128 where that is above 150. -/
theorem drawF_inLimit (s : State) : InLimit (drawF s).1 := by
  refine inLimit_of_fExp_le ?_
  simp only [drawF, fExp, BitVec.toNat_ofNat]
  split <;> omega

/-- An infinity counts as 2^280, in units of 2^-149, and is limited. -/
theorem clamp24_of_ge {x : F32} (hnan : isNaN x = false) (h : isInf x = true ∨ 2 ^ (149 + 24) ≤ fMag x) :
    clamp24 x = (if fSign x then 0xCB800000#32 else 0x4B800000#32, true) := by
  have hmag : 2 ^ (149 + 24) ≤ if isInf x then 2 ^ 280 else fMag x := by
    split
    · apply Nat.pow_le_pow_right <;> decide
    · next hfin => exact h.resolve_left hfin
  exact if_pos (by rw [hnan, decide_eq_true hmag]; rfl)

theorem clamp24_of_lt {x : F32} (hinf : isInf x = false) (h : fMag x < 2 ^ (149 + 24)) : clamp24 x = (x, false) := by
  refine if_neg ?_
  rw [hinf, if_neg Bool.false_ne_true, decide_eq_false (Nat.not_le_of_gt h), Bool.and_false]
  exact Bool.false_ne_true

theorem clamp24_inLimit {x : F32} (hnan : isNaN x = false) : InLimit (clamp24 x).1 := by
  by_cases h : isInf x = true ∨ 2 ^ (149 + 24) ≤ fMag x
  · rw [clamp24_of_ge hnan h]
    unfold InLimit
    cases fSign x <;> decide
  · obtain ⟨hinf, hmag⟩ := not_or.mp h
    rw [Bool.not_eq_true] at hinf
    rw [clamp24_of_lt hinf (Nat.lt_of_not_le hmag)]
    exact ⟨hnan, hinf, Nat.le_of_not_le hmag⟩

theorem busOutput_of_nan {g x : F32} (h : isNaN (fMul g x) = true) (s : State) : busOutput s g x = ((drawF s).1, false, (drawF s).2) := if_pos h

theorem busOutput_of_number {g x : F32} (h : isNaN (fMul g x) = false) (s : State) :
    busOutput s g x = ((clamp24 (fMul g x)).1, (clamp24 (fMul g x)).2, s) := if_neg (ne_true_of_eq_false h)

theorem busOutput_inLimit (s : State) (g x : F32) : InLimit (busOutput s g x).1 := by
  cases hnan : isNaN (fMul g x)
  case true => rw [busOutput_of_nan hnan]; exact drawF_inLimit s
  case false => rw [busOutput_of_number hnan]; exact clamp24_inLimit hnan

/-- Settles O25, by whether the product is a number. A free value for a product without a stated value is the model's choice (log entry 1). -/
theorem busOutputsStayInRange : Obligations.BusOutputsStayInRange := by
  unfold Obligations.BusOutputsStayInRange
  intro s g x
  obtain ⟨hnan, hinf, hmag⟩ := busOutput_inLimit s g x
  refine ⟨hnan, hinf, hmag, fun hnum hfin hlt => ?below, fun hge hnum => ?limited⟩
  case below => rw [busOutput_of_number hnum, clamp24_of_lt hfin hlt]
  case limited => rw [busOutput_of_number hnum, clamp24_of_ge hnum (.inr hge)]

/-! ### A crosspoint under a change of a key (06 R152) -/

theorem keyedXp_of_unbound {x : Xp} (h : x.bind = none) (src port node key : Nat) (held : Bool) : keyedXp src port node key held x = x := by
  simp only [keyedXp, h]

section
variable {src port node key : Nat} {x : Xp} {k : KeyBind} (hbind : x.bind = some k)
include hbind

theorem keyedXp_of_other (hother : ¬(k.src = src ∧ k.port = port ∧ k.node = node ∧ k.key = key)) (held : Bool) :
    keyedXp src port node key held x = x := by
  simp only [keyedXp, hbind, if_neg hother]

section
variable (hkey : k.src = src ∧ k.port = port ∧ k.node = node ∧ k.key = key)
include hkey

theorem keyedXp_momentary (hmode : k.latch = false) (held : Bool) :
    keyedXp src port node key held x =
      { x with bind := some { k with on := held }, next := some (if held then k.gainOn else k.gainOff, k.ramp, false) } := by
  simp [keyedXp, hbind, hkey, hmode]

theorem keyedXp_latch_press (hmode : k.latch = true) :
    keyedXp src port node key true x =
      { x with bind := some { k with on := !k.on }, next := some (if k.on then k.gainOff else k.gainOn, k.ramp, false) } := by
  cases hon : k.on <;> simp [keyedXp, hbind, hkey, hmode, hon]

theorem keyedXp_latch_release (hmode : k.latch = true) : keyedXp src port node key false x = x := by
  simp [keyedXp, hbind, hkey, hmode]

end
end

/-- A change of a key reaches a crosspoint's bind and its next target, and no other field. -/
theorem keyedXp_eq (src port node key : Nat) (held : Bool) (x : Xp) :
    ∃ bind next, keyedXp src port node key held x = { x with bind := bind, next := next } := by
  have hkeep : ∃ bind next, x = { x with bind := bind, next := next } := ⟨x.bind, x.next, rfl⟩
  cases hbind : x.bind with
  | none => rwa [keyedXp_of_unbound hbind]
  | some k =>
    by_cases hkey : k.src = src ∧ k.port = port ∧ k.node = node ∧ k.key = key
    · cases hmode : k.latch
      case false => exact ⟨_, _, keyedXp_momentary hbind hkey hmode held⟩
      case true =>
        cases held
        case true => exact ⟨_, _, keyedXp_latch_press hbind hkey hmode⟩
        case false => rwa [keyedXp_latch_release hbind hkey hmode]
    · rwa [keyedXp_of_other hbind hkey]

/-- Settles O26, by the bind of the crosspoint: none, to another key, or to this one in each of its modes. -/
theorem keysDriveTheirCrosspoints : Obligations.KeysDriveTheirCrosspoints := by
  unfold Obligations.KeysDriveTheirCrosspoints
  intro src port node key held x
  obtain ⟨bind, next, hkept⟩ := keyedXp_eq src port node key held x
  refine ⟨fun hnone => keyedXp_of_unbound hnone .., fun k hbind hother => ?other, fun k hbind hsrc hport hnode hkey => ?bound, ?kept⟩
  case other =>
    have hnot : ¬(k.src = src ∧ k.port = port ∧ k.node = node ∧ k.key = key) := by omega
    exact keyedXp_of_other hbind hnot held
  case bound =>
    have hthis : k.src = src ∧ k.port = port ∧ k.node = node ∧ k.key = key := ⟨hsrc, hport, hnode, hkey⟩
    refine ⟨fun hmode => ?momentary, fun hmode hheld => ?press, fun hmode hheld => ?release⟩
    case momentary => rw [keyedXp_momentary hbind hthis hmode]; exact ⟨rfl, rfl⟩
    case press => rw [hheld, keyedXp_latch_press hbind hthis hmode]; exact ⟨rfl, rfl⟩
    case release => rw [hheld, keyedXp_latch_release hbind hthis hmode]
  case kept => rw [hkept]; exact ⟨rfl, rfl, rfl, rfl, rfl⟩

end Sys2Proof.Machine
end

section
/-! The issue of a Tarn instruction by a core that is ready for it (07 R166 to R175): its effect retires, or its exception is taken. -/
namespace Sys2Proof.Machine

/-! ### What completing an instruction and writing stores leave of a core -/

@[simp] theorem core_setCore_self (s : State) (n : Nat) (c : Core) : core (setCore s n c) n = c := tgetD_tset_self ..
@[simp] theorem core_begun (s : State) (n : Nat) : core (begun s) n = core s n := rfl
@[simp] theorem core_settled (s u : State) (n : Nat) : core (settled s u) n = core u n := by simp [core]

/-- The block loops move PC and their counters alone. -/
theorem whirl_eq (c : Core) : ∃ pc wc0 wc1, c.whirl = { c with pc := pc, wc0 := wc0, wc1 := wc1 } := by
  unfold Core.whirl; dsimp only
  repeat' split
  all_goals exact ⟨_, _, _, rfl⟩

/-- A branch moves PC, the call stack and the loop counters alone. -/
theorem commitBranch_eq (c : Core) (b : Branch) : ∃ pc stack wc0 wc1,
    c.commitBranch b = { c with branch := none, pc := pc, stack := stack, wc0 := wc0, wc1 := wc1 } := by
  unfold Core.commitBranch Core.endLevels; dsimp only
  repeat' split
  all_goals exact ⟨_, _, _, _, rfl⟩

/-- Completing an instruction moves the flow of the program alone. -/
theorem complete_eq (c : Core) : ∃ pc stack wc0 wc1 rc rep fresh shadow branch,
    c.complete = { c with pc := pc, stack := stack, wc0 := wc0, wc1 := wc1, rc := rc, rep := rep, fresh := fresh, shadow := shadow,
                          branch := branch } := by
  unfold Core.complete; dsimp only
  split
  · exact ⟨_, _, _, _, _, _, _, _, _, rfl⟩
  · split
    · obtain ⟨pc, stack, wc0, wc1, h⟩ := commitBranch_eq
        { c with shadow := c.shadow.drop 1, rc := if c.rep then 0 else c.rc, rep := false, fresh := false } _
      rw [h]; exact ⟨_, _, _, _, _, _, _, _, _, rfl⟩
    · obtain ⟨pc, wc0, wc1, h⟩ := whirl_eq
        { c with shadow := c.shadow.drop 1, rc := if c.rep then 0 else c.rc, rep := false, fresh := false }
      rw [h]; exact ⟨_, _, _, _, _, _, _, _, _, rfl⟩

@[simp] theorem complete_d (c : Core) : c.complete.d = c.d := by
  obtain ⟨pc, stack, wc0, wc1, rc, rep, fresh, shadow, branch, h⟩ := complete_eq c; rw [h]
@[simp] theorem complete_a (c : Core) : c.complete.a = c.a := by
  obtain ⟨pc, stack, wc0, wc1, rc, rep, fresh, shadow, branch, h⟩ := complete_eq c; rw [h]
@[simp] theorem complete_sr (c : Core) : c.complete.sr = c.sr := by
  obtain ⟨pc, stack, wc0, wc1, rc, rep, fresh, shadow, branch, h⟩ := complete_eq c; rw [h]
@[simp] theorem complete_stores (c : Core) : c.complete.stores = c.stores := by
  obtain ⟨pc, stack, wc0, wc1, rc, rep, fresh, shadow, branch, h⟩ := complete_eq c; rw [h]
@[simp] theorem complete_haltReq (c : Core) : c.complete.haltReq = c.haltReq := by
  obtain ⟨pc, stack, wc0, wc1, rc, rep, fresh, shadow, branch, h⟩ := complete_eq c; rw [h]

/-- Writing a pending store changes the store buffer and the local memory of its core alone. -/
theorem core_drainOne (n : Nat) (s : State) : ∃ stores lmem, core (drainOne n s) n = { core s n with stores := stores, lmem := lmem } := by
  unfold drainOne; dsimp only
  split
  · exact ⟨_, _, rfl⟩
  · split <;> exact ⟨_, _, core_setCore_self ..⟩

theorem core_drainK (n k : Nat) : ∀ s : State, ∃ stores lmem, core (drainK n k s) n = { core s n with stores := stores, lmem := lmem } := by
  induction k with
  | zero => exact fun s => ⟨_, _, rfl⟩
  | succ k ih =>
    intro s
    obtain ⟨stores, lmem, h⟩ := ih (drainOne n s)
    obtain ⟨_, _, hone⟩ := core_drainOne n s
    exact ⟨stores, lmem, by rw [drainK, h, hone]⟩

@[simp] theorem core_drainK_haltReq (n k : Nat) (s : State) : (core (drainK n k s) n).haltReq = (core s n).haltReq := by
  obtain ⟨_, _, h⟩ := core_drainK n k s; rw [h]

@[simp] theorem core_retired_d (n used : Nat) (c : Core) (s : State) (forced : Nat) : (core (retired n used c s forced) n).d = c.d := by
  obtain ⟨_, _, h⟩ := core_drainK n (max (2 - used) (max forced (c.stores.length - 4))) (setCore (begun s) n c.complete)
  rw [retired, h]; simp
@[simp] theorem core_retired_a (n used : Nat) (c : Core) (s : State) (forced : Nat) : (core (retired n used c s forced) n).a = c.a := by
  obtain ⟨_, _, h⟩ := core_drainK n (max (2 - used) (max forced (c.stores.length - 4))) (setCore (begun s) n c.complete)
  rw [retired, h]; simp
@[simp] theorem core_retired_sr (n used : Nat) (c : Core) (s : State) (forced : Nat) : (core (retired n used c s forced) n).sr = c.sr := by
  obtain ⟨_, _, h⟩ := core_drainK n (max (2 - used) (max forced (c.stores.length - 4))) (setCore (begun s) n c.complete)
  rw [retired, h]; simp

/-! ### Requests to halt and exceptions -/

theorem settleHalt_of_no_request {n : Nat} {s : State} (h : (core s n).haltReq = false) : settleHalt n s = s := by
  simp [settleHalt, h]

@[simp] theorem enter_haltReq (c : Core) (e : Exc) : (c.enter e).haltReq = c.haltReq := by
  unfold Core.enter; dsimp only; split <;> simp

@[simp] theorem taskStops_tarn (s : State) (t cause : Nat) : (taskStops s t cause).tarn = s.tarn := by
  unfold taskStops; split <;> rfl

@[simp] theorem taskFault_tarn (s : State) (t cause : Nat) : (taskFault s t cause).tarn = s.tarn := by
  unfold taskFault; split
  · rfl
  · exact taskStops_tarn ..

/-- No exception, a double fault included, changes whether a halt is requested. -/
theorem takeExc_haltReq (n : Nat) (e : Exc) (s : State) : (core (takeExc n e s) n).haltReq = (core s n).haltReq := by
  unfold takeExc; dsimp only
  split
  · split
    · rw [core, taskFault_tarn, ← core, modCore, core_setCore_self]
      exact core_drainK_haltReq ..
    · rfl
  · rw [modCore, core_setCore_self, enter_haltReq]

/-! ### Issue -/

/-- What `ready` says, one fact a clause. -/
theorem ready_iff {s : State} {n : Nat} {place : Place} : ready s n place = true ↔
    s.clk.running = true ∧ (core s n).issues = true ∧ (core s n).haltReq = false ∧ poisoned s (.tarnImem n (core s n).pc.toNat) = false
      ∧ noInstruction (mget 0 (core s n).imem (core s n).pc.toNat) = false ∧ (core s n).barred place = false := by
  simp [ready, and_assoc]

/-- A core for which no halt waits ends its issue where its instruction has led. -/
theorem issue_eq_issueOne {s u : State} {n : Nat} {bad : Bool} {place : Place} {f : State → Core → Except Exc Eff} (hclk : s.clk.running = true)
    (hone : issueOne n bad place f s = u) (hhalt : (core u n).haltReq = false) : issue n bad place f s = u := by
  rw [issue, if_pos hclk, hone, settleHalt_of_no_request hhalt]

section
variable {s : State} {n : Nat} {place : Place} {f : State → Core → Except Exc Eff} (hr : ready s n place = true)
include hr

/-- The effect of an instruction that goes on to the next and acts on nothing outside its core retires. -/
theorem issue_retires {c : Core} {used forced : Nat} (hf : f (begun s) (core s n) = .ok { core := c, used := used, forced := forced })
    (hhalt : c.haltReq = (core s n).haltReq) : issue n false place f (begun s) = retired n used c s (forced := forced) := by
  obtain ⟨hclk, hiss, hreq, hpois, hword, hbar⟩ := ready_iff.mp hr
  have hpois' : poisoned (begun s) (.tarnImem n (core s n).pc.toNat) = false := hpois
  refine issue_eq_issueOne hclk ?_ (by rw [retired, core_drainK_haltReq, core_setCore_self, complete_haltReq, hhalt, hreq])
  unfold issueOne
  simp only [core_begun, hiss, hpois', hword, hbar, hf, Bool.not_true, Bool.or_self, Bool.false_eq_true, if_false, complete_stores]
  rfl

/-- An instruction whose effect is an exception raises it. -/
theorem issue_raises {e : Exc} (hf : f (begun s) (core s n) = .error e) : issue n false place f (begun s) = takeExc n e (begun s) := by
  obtain ⟨hclk, hiss, hreq, hpois, hword, hbar⟩ := ready_iff.mp hr
  have hpois' : poisoned (begun s) (.tarnImem n (core s n).pc.toNat) = false := hpois
  refine issue_eq_issueOne hclk ?_ ((takeExc_haltReq ..).trans hreq)
  unfold issueOne
  simp only [core_begun, hiss, hpois', hword, hbar, hf, Bool.not_true, Bool.or_self, Bool.false_eq_true, if_false]

/-- An undefined instruction word raises ILLEGAL (08 R180). -/
theorem issue_illegal : issue n true place f (begun s) = takeExc n ⟨1, none⟩ (begun s) := by
  obtain ⟨hclk, hiss, hreq, hpois, _⟩ := ready_iff.mp hr
  have hpois' : poisoned (begun s) (.tarnImem n (core s n).pc.toNat) = false := hpois
  refine issue_eq_issueOne hclk ?_ ((takeExc_haltReq ..).trans hreq)
  unfold issueOne
  simp only [core_begun, hiss, hpois', Bool.not_true, Bool.true_or, Bool.false_eq_true, if_false, if_true]

end

end Sys2Proof.Machine
end

section
/-! Registers, flags and narrowing of a core (07 R153, R154, R163): what each reads after it has been written. -/
namespace Sys2Proof.Machine

/-! ### Data registers and accumulators -/

/-- Element `j` of a list made from a vector with element `i` replaced. -/
theorem getD_ofFn_set {α : Type} {n : Nat} (x : Vector α n) (i j : Nat) (v z : α) :
    (Vector.ofFn (fun k : Fin n => if k.val = i then v else x[k])).toList.getD j z = if j = i ∧ i < n then v else x.toList.getD j z := by
  by_cases hj : j < n
  · by_cases hji : j = i
    · subst hji; simp [List.getD, hj]
    · simp [List.getD, hj, hji]
  · have hno : ¬(j = i ∧ i < n) := by omega
    simp [List.getD, hj, hno]

theorem dn_setD (c : Core) (i j : Nat) (v : W16) : (c.setD i v).dn j = if j = i ∧ i < 16 then v else c.dn j := getD_ofFn_set ..
theorem an_setA (c : Core) (i j : Nat) (v : BitVec 40) : (c.setA i v).an j = if j = i ∧ i < 8 then v else c.an j := getD_ofFn_set ..

@[simp] theorem setD_sr (c : Core) (i : Nat) (v : W16) : (c.setD i v).sr = c.sr := by simp only [Core.setD]
@[simp] theorem setD_haltReq (c : Core) (i : Nat) (v : W16) : (c.setD i v).haltReq = c.haltReq := by simp only [Core.setD]
@[simp] theorem setA_haltReq (c : Core) (i : Nat) (v : BitVec 40) : (c.setA i v).haltReq = c.haltReq := by simp only [Core.setA]
@[simp] theorem setPair_haltReq (c : Core) (i : Nat) (v : BitVec 32) : (c.setPair i v).haltReq = c.haltReq := by
  rw [Core.setPair, setD_haltReq, setD_haltReq]
@[simp] theorem setLanes_sr (c : Core) (v : Nat) (xs : List W16) : (c.setLanes v xs).sr = c.sr := by
  unfold Core.setLanes; exact foldl_keeps Core.sr (fun c i => setD_sr c ..) _ c
@[simp] theorem setLanes_haltReq (c : Core) (v : Nat) (xs : List W16) : (c.setLanes v xs).haltReq = c.haltReq := by
  unfold Core.setLanes; exact foldl_keeps Core.haltReq (fun c i => setD_haltReq c ..) _ c

/-- The lanes of the destination vector read as written, the other registers as before. -/
theorem dn_setLanes_lane (c : Core) {v i : Nat} (xs : List W16) (hv : v < 4) (hi : i < 4) : (c.setLanes v xs).dn (4 * v + i) = xs.getD i 0 := by
  simp only [Core.setLanes, List.range, List.range.loop, List.foldl, dn_setD]
  obtain rfl | rfl | rfl | rfl : i = 0 ∨ i = 1 ∨ i = 2 ∨ i = 3 := by omega
  · rw [if_neg (by omega), if_neg (by omega), if_neg (by omega), if_pos (by omega)]
  · rw [if_neg (by omega), if_neg (by omega), if_pos (by omega)]
  · rw [if_neg (by omega), if_pos (by omega)]
  · rw [if_pos (by omega)]

theorem dn_setLanes_other (c : Core) {v j : Nat} (xs : List W16) (hj : j / 4 ≠ v) : (c.setLanes v xs).dn j = c.dn j := by
  simp only [Core.setLanes, List.range, List.range.loop, List.foldl, dn_setD]
  repeat rw [if_neg (by omega)]

/-! ### Flags -/

@[simp] theorem setFlag_d (c : Core) (i : Nat) (b : Bool) : (c.setFlag i b).d = c.d := rfl
@[simp] theorem setFlag_haltReq (c : Core) (i : Nat) (b : Bool) : (c.setFlag i b).haltReq = c.haltReq := rfl
@[simp] theorem setZN_haltReq (c : Core) (z n : Bool) : (c.setZN z n).haltReq = c.haltReq := rfl
@[simp] theorem setV_d (c : Core) (v k : Bool) : (c.setV v k).d = c.d := by unfold Core.setV; cases v <;> cases k <;> rfl
@[simp] theorem setV_haltReq (c : Core) (v k : Bool) : (c.setV v k).haltReq = c.haltReq := by unfold Core.setV; cases v <;> cases k <;> rfl
@[simp] theorem withCarry_haltReq (c : Core) (k : Option Bool) : (c.withCarry k).haltReq = c.haltReq := by cases k <;> rfl

theorem flag_setFlag (c : Core) {i j : Nat} (b : Bool) (hj : j < 16) : (c.setFlag i b).flag j = if j = i then b else c.flag j := by
  have hbit : (BitVec.ofNat 16 (2 ^ i)).getLsbD j = decide (j = i) := by
    simp only [BitVec.getLsbD_ofNat, Nat.testBit_two_pow, hj, decide_true, Bool.true_and, eq_comm]
  unfold Core.setFlag Core.flag
  cases b
  · rw [if_neg Bool.false_ne_true, BitVec.getLsbD_and, BitVec.getLsbD_not, hbit]
    by_cases h : j = i <;> simp [h, hj]
  · rw [if_pos rfl, BitVec.getLsbD_or, hbit]
    by_cases h : j = i <;> simp [h]

theorem flag_setV_V (c : Core) (v k : Bool) : (c.setV v k).flag 3 = v := by
  unfold Core.setV; cases v <;> cases k <;> simp [flag_setFlag]

/-- An overflow or a clamp leaves Z, N and C. -/
theorem flag_setV_low (c : Core) (v k : Bool) {j : Nat} (hj : j < 3) : (c.setV v k).flag j = c.flag j := by
  have h3 : j ≠ 3 := by omega
  have h4 : j ≠ 4 := by omega
  have h5 : j ≠ 5 := by omega
  have h16 : j < 16 := by omega
  unfold Core.setV; cases v <;> cases k <;> simp [flag_setFlag, *]

/-! ### What a retired instruction leaves to read -/

@[simp] theorem core_retired_dn (n used : Nat) (c : Core) (s : State) (forced i : Nat) : (core (retired n used c s forced) n).dn i = c.dn i := by
  simp [Core.dn]
@[simp] theorem core_retired_an (n used : Nat) (c : Core) (s : State) (forced i : Nat) : (core (retired n used c s forced) n).an i = c.an i := by
  simp [Core.an]
@[simp] theorem core_retired_flag (n used : Nat) (c : Core) (s : State) (forced i : Nat) :
    (core (retired n used c s forced) n).flag i = c.flag i := by simp [Core.flag]
@[simp] theorem setV_dn (c : Core) (v k : Bool) (i : Nat) : (c.setV v k).dn i = c.dn i := by simp [Core.dn]
@[simp] theorem setLanes_flag (c : Core) (v : Nat) (xs : List W16) (i : Nat) : (c.setLanes v xs).flag i = c.flag i := by simp [Core.flag]

/-! ### Narrowing -/

/-- The signed value of a `w`-bit code is that of the bit vector. -/
theorem sext_toBits {w : Nat} (hw : 0 < w) (z : Int) : sext w (toBits w z) = (BitVec.ofInt w z).toInt := by
  obtain ⟨k, rfl⟩ : ∃ k, w = k + 1 := ⟨w - 1, by omega⟩
  have hpos : 0 < 2 ^ k := Nat.two_pow_pos k
  rw [BitVec.toInt_ofInt, Int.bmod_def, sext, toBits, Nat.add_sub_cancel, Nat.pow_succ]
  generalize 2 ^ k = m at *
  have hlo := Int.emod_nonneg z (b := ((m * 2 : Nat) : Int)) (by omega)
  have hhi := Int.emod_lt_of_pos z (b := ((m * 2 : Nat) : Int)) (by omega)
  generalize z % ((m * 2 : Nat) : Int) = r at *
  rw [Nat.mod_eq_of_lt (by omega)]
  split <;> split <;> omega

/-- Without S a result wraps to its code, and has wrapped where the code's value is another. -/
theorem narrow_wrap {w : Nat} (hw : 0 < w) (satW : Nat) (z : Int) :
    narrow false w satW z = ((BitVec.ofInt w z).toInt, decide ((BitVec.ofInt w z).toInt ≠ z), false) := by
  rw [narrow, if_neg Bool.false_ne_true, sext_toBits hw]
  simp [bne, Bool.beq_eq_decide_eq]

end Sys2Proof.Machine
end

section
/-! The ALU instructions (08 R186 to R188): what a lane's result is as it is written, what a scalar and a vector form leave, and when they
raise OVF. -/
namespace Sys2Proof.Machine

/-! ### A result as it is written -/

/-- A function that cannot overflow writes the bits of its result. -/
theorem write_of_bits {o : AluOut} (h : o.canOv = false) (s : Bool) : o.write s = (BitVec.ofInt 16 o.v, false, false) := by
  rw [AluOut.write, if_neg (by simp [h])]

theorem write_aluBits (v : W16) (s : Bool) : (aluBits v).write s = (v, false, false) := by
  rw [write_of_bits rfl, aluBits, BitVec.ofInt_toInt]

/-- With S = 0 an exact result wraps to 16 bits. -/
theorem write_wrap {o : AluOut} (h : o.canOv = true) :
    o.write false = (BitVec.ofInt 16 o.v, decide ((BitVec.ofInt 16 o.v).toInt ≠ o.v), false) := by
  rw [AluOut.write, if_pos h, narrow_wrap (by omega)]
  dsimp only
  rw [BitVec.ofInt_toInt]

/-- With S = 1 it is clamped. -/
theorem write_clamp {o : AluOut} (h : o.canOv = true) :
    o.write true = (BitVec.ofInt 16 (clampI (-32768) 32767 o.v), false, decide (o.v < -32768 ∨ 32767 < o.v)) := by
  rw [AluOut.write, if_pos h, Bool.decide_or]
  rfl

/-! ### The scalar form -/

/-- A core whose register `dd` takes a result with its flags: Z and N of the value, V, SAT, and a carry where the function gives one. -/
def Core.withResult (c : Core) (dd : Nat) (v : W16) (ov sat : Bool) (k : Option Bool) : Core :=
  (((c.setD dd v).setZN (v == 0) v.msb).setV ov sat).withCarry k

@[simp] theorem withResult_haltReq (c : Core) (dd : Nat) (v : W16) (ov sat : Bool) (k : Option Bool) :
    (c.withResult dd v ov sat k).haltReq = c.haltReq := by simp [Core.withResult]

theorem ovf_eq_none {c : Core} {mask : Nat} (h : c.trapv = false ∨ mask = 0) : ovf c mask = none := by
  rcases h with h | h <;> simp [ovf, h]

theorem ovf_eq_some {c : Core} {mask : Nat} (ht : c.trapv = true) (hm : mask ≠ 0) : ovf c mask = some ⟨4, some mask⟩ := by
  simp [ovf, ht, hm]

theorem aluScalar_ok {s : Bool} {o : AluOut} {c : Core} {v : W16} {w k : Bool} (hw : o.write s = (v, w, k)) (ht : c.trapv = false ∨ w = false)
    (dd : Nat) : aluScalar s dd o c = .ok { core := c.withResult dd v w k o.carry } := by
  have hnone : ovf c (b2n w) = none := ovf_eq_none (ht.imp_right fun h => by rw [h]; rfl)
  unfold aluScalar
  rw [hw]
  dsimp only
  rw [hnone]
  rfl

theorem aluScalar_error {s : Bool} {o : AluOut} {c : Core} {v : W16} {k : Bool} (hw : o.write s = (v, true, k)) (ht : c.trapv = true)
    (dd : Nat) : aluScalar s dd o c = .error ⟨4, some 1⟩ := by
  have hsome : ovf c (b2n true) = some ⟨4, some 1⟩ := ovf_eq_some ht (by decide)
  unfold aluScalar
  rw [hw]
  dsimp only
  rw [hsome]

/-- The exact result of a function on the scalar operands that an instruction names. -/
def regOut (a : AluArgs) (s : State) (f : AluFn) : AluOut :=
  f (b2n ((core s a.core).flag 2)) ((core s a.core).dn a.da.toNat) ((core s a.core).dn a.db.toNat)

theorem aluReg_scalar {a : AluArgs} (hrsv : a.rsv = 0) (hvec : a.vec = false) (vecOk : Bool) (f : AluFn) (s : State) :
    aluReg a vecOk f s = issue a.core false .any (fun _ c => aluScalar a.s a.dd.toNat
      (f (b2n (c.flag 2)) (c.dn a.da.toNat) (c.dn a.db.toNat)) c) s := by
  simp [aluReg, hrsv, hvec]

section
variable {a : AluArgs} {s : State} (hr : ready s a.core .any = true) (hrsv : a.rsv = 0) (hvec : a.vec = false)
include hr hrsv hvec

/-- A scalar function whose overflow traps or not leaves its result and its flags. -/
theorem aluReg_retires {f : AluFn} {v : W16} {w k : Bool} (hw : (regOut a s f).write a.s = (v, w, k))
    (ht : (core s a.core).trapv = false ∨ w = false) (vecOk : Bool) :
    aluReg a vecOk f (begun s) = retired a.core 0 ((core s a.core).withResult a.dd.toNat v w k (regOut a s f).carry) s := by
  rw [aluReg_scalar hrsv hvec]
  exact issue_retires hr (aluScalar_ok hw ht _) (by simp)

theorem aluReg_raises {f : AluFn} {v : W16} {k : Bool} (hw : (regOut a s f).write a.s = (v, true, k))
    (ht : (core s a.core).trapv = true) (vecOk : Bool) :
    aluReg a vecOk f (begun s) = takeExc a.core ⟨4, some 1⟩ (begun s) := by
  rw [aluReg_scalar hrsv hvec]
  exact issue_raises hr (aluScalar_error hw ht _)

end

theorem next_settled_congr {s u v : State} (h : u = v) :
    (Host.Outcome.next (settled s u) : Host.Outcome State Fault Refusal) = .next (settled s v) := by rw [h]

/-! ### Values and carries of the functions -/

theorem sshiftRight_eq_ofInt (x : W16) (n : Nat) : BitVec.ofInt 16 (x.toInt / (2 ^ n : Nat)) = x.sshiftRight n := by
  rw [BitVec.sshiftRight, Int.shiftRight_eq_div_pow]

theorem ushiftRight_eq_ofInt (x : W16) (n : Nat) : BitVec.ofInt 16 ((x.toNat / 2 ^ n : Nat) : Int) = x >>> n := by
  rw [BitVec.ofInt_natCast, ← Nat.shiftRight_eq_div_pow, ← BitVec.toNat_ushiftRight, BitVec.ofNat_toNat, BitVec.setWidth_eq]

theorem max_comm_of_toInt (x y : W16) : (if x.toInt ≤ y.toInt then y else x) = if y.toInt ≤ x.toInt then x else y := by
  rcases Int.lt_trichotomy x.toInt y.toInt with h | h | h
  · rw [if_pos (by omega), if_neg (by omega)]
  · rw [BitVec.eq_of_toInt_eq h]
  · rw [if_neg (by omega), if_pos (by omega)]

theorem shiftLeft_eq_ofInt (x : W16) (n : Nat) : BitVec.ofInt 16 (x.toInt * (2 ^ n : Nat)) = x <<< n := by
  rw [BitVec.ofInt_mul, BitVec.ofInt_toInt, BitVec.ofInt_natCast]
  apply BitVec.eq_of_toNat_eq
  rw [BitVec.toNat_mul, BitVec.toNat_ofNat, Nat.mul_mod_mod, BitVec.toNat_shiftLeft, Nat.shiftLeft_eq]

/-- The shifts by an amount `n`: the value written and the last bit shifted out. -/
theorem write_asl {y : W16} {n : Nat} (hn : shiftAmount y = n) (c : Nat) (x : W16) :
    (fnAsl c x y).write false = (x <<< n, decide ((x <<< n).toInt ≠ x.toInt * 2 ^ n), false) := by
  subst hn
  rw [write_wrap rfl, fnAsl, shiftLeft_eq_ofInt, Int.natCast_pow]
  rfl

theorem carry_asl {y : W16} {n : Nat} (hn : shiftAmount y = n) (c : Nat) (x : W16) :
    (fnAsl c x y).carry = some (n != 0 && x.getLsbD (16 - n)) := by
  subst hn; rfl

theorem write_asr {y : W16} {n : Nat} (hn : shiftAmount y = n) (c : Nat) (x : W16) (s : Bool) :
    (fnAsr c x y).write s = (x.sshiftRight n, false, false) := by
  subst hn
  rw [write_of_bits rfl, ← sshiftRight_eq_ofInt]; rfl

theorem write_lsr {y : W16} {n : Nat} (hn : shiftAmount y = n) (c : Nat) (x : W16) (s : Bool) :
    (fnLsr c x y).write s = (x >>> n, false, false) := by
  subst hn
  rw [write_of_bits rfl, ← ushiftRight_eq_ofInt]; rfl

theorem carry_outRight {y : W16} {n : Nat} (hn : shiftAmount y = n) (x : W16) :
    outRight x (shiftAmount y) = some (n != 0 && x.getLsbD (n - 1)) := by
  subst hn; rfl

theorem write_max (c : Nat) (x y : W16) (s : Bool) : (fnMax c x y).write s = (if y.toInt ≤ x.toInt then x else y, false, false) := by
  rw [← max_comm_of_toInt]; exact write_aluBits ..

theorem write_diff (x y : W16) : (aluDiff 0 x y).write false = (x - y, decide ((x - y).toInt ≠ x.toInt - y.toInt), false) := by
  have hz : (aluDiff 0 x y).v = x.toInt - y.toInt := Int.sub_zero _
  have hv : BitVec.ofInt 16 (x.toInt - y.toInt) = x - y :=
    BitVec.eq_of_toInt_eq (by rw [BitVec.toInt_ofInt, BitVec.toInt_sub])
  rw [write_wrap rfl, hz, hv]

/-- A comparison gives the flags of the difference. -/
theorem aluCmp_eq (x y : W16) (c : Core) : aluCmp x y c = .ok { core :=
    ((c.setZN (x - y == 0) (x - y).msb).setV (decide ((x - y).toInt ≠ x.toInt - y.toInt)) false).setFlag 2 (decide (y.toNat ≤ x.toNat)) } := by
  unfold aluCmp
  dsimp only
  rw [write_diff]
  rfl

/-- How a scalar function that gives bits ends, whatever S and TRAPV are. -/
theorem aluReg_bits {a : AluArgs} {s : State} (hr : ready s a.core .any = true) (hrsv : a.rsv = 0) (hvec : a.vec = false) (vecOk : Bool)
    {f : AluFn} {v : W16} {k : Option Bool} (hw : (regOut a s f).write a.s = (v, false, false)) (hk : (regOut a s f).carry = k) :
    run s (aluReg a vecOk f) = .next (settled s (retired a.core 0 ((core s a.core).withResult a.dd.toNat v false false k) s)) := by
  rw [run_eq, aluReg_retires hr hrsv hvec hw (.inr rfl), hk]

/-- Settles O27: none of these functions can overflow, so each writes the bits of its result; the comparisons write flags alone. -/
theorem aluWithoutOverflow : Obligations.AluWithoutOverflow := by
  unfold Obligations.AluWithoutOverflow
  intro a s hr hrsv hvec
  have hbits (f : AluFn) {v k} := aluReg_bits (f := f) (v := v) (k := k) hr hrsv hvec true
  refine ⟨hbits fnMov (write_aluBits ..) rfl, hbits fnMin (write_aluBits ..) rfl, hbits fnMax (write_max ..) rfl,
    hbits fnAnd (write_aluBits ..) rfl, hbits fnOr (write_aluBits ..) rfl, hbits fnXor (write_aluBits ..) rfl,
    hbits fnNot (write_aluBits ..) rfl, hbits fnAsr (write_asr rfl ..) (carry_outRight rfl _),
    hbits fnLsr (write_lsr rfl ..) (carry_outRight rfl _), ?cmp, ?tst⟩
  case cmp =>
    have hissue : execTCmp a s = .next (settled s (issue a.core false .any (fun _ c => aluCmp (c.dn a.da.toNat) (c.dn a.db.toNat) c) (begun s))) := by
      rw [execTCmp, run_eq, hrsv, hvec]; rfl
    exact hissue.trans (next_settled_congr (issue_retires hr (aluCmp_eq ..) (by simp)))
  case tst =>
    have hissue : execTTst a s = .next (settled s (issue a.core false .any (fun _ c => .ok { core :=
        (c.setZN (c.dn a.da.toNat &&& c.dn a.db.toNat == 0) (c.dn a.da.toNat &&& c.dn a.db.toNat).msb).setV false false }) (begun s))) := by
      rw [execTTst, run_eq, hrsv, hvec]; rfl
    exact hissue.trans (next_settled_congr (issue_retires hr rfl (by simp)))

/-! ### The functions that can overflow -/

/-- How a scalar function with the exact result `z` ends: wrapped with V, trapped as OVF, or clamped with SAT. -/
theorem aluReg_overflow {a : AluArgs} {s : State} (hr : ready s a.core .any = true) (hrsv : a.rsv = 0) (hvec : a.vec = false) (vecOk : Bool)
    {f : AluFn} {z : Int} {k : Option Bool} (hf : regOut a s f = ⟨z, k, true⟩) :
    let c := core s a.core
    let o := run s (aluReg a vecOk f)
    let done := fun (v : W16) (ov sat : Bool) => settled s (retired a.core 0 (c.withResult a.dd.toNat v ov sat k) s)
    (a.s = false → c.trapv = false ∨ (BitVec.ofInt 16 z).toInt = z →
        o = .next (done (BitVec.ofInt 16 z) (decide ((BitVec.ofInt 16 z).toInt ≠ z)) false))
    ∧ (a.s = false → c.trapv = true → (BitVec.ofInt 16 z).toInt ≠ z → o = .next (settled s (takeExc a.core ⟨4, some 1⟩ (begun s))))
    ∧ (a.s = true → o = .next (done (BitVec.ofInt 16 (clampI (-32768) 32767 z)) false (decide (z < -32768 ∨ 32767 < z)))) := by
  have hcarry : (regOut a s f).carry = k := by rw [hf]
  refine ⟨fun hs ht => ?wrap, fun hs ht hov => ?trap, fun hs => ?clamp⟩
  case wrap =>
    have hw : (regOut a s f).write a.s = (BitVec.ofInt 16 z, decide ((BitVec.ofInt 16 z).toInt ≠ z), false) := by
      rw [hf, hs]; exact write_wrap rfl
    rw [run_eq, aluReg_retires hr hrsv hvec hw (ht.imp_right fun h => decide_eq_false fun hne => hne h), hcarry]
  case trap =>
    have hw : (regOut a s f).write a.s = (BitVec.ofInt 16 z, true, false) := by
      rw [hf, hs, write_wrap rfl, decide_eq_true hov]
    rw [run_eq, aluReg_raises hr hrsv hvec hw ht]
  case clamp =>
    have hw : (regOut a s f).write a.s = (BitVec.ofInt 16 (clampI (-32768) 32767 z), false, decide (z < -32768 ∨ 32767 < z)) := by
      rw [hf, hs]; exact write_clamp rfl
    rw [run_eq, aluReg_retires hr hrsv hvec hw (.inr rfl), hcarry]

/-- Settles O28: the seven functions give their exact result to one rule. That a scalar overflow reports lane mask 1 is the model's choice
(log entry 89). -/
theorem aluThatCanOverflow : Obligations.AluThatCanOverflow := by
  unfold Obligations.AluThatCanOverflow
  intro a s hr hrsv hvec
  exact ⟨aluReg_overflow hr hrsv hvec true (f := fnAdd) (by simp [regOut, fnAdd, aluSum]),
    aluReg_overflow hr hrsv hvec true (f := fnSub) (by simp [regOut, fnSub, aluDiff]),
    aluReg_overflow hr hrsv hvec false (f := fnAdc) rfl,
    aluReg_overflow hr hrsv hvec false (f := fnSbc) rfl,
    aluReg_overflow hr hrsv hvec true (f := fnNeg) rfl,
    aluReg_overflow hr hrsv hvec true (f := fnAbs) rfl,
    aluReg_overflow hr hrsv hvec true (f := fnAsl) (by simp [regOut, fnAsl, shiftAmount, BitVec.getLsbD])⟩

end Sys2Proof.Machine
end

section
/-! The vector forms and the immediates of the ALU (08 R186 to R188). -/
namespace Sys2Proof.Machine

/-! ### What an ALU function computes -/

/-- With S = 0 the function `F`, without a carry in, writes the value `f` of its operands, and overflows where `f` is not the exact `z`. -/
def Computes (F : AluFn) (f : W16 → W16 → W16) (z : W16 → W16 → Int) : Prop :=
  ∀ x y, (F 0 x y).write false = (f x y, decide ((f x y).toInt ≠ z x y), false)

theorem computes_of_bits {F : AluFn} {f : W16 → W16 → W16} (hF : ∀ x y, (F 0 x y).write false = (f x y, false, false)) :
    Computes F f (fun x y => (f x y).toInt) := by
  intro x y
  rw [hF, decide_eq_false fun hne => hne rfl]

theorem computes_of_wrap {F : AluFn} {f : W16 → W16 → W16} {z : W16 → W16 → Int} (hov : ∀ x y, (F 0 x y).canOv = true)
    (hz : ∀ x y, (F 0 x y).v = z x y) (hf : ∀ x y, BitVec.ofInt 16 (z x y) = f x y) : Computes F f z := by
  intro x y
  rw [write_wrap (hov x y), hz, hf]

/-- Functions that give the bits of `f`. -/
theorem computes_aluBits (f : W16 → W16 → W16) : Computes (fun _ x y => aluBits (f x y)) f (fun x y => (f x y).toInt) :=
  computes_of_bits fun _ _ => write_aluBits ..

theorem computes_add : Computes fnAdd (· + ·) (fun x y => x.toInt + y.toInt) :=
  computes_of_wrap (fun _ _ => rfl) (fun _ _ => Int.add_zero _)
    (fun _ _ => by rw [BitVec.ofInt_add, BitVec.ofInt_toInt, BitVec.ofInt_toInt])

theorem computes_sub : Computes fnSub (· - ·) (fun x y => x.toInt - y.toInt) := write_diff

theorem computes_neg : Computes fnNeg (fun x _ => -x) (fun x _ => -x.toInt) :=
  computes_of_wrap (fun _ _ => rfl) (fun _ _ => rfl) (fun _ _ => by rw [BitVec.ofInt_neg, BitVec.ofInt_toInt])

theorem computes_abs : Computes fnAbs (fun x _ => if x.msb then -x else x) (fun x _ => x.toInt.natAbs) := by
  refine computes_of_wrap (fun _ _ => rfl) (fun _ _ => rfl) (fun x _ => ?_)
  rw [BitVec.msb_eq_toInt]
  by_cases h : x.toInt < 0
  · rw [if_pos (decide_eq_true h), Int.ofNat_natAbs_of_nonpos (Int.le_of_lt h), BitVec.ofInt_neg, BitVec.ofInt_toInt]
  · rw [if_neg (by simpa using h), Int.natAbs_of_nonneg (Int.not_lt.mp h), BitVec.ofInt_toInt]

theorem computes_max : Computes fnMax (fun x y => if y.toInt ≤ x.toInt then x else y) (fun x y => (if y.toInt ≤ x.toInt then x else y).toInt) :=
  computes_of_bits fun _ _ => write_max ..

theorem computes_asl : Computes fnAsl (fun x y => x <<< shiftAmount y) (fun x y => x.toInt * 2 ^ shiftAmount y) :=
  fun _ _ => write_asl rfl ..

theorem computes_asr : Computes fnAsr (fun x y => x.sshiftRight (shiftAmount y)) (fun x y => (x.sshiftRight (shiftAmount y)).toInt) :=
  computes_of_bits fun _ _ => write_asr rfl ..

theorem computes_lsr : Computes fnLsr (fun x y => x >>> shiftAmount y) (fun x y => (x >>> shiftAmount y).toInt) :=
  computes_of_bits fun _ _ => write_lsr rfl ..

/-! ### Four lanes -/

/-- The mask of lanes is not 0 exactly if some lane is in it. -/
theorem laneMask_ne_zero (b : Nat → Bool) :
    (List.range 4).foldl (fun m i => m + 2 ^ i * b2n (b i)) 0 ≠ 0 ↔ ∃ i, i < 4 ∧ b i = true := by
  have hlanes : (∃ i, i < 4 ∧ b i = true) ↔ b 0 = true ∨ b 1 = true ∨ b 2 = true ∨ b 3 = true := by
    constructor
    · rintro ⟨i, hi, hb⟩
      obtain rfl | rfl | rfl | rfl : i = 0 ∨ i = 1 ∨ i = 2 ∨ i = 3 := by omega
      · exact .inl hb
      · exact .inr (.inl hb)
      · exact .inr (.inr (.inl hb))
      · exact .inr (.inr (.inr hb))
    · rintro (hb | hb | hb | hb)
      · exact ⟨0, by omega, hb⟩
      · exact ⟨1, by omega, hb⟩
      · exact ⟨2, by omega, hb⟩
      · exact ⟨3, by omega, hb⟩
  rw [hlanes]
  simp only [List.range, List.range.loop, List.foldl, b2n]
  cases b 0 <;> cases b 1 <;> cases b 2 <;> cases b 3 <;> decide

theorem getD_map_range {α : Type} (g : Nat → α) {n i : Nat} (hi : i < n) (d : α) : ((List.range n).map g).getD i d = g i := by
  simp [List.getD, hi]

/-- The vector form of a function writes what it computes on each lane, and sets V if a lane overflowed. -/
theorem aluVector_ok {F : AluFn} {f : W16 → W16 → W16} {z : W16 → W16 → Int} (hF : Computes F f z) {c : Core} (ht : c.trapv = false)
    (dd : Nat) (x y : Nat → W16) : ∃ xs v k,
      aluVector false dd ((List.range 4).map (fun i => F 0 (x i) (y i))) c = .ok { core := (c.setLanes dd xs).setV v k }
      ∧ (∀ i, i < 4 → xs.getD i 0 = f (x i) (y i)) ∧ (v = true ↔ ∃ i, i < 4 ∧ (f (x i) (y i)).toInt ≠ z (x i) (y i)) := by
  have hwrite : ((List.range 4).map (fun i => F 0 (x i) (y i))).map (·.write false)
      = (List.range 4).map (fun i => (f (x i) (y i), decide ((f (x i) (y i)).toInt ≠ z (x i) (y i)), false)) := by
    rw [List.map_map]
    exact List.map_congr_left fun i _ => hF ..
  unfold aluVector
  dsimp only
  rw [hwrite, ovf_eq_none (.inl ht)]
  refine ⟨_, _, _, rfl, fun i hi => ?_, ?_⟩
  · rw [List.map_map, getD_map_range _ hi]; rfl
  · rw [bne_iff_ne, laneMask_ne_zero]
    refine exists_congr fun i => and_congr_right fun hi => ?_
    rw [getD_map_range _ hi, decide_eq_true_iff]

theorem aluReg_vector {a : AluArgs} (hrsv : a.rsv = 0) (hvec : a.vec = true) (hdd : a.dd.toNat < 4) (hda : a.da.toNat < 4)
    (hdb : a.db.toNat < 4) (f : AluFn) (s : State) :
    aluReg a true f s = issue a.core false .any (fun _ c => aluVector a.s a.dd.toNat
      ((List.range 4).map (fun i => f 0 (c.dn (4 * a.da.toNat + i)) (c.dn (4 * a.db.toNat + i)))) c) s := by
  simp [aluReg, hrsv, hvec, Nat.not_le.mpr hdd, Nat.not_le.mpr hda, Nat.not_le.mpr hdb, Core.lanes, List.zipWith_map]

/-- How a vector form ends: its lanes, the registers beside them, the flags that stay, and V. -/
theorem aluReg_lanes {a : AluArgs} {s : State} (hr : ready s a.core .any = true) (hrsv : a.rsv = 0) (hvec : a.vec = true) (hs : a.s = false)
    (hdd : a.dd.toNat < 4) (hda : a.da.toNat < 4) (hdb : a.db.toNat < 4) (ht : (core s a.core).trapv = false)
    {F : AluFn} {f : W16 → W16 → W16} {z : W16 → W16 → Int} (hF : Computes F f z) :
    let c := core s a.core
    let x := fun i => c.dn (4 * a.da.toNat + i)
    let y := fun i => c.dn (4 * a.db.toNat + i)
    ∃ t, run s (aluReg a true F) = .next t ∧ (∀ i, i < 4 → (core t a.core).dn (4 * a.dd.toNat + i) = f (x i) (y i))
      ∧ (∀ j, j < 16 → j / 4 ≠ a.dd.toNat → (core t a.core).dn j = c.dn j)
      ∧ (∀ j, j < 3 → (core t a.core).flag j = c.flag j)
      ∧ ((core t a.core).flag 3 = true ↔ ∃ i, i < 4 ∧ (f (x i) (y i)).toInt ≠ z (x i) (y i)) := by
  intro c x y
  obtain ⟨xs, v, k, hok, hxs, hv⟩ := aluVector_ok hF ht a.dd.toNat x y
  have hret : aluReg a true F (begun s) = retired a.core 0 ((c.setLanes a.dd.toNat xs).setV v k) s := by
    rw [aluReg_vector hrsv hvec hdd hda hdb, hs]
    exact issue_retires hr hok (by simp [c])
  refine ⟨_, by rw [run_eq, hret], fun i hi => ?_, fun j _ hj => ?_, fun j hj => ?_, ?_⟩
  · rw [core_settled, core_retired_dn, setV_dn, dn_setLanes_lane c xs hdd hi, hxs i hi]
  · rw [core_settled, core_retired_dn, setV_dn, dn_setLanes_other c xs hj]
  · rw [core_settled, core_retired_flag, flag_setV_low _ _ _ hj, setLanes_flag]
  · rw [core_settled, core_retired_flag, flag_setV_V, hv]

/-! ### Immediates -/

section
variable {a : ImmArgs} {s : State} (hr : ready s a.core .any = true)
include hr

/-- A scalar function of a register and an immediate leaves its result and its flags. -/
theorem aluImm_retires (hvec : a.vec = false) (hs : a.s = false) (ht : (core s a.core).trapv = false) (hrsv : a.rsv = false)
    {bad : Bool} (hbad : bad = false) {f : AluFn} {y v : W16} {w : Bool} {k : Option Bool}
    (hw : (f 0 ((core s a.core).dn a.dd.toNat) y).write false = (v, w, false)) (hk : (f 0 ((core s a.core).dn a.dd.toNat) y).carry = k) :
    run s (aluImm a bad y f) = .next (settled s (retired a.core 0 ((core s a.core).withResult a.dd.toNat v w false k) s)) := by
  have hissue : aluImm a bad y f (begun s)
      = issue a.core false .any (fun _ c => aluScalar false a.dd.toNat (f 0 (c.dn a.dd.toNat) y) c) (begun s) := by
    simp [aluImm, hbad, hrsv, hvec, hs]
  rw [run_eq, hissue, issue_retires hr (aluScalar_ok hw (.inl ht) _) (by simp), hk]

/-- The reserved bit makes an immediate function illegal. -/
theorem aluImm_illegal (hrsv : a.rsv = true) (bad : Bool) (y : W16) (f : AluFn) :
    run s (aluImm a bad y f) = .next (settled s (takeExc a.core ⟨1, none⟩ (begun s))) := by
  have hissue : aluImm a bad y f (begun s) = issue a.core true .any (fun _ c =>
      if a.vec then aluVector a.s a.dd.toNat ((c.lanes a.dd.toNat).map (fun x => f 0 x y)) c
      else aluScalar a.s a.dd.toNat (f 0 (c.dn a.dd.toNat) y) c) (begun s) := by
    simp [aluImm, hrsv]
  rw [run_eq, hissue, issue_illegal hr]

end

/-- An amount of a shift by an immediate, which is at most 16, is taken as it is. -/
theorem shiftAmount_ofNat {n : Nat} (hn : n ≤ 16) : shiftAmount (BitVec.ofNat 16 n) = n := by
  rw [shiftAmount, BitVec.toNat_ofNat]; omega

section
variable {a : ImmArgs} (hn : a.imm.toNat % 32 ≤ 16) (hzero : bits a.imm.toNat 13 5 = 0) (s : State)
include hn hzero

/-- SHI is the shift that IMM[15:14] selects, by IMM[4:0]. -/
theorem execTShi_asl (hsel : bits a.imm.toNat 15 14 = 0) :
    execTShi a s = run s (aluImm a false (BitVec.ofNat 16 (a.imm.toNat % 32)) fnAsl) := by
  simp [execTShi, hsel, hzero, Nat.not_lt.mpr hn]

theorem execTShi_asr (hsel : bits a.imm.toNat 15 14 = 1) :
    execTShi a s = run s (aluImm a false (BitVec.ofNat 16 (a.imm.toNat % 32)) fnAsr) := by
  simp [execTShi, hsel, hzero, Nat.not_lt.mpr hn]

theorem execTShi_lsr (hsel : bits a.imm.toNat 15 14 = 2) :
    execTShi a s = run s (aluImm a false (BitVec.ofNat 16 (a.imm.toNat % 32)) fnLsr) := by
  simp [execTShi, hsel, hzero, Nat.not_lt.mpr hn]

end

/-- Settles O29: one rule for the lanes of every function and one for the immediates, each given what the function computes. That V is cleared
by a vector function that cannot overflow is the model's choice (log entry 90). -/
theorem aluLanesAndImmediates : Obligations.AluLanesAndImmediates := by
  unfold Obligations.AluLanesAndImmediates
  refine ⟨?vector, ?immediate⟩
  case vector =>
    intro a s hr hrsv hvec hs hdd hda hdb ht
    have hlanes {F f z} (hF : Computes F f z) := aluReg_lanes hr hrsv hvec hs hdd hda hdb ht hF
    exact ⟨hlanes (computes_aluBits fun x _ => x), hlanes computes_add, hlanes computes_sub, hlanes computes_neg, hlanes computes_abs,
      hlanes (computes_aluBits fun x y => if x.toInt ≤ y.toInt then x else y),
      hlanes computes_max,
      hlanes (computes_aluBits (· &&& ·)), hlanes (computes_aluBits (· ||| ·)), hlanes (computes_aluBits (· ^^^ ·)),
      hlanes (computes_aluBits fun x _ => ~~~x), hlanes computes_asl, hlanes computes_asr, hlanes computes_lsr⟩
  case immediate =>
    intro a s hr hvec hs ht
    refine ⟨fun hrsv => ?functions, fun hrsv => ?illegal⟩
    case functions =>
      have himm {F v w k y} := aluImm_retires (f := F) (y := y) (v := v) (w := w) (k := k) hr hvec hs ht hrsv rfl
      refine ⟨himm (write_aluBits ..) rfl, himm (computes_add ..) rfl, himm (computes_sub ..) rfl, himm (F := fnAnd) (write_aluBits ..) rfl,
        himm (F := fnOr) (write_aluBits ..) rfl, himm (F := fnXor) (write_aluBits ..) rfl, ?cmpi, fun hn hzero => ?shi⟩
      case cmpi =>
        have hissue : execTCmpi a s = .next (settled s (issue a.core false .any (fun _ c => aluCmp (c.dn a.dd.toNat) a.imm c) (begun s))) := by
          rw [execTCmpi, run_eq, hrsv, hvec]; rfl
        exact hissue.trans (next_settled_congr (issue_retires hr (aluCmp_eq ..) (by simp)))
      case shi =>
        have hamt := shiftAmount_ofNat hn
        exact ⟨fun hsel => (execTShi_asl hn hzero s hsel).trans (himm (write_asl hamt ..) (carry_asl hamt ..)),
          fun hsel => (execTShi_asr hn hzero s hsel).trans (himm (write_asr hamt ..) (carry_outRight hamt _)),
          fun hsel => (execTShi_lsr hn hzero s hsel).trans (himm (write_lsr hamt ..) (carry_outRight hamt _))⟩
    case illegal =>
      intro i hi
      simp only [List.mem_cons, List.not_mem_nil, or_false] at hi
      have himm := @aluImm_illegal a s hr hrsv
      rcases hi with rfl | rfl | rfl | rfl | rfl | rfl | rfl | rfl
      case inr.inr.inr.inr.inr.inr.inl =>
        have hissue : execTCmpi a s = .next (settled s (issue a.core true .any (fun _ c => aluCmp (c.dn a.dd.toNat) a.imm c) (begun s))) := by
          rw [execTCmpi, run_eq, hrsv, Bool.or_true]
        exact hissue.trans (next_settled_congr (issue_illegal hr))
      all_goals exact himm ..

end Sys2Proof.Machine
end

section
/-! Division by steps (08 R190): a step without restoring keeps what a restoring division holds, less the divisor where its difference is
negative. -/
namespace Sys2Proof.Machine

theorem ofInt_sub_ofInt (w : Nat) (x y : Int) : BitVec.ofInt w x - BitVec.ofInt w y = BitVec.ofInt w (x - y) := by
  rw [BitVec.sub_eq_add_neg, ← BitVec.ofInt_neg, ← BitVec.ofInt_add, Int.sub_eq_add_neg]

/-! ### One step -/

/-- The partial remainder `t` and the bits `q` of a restoring division as an accumulator holds them between steps: the remainder less the
divisor where the step's difference was negative, which the carry `pos` says. -/
def divHeld (dv : W16) (t q : Nat) (pos : Bool) : BitVec 40 :=
  BitVec.ofInt 24 ((t : Int) - if pos then 0 else (dv.toNat : Int)) ++ BitVec.ofNat 16 q

/-- The quotient bit of a restoring step: the doubled remainder with the next bit of the dividend holds the divisor. -/
def divBit (dv : W16) (t q : Nat) : Bool := decide (dv.toNat ≤ 2 * t + q / 32768)

/-- The remainder and the bits after a restoring step. -/
def divRem (dv : W16) (t q : Nat) : Nat := 2 * t + q / 32768 - if divBit dv t q then dv.toNat else 0
def divBits (dv : W16) (t q : Nat) : Nat := 2 * q % 65536 + b2n (divBit dv t q)

/-- The bit that a shift to the left moves out of the low half. -/
theorem topBit_eq_ofInt {q : Nat} (hq : q < 65536) :
    (if (BitVec.ofNat 16 q).msb then 1 else 0 : BitVec 24) = BitVec.ofInt 24 ((q / 32768 : Nat) : Int) := by
  rw [BitVec.msb_eq_decide, BitVec.toNat_ofNat, Nat.mod_eq_of_lt hq]
  by_cases h : 32768 ≤ q
  · rw [if_pos (decide_eq_true h), show q / 32768 = 1 by omega]; rfl
  · rw [if_neg (by simpa using h), show q / 32768 = 0 by omega]; rfl

theorem setWidth_eq_ofInt (dv : W16) : (dv.setWidth 24 : BitVec 24) = BitVec.ofInt 24 (dv.toNat : Int) := by
  rw [BitVec.ofInt_natCast, BitVec.ofNat_toNat]

/-- The doubled remainder less the divisor, however the step forms it. -/
theorem divStep_difference (dv : W16) (t : Nat) {q : Nat} (hq : q < 65536) (pos : Bool) :
    let r := 2#24 * BitVec.ofInt 24 ((t : Int) - if pos then 0 else (dv.toNat : Int)) + (if (BitVec.ofNat 16 q).msb then 1 else 0)
    (if pos then r - dv.setWidth 24 else r + dv.setWidth 24) = BitVec.ofInt 24 ((2 * t + q / 32768 : Nat) - (dv.toNat : Int)) := by
  have htwo : 2#24 = BitVec.ofInt 24 2 := rfl
  intro r
  simp only [r, topBit_eq_ofInt hq, setWidth_eq_ofInt, htwo, ← BitVec.ofInt_mul, ← BitVec.ofInt_add, ofInt_sub_ofInt]
  cases pos <;> simp only [if_true, if_false, Bool.false_eq_true] <;> exact congrArg _ (by omega)

/-- The sign of the difference is the quotient bit. -/
theorem msb_difference {dv : W16} {t : Nat} (ht : t < dv.toNat) {q : Nat} (hq : q < 65536) :
    (!(BitVec.ofInt 24 ((2 * t + q / 32768 : Nat) - (dv.toNat : Int))).msb) = divBit dv t q := by
  have hdv := dv.isLt
  rw [BitVec.msb_eq_toInt, BitVec.toInt_ofInt_eq_self (by omega) (by omega) (by omega), divBit, ← decide_not]
  exact decide_eq_decide.mpr (by omega)

/-- The low half takes the quotient bit at its right. -/
theorem shiftLeft_bits (dv : W16) (t q : Nat) :
    (if divBit dv t q then BitVec.ofNat 16 q <<< 1 + 1 else BitVec.ofNat 16 q <<< 1) = BitVec.ofNat 16 (divBits dv t q) := by
  apply BitVec.eq_of_toNat_eq
  unfold divBits
  cases divBit dv t q <;> simp [b2n, Nat.shiftLeft_eq] <;> omega

/-- A step of division is a restoring step whose result is held without restoring, but for the last. -/
theorem divStep_held {dv : W16} {t q : Nat} (ht : t < dv.toNat) (hq : q < 65536) {f c pos : Bool} (hpos : (f || c) = pos) (l : Bool) :
    divStep (divHeld dv t q pos) dv f l c = (divHeld dv (divRem dv t q) (divBits dv t q) (divBit dv t q || l), divBit dv t q) := by
  have hdiff := divStep_difference dv t hq pos
  unfold divStep divHeld
  dsimp only at hdiff ⊢
  rw [BitVec.extractLsb'_append_eq_left, BitVec.extractLsb'_append_eq_right, hpos, hdiff, msb_difference ht hq, shiftLeft_bits]
  refine Prod.ext (congrArg (· ++ _) ?_) rfl
  cases hb : divBit dv t q
  case false =>
    cases l
    · simp [divRem, hb]
    · simp only [divRem, hb, Bool.not_false, Bool.and_self, Bool.or_true, if_true, Bool.false_eq_true, if_false, Int.sub_zero, Nat.sub_zero]
      rw [setWidth_eq_ofInt, ← BitVec.ofInt_add, Int.sub_add_cancel]
  case true =>
    have hge : dv.toNat ≤ 2 * t + q / 32768 := by simpa [divBit] using hb
    simp only [divRem, hb, if_true, Bool.not_true, Bool.and_false, Bool.false_eq_true, if_false, Bool.true_or, Int.sub_zero, Int.ofNat_sub hge]

/-! ### Sixteen steps -/

/-- After `i` steps of dividing `N` the remainder and the bits hold what `i` quotient bits `Q` have left of `2 ^ i * N`, and `Q`. -/
def Divided (N : Nat) (dv : W16) (i t q : Nat) : Prop :=
  t < dv.toNat ∧ q < 65536 ∧ ∃ Q, Q < 2 ^ i ∧ t * 65536 + q + Q * dv.toNat * 65536 = 2 ^ i * N + Q

theorem Divided.rem_lt {N : Nat} {dv : W16} {i t q : Nat} (h : Divided N dv i t q) : t < dv.toNat := h.1
theorem Divided.bits_lt {N : Nat} {dv : W16} {i t q : Nat} (h : Divided N dv i t q) : q < 65536 := h.2.1

theorem divided_start {N : Nat} {dv : W16} (h : N / 65536 < dv.toNat) : Divided N dv 0 (N / 65536) (N % 65536) :=
  ⟨h, Nat.mod_lt _ (by omega), 0, by omega, by omega⟩

theorem doubled_sum {x x' p q u v e M Q b : Nat} (h : x + q + p = M + Q) (hx : x' + e = 2 * x + u) (hq : 2 * q = u + v) :
    x' + (v + b) + (2 * p + e) = 2 * M + (2 * Q + b) := by omega

/-- Doubling both sides of what `Divided` says, with the quotient bit `b`. -/
theorem divided_sum {t q t' q' b P d M Q : Nat} (h : t * 65536 + q + P * 65536 = M + Q) (hb : t' + b * d = 2 * t + q / 32768)
    (hq : q' = 2 * q % 65536 + b) : t' * 65536 + q' + (2 * P + b * d) * 65536 = 2 * M + (2 * Q + b) := by
  have hlow : 2 * q = q / 32768 * 65536 + 2 * q % 65536 := by omega
  have hhigh : t' * 65536 + b * d * 65536 = 2 * (t * 65536) + q / 32768 * 65536 := by
    rw [← Nat.add_mul, hb, Nat.add_mul, Nat.mul_assoc]
  have hdist : (2 * P + b * d) * 65536 = 2 * (P * 65536) + b * d * 65536 := by rw [Nat.add_mul, Nat.mul_assoc]
  rw [hdist, hq]
  exact doubled_sum h hhigh hlow

theorem divided_step {N : Nat} {dv : W16} {i t q : Nat} (h : Divided N dv i t q) : Divided N dv (i + 1) (divRem dv t q) (divBits dv t q) := by
  obtain ⟨ht, hq, Q, hQ, hN⟩ := h
  have hpow : 2 ^ (i + 1) * N = 2 * (2 ^ i * N) := by rw [Nat.pow_succ', Nat.mul_assoc]
  unfold divRem divBits
  cases hb : divBit dv t q
  case false =>
    have hlt : 2 * t + q / 32768 < dv.toNat := by simpa [divBit] using hb
    refine ⟨by simpa using hlt, by simp [b2n]; omega, 2 * Q, by omega, ?_⟩
    have hsum := divided_sum (b := 0) (d := dv.toNat) hN (by rw [Nat.zero_mul]; rfl) rfl
    rwa [Nat.zero_mul, Nat.add_zero, Nat.add_zero, ← Nat.mul_assoc, ← hpow] at hsum
  case true =>
    have hge : dv.toNat ≤ 2 * t + q / 32768 := by simpa [divBit] using hb
    refine ⟨by simp; omega, by simp [b2n]; omega, 2 * Q + 1, by omega, ?_⟩
    have hsum := divided_sum (b := 1) (d := dv.toNat) hN (by rw [Nat.one_mul]; exact Nat.sub_add_cancel hge) rfl
    rwa [← Nat.mul_assoc, ← Nat.add_mul, ← hpow] at hsum

theorem divided_end {N : Nat} {dv : W16} {t q : Nat} (h : Divided N dv 16 t q) : q = N / dv.toNat ∧ t = N % dv.toNat := by
  obtain ⟨ht, hq, Q, hQ, hN⟩ := h
  obtain rfl : q = Q := by omega
  have hsum : t + dv.toNat * q = N := by rw [Nat.mul_comm]; omega
  exact (Nat.div_mod_unique (by omega)).mpr ⟨hsum, ht⟩ |>.imp Eq.symm Eq.symm

/-- A pair of accumulator and carry that steps of division have reached. -/
def DivReached (N : Nat) (dv : W16) (i : Nat) (x : BitVec 40 × Bool) : Prop := ∃ t q, Divided N dv i t q ∧ x.1 = divHeld dv t q x.2

theorem divReached_step {N : Nat} {dv : W16} {i : Nat} {x : BitVec 40 × Bool} (h : DivReached N dv i x) :
    DivReached N dv (i + 1) (divStep x.1 dv false false x.2) := by
  obtain ⟨t, q, hd, hx⟩ := h
  rw [hx, divStep_held hd.rem_lt hd.bits_lt (Bool.false_or _), Bool.or_false]
  exact ⟨_, _, divided_step hd, rfl⟩

theorem divReached_repeat {N : Nat} {dv : W16} {i : Nat} {x : BitVec 40 × Bool} (h : DivReached N dv i x) (n : Nat) :
    DivReached N dv (i + n) (Nat.repeat (fun x : BitVec 40 × Bool => divStep x.1 dv false false x.2) n x) := by
  induction n with
  | zero => exact h
  | succ n ih => exact divReached_step ih

/-- An accumulator after a difference that was not negative holds the remainder and the bits themselves. -/
theorem divHeld_true (dv : W16) {t q : Nat} (hq : q < 65536) : divHeld dv t q true = BitVec.ofNat 40 (t * 65536 + q) := by
  apply BitVec.eq_of_toNat_eq
  rw [divHeld, if_pos rfl, Int.sub_zero, BitVec.ofInt_natCast, BitVec.toNat_append, BitVec.toNat_ofNat, BitVec.toNat_ofNat, BitVec.toNat_ofNat,
    Nat.mod_eq_of_lt (show q < 2 ^ 16 from hq), ← Nat.shiftLeft_add_eq_or_of_lt (show q < 2 ^ 16 from hq), Nat.shiftLeft_eq]
  omega

/-- Settles O31: sixteen steps keep `Divided`, and the last one restores a negative difference. -/
theorem divisionIsExact : Obligations.DivisionIsExact := by
  unfold Obligations.DivisionIsExact
  refine ⟨fun N dv carry _ hlt => ?exact, fun n f l a dv s hr => ?step⟩
  case exact =>
    intro first mid
    have hstart : N.setWidth 40 = divHeld dv (N.toNat / 65536) (N.toNat % 65536) true := by
      rw [divHeld_true dv (by omega), Nat.div_add_mod', BitVec.ofNat_toNat]
    have hfirst : DivReached N.toNat dv 1 first := by
      have hd := divided_start hlt
      simp only [first]
      rw [hstart, divStep_held hlt (Nat.mod_lt _ (by omega)) (Bool.true_or carry), Bool.or_false]
      exact ⟨_, _, divided_step hd, rfl⟩
    obtain ⟨t, q, hd, hmid⟩ : DivReached N.toNat dv 15 mid := divReached_repeat hfirst 14
    have hlast := divided_step hd
    obtain ⟨hquot, hrem⟩ := divided_end hlast
    rw [hmid, divStep_held hd.rem_lt hd.bits_lt (Bool.false_or _), Bool.or_true, divHeld_true dv hlast.bits_lt, hquot, hrem]
  case step =>
    have hdivs := issue_retires (f := fun _ c =>
      let x := divStep (c.an a.toNat) (c.dn dv.toNat) f l (c.flag 2)
      .ok { core := (c.setA a.toNat x.1).setFlag 2 x.2 }) hr rfl (by simp)
    exact next_settled_congr hdivs

end Sys2Proof.Machine
end

section
/-! The accumulator functions (08 R189, 07 R163, R164): exact results wrapped with AV or clamped with SAT, convergent extraction, and moves. -/
namespace Sys2Proof.Machine

/-! ### Convergent rounding (07 R164) -/

/-- A quotient of naturals rounded half to even is the truncated one, or the next, by the remainder and at a tie by parity. -/
theorem divEven_cases (n d : Nat) :
    (divEven n d = n / d ∧ 2 * (n % d) ≤ d ∧ (2 * (n % d) = d → n / d % 2 = 0))
    ∨ (divEven n d = n / d + 1 ∧ d ≤ 2 * (n % d) ∧ (2 * (n % d) = d → (n / d + 1) % 2 = 0)) := by
  unfold divEven
  dsimp only
  by_cases hlow : 2 * (n % d) < d
  · rw [if_pos hlow]; exact .inl ⟨rfl, by omega, by omega⟩
  · rw [if_neg hlow]
    by_cases hhigh : d < 2 * (n % d)
    · rw [if_pos hhigh]; exact .inr ⟨rfl, by omega, by omega⟩
    · rw [if_neg hhigh]
      by_cases heven : n / d % 2 = 0
      · rw [if_pos heven]; exact .inl ⟨rfl, by omega, fun _ => heven⟩
      · rw [if_neg heven]; exact .inr ⟨rfl, by omega, by omega⟩

/-- It is nearest, and even at a tie. -/
theorem divEven_nearest (n : Nat) {d : Nat} (hd : 0 < d) :
    2 * ((n : Int) - d * divEven n d).natAbs ≤ d ∧ (2 * ((n : Int) - d * divEven n d).natAbs = d → divEven n d % 2 = 0) := by
  have hrem := Nat.mod_lt n hd
  have hsplit : (n : Int) = d * (n / d : Nat) + (n % d : Nat) := by
    rw [← Int.natCast_mul, ← Int.natCast_add, Nat.div_add_mod]
  rcases divEven_cases n d with ⟨hq, hnear, heven⟩ | ⟨hq, hnear, heven⟩
  · have hdist : ((n : Int) - d * (n / d : Nat)).natAbs = n % d := by omega
    rw [hq, hdist]
    exact ⟨hnear, heven⟩
  · have hdist : ((n : Int) - d * (n / d + 1 : Nat)).natAbs = d - n % d := by
      rw [Int.natCast_add, Int.mul_add, Int.natCast_one, Int.mul_one]; omega
    rw [hq, hdist]
    exact ⟨by omega, fun h => heven (by omega)⟩

theorem divEvenI_nearest (z : Int) {d : Nat} (hd : 0 < d) :
    2 * (z - d * divEvenI z d).natAbs ≤ d ∧ (2 * (z - d * divEvenI z d).natAbs = d → divEvenI z d % 2 = 0) := by
  cases z with
  | ofNat n =>
    obtain ⟨hnear, heven⟩ := divEven_nearest n hd
    exact ⟨hnear, fun h => by simpa [divEvenI] using congrArg Int.ofNat (heven h)⟩
  | negSucc n =>
    obtain ⟨hnear, heven⟩ := divEven_nearest (n + 1) hd
    have hneg : Int.negSucc n - d * divEvenI (Int.negSucc n) d = -(((n + 1 : Nat) : Int) - d * divEven (n + 1) d) := by
      rw [divEvenI, Int.mul_neg, Int.negSucc_eq]; omega
    rw [hneg, Int.natAbs_neg]
    refine ⟨hnear, fun h => ?_⟩
    have := heven h
    simp only [divEvenI]
    omega

/-! ### Narrowed results and their flags -/

theorem toInt_beq_zero {w : Nat} (v : BitVec w) : (v.toInt == 0) = (v == 0) := by
  rw [Bool.eq_iff_iff, beq_iff_eq, beq_iff_eq, ← BitVec.toInt_inj, show (0 : BitVec w).toInt = 0 from BitVec.toInt_zero]

theorem clampI_bounds {lo hi : Int} (h : lo ≤ hi) (z : Int) : lo ≤ clampI lo hi z ∧ clampI lo hi z ≤ hi := by
  unfold clampI
  by_cases hlo : z < lo
  · rw [if_pos hlo]; omega
  · rw [if_neg hlo]
    by_cases hhi : hi < z
    · rw [if_pos hhi]; omega
    · rw [if_neg hhi]; omega

/-- With S an accumulator's result is held within 32 bits, and an extracted one within its 16. -/
theorem narrow_clamp_32 (z : Int) : narrow true 40 32 z
    = ((BitVec.ofInt 40 (clampI (-2147483648) 2147483647 z)).toInt, false, decide (z < -2147483648 ∨ 2147483647 < z)) := by
  obtain ⟨hlo, hhi⟩ := clampI_bounds (show (-2147483648 : Int) ≤ 2147483647 by omega) z
  rw [BitVec.toInt_ofInt_eq_self (by omega) (by omega) (by omega), narrow, if_pos rfl, Bool.decide_or]
  rfl

theorem narrow_clamp_16 (z : Int) : narrow true 16 16 z = (clampI (-32768) 32767 z, false, decide (z < -32768 ∨ 32767 < z)) := by
  rw [narrow, if_pos rfl, Bool.decide_or]
  rfl

/-! ### Results written to an accumulator -/

/-- A core whose accumulator `ad` takes a result with its flags. -/
def Core.withAcc (c : Core) (ad : Nat) (v : BitVec 40) (ov sat : Bool) : Core := ((c.setA ad v).setZN (v == 0) v.msb).setV ov sat

@[simp] theorem withAcc_haltReq (c : Core) (ad : Nat) (v : BitVec 40) (ov sat : Bool) : (c.withAcc ad v ov sat).haltReq = c.haltReq := by
  simp [Core.withAcc]

/-- What is written of a narrowed result that raises nothing; AV of the destination is set where it wrapped. -/
theorem accWrite_ok {a : AccArgs} {z : Int} {v : BitVec 40} {w k : Bool} (hn : narrow a.s 40 32 z = (v.toInt, w, k)) {c : Core}
    (ht : c.trapv = false ∨ w = false) :
    accWrite a z c = .ok { core := if w then (c.withAcc a.ad.toNat v w k).setFlag (6 + a.ad.toNat % 4) true else c.withAcc a.ad.toNat v w k } := by
  have hnone : ovf c (if w then 2 ^ (a.ad.toNat % 4) else 0) = none := ovf_eq_none (ht.imp_right fun h => by rw [h]; rfl)
  unfold accWrite
  rw [hn]
  dsimp only
  rw [hnone, toInt_beq_zero, ← BitVec.msb_eq_toInt, BitVec.ofInt_toInt]
  rfl

theorem accWrite_error {a : AccArgs} {z : Int} {v : BitVec 40} {k : Bool} (hn : narrow a.s 40 32 z = (v.toInt, true, k)) {c : Core}
    (ht : c.trapv = true) : accWrite a z c = .error ⟨4, some (2 ^ (a.ad.toNat % 4))⟩ := by
  have hsome : ovf c (if true then 2 ^ (a.ad.toNat % 4) else 0) = some ⟨4, some (2 ^ (a.ad.toNat % 4))⟩ :=
    ovf_eq_some ht (Nat.ne_of_gt (Nat.two_pow_pos _))
  unfold accWrite
  rw [hn]
  dsimp only
  rw [hsome]

section
variable {a : AccArgs} {s : State} (hr : ready s a.core .any = true) {u : AccUse} {imm : Bool} (hu : accBad a u imm = false)
include hr hu

/-- A function of a good word that raises nothing leaves its core. -/
theorem acc_retires {f : Core → Except Exc Eff} {c : Core} (hf : f (core s a.core) = .ok { core := c })
    (hhalt : c.haltReq = (core s a.core).haltReq) {extra : Bool} (hextra : extra = false) :
    run s (acc a u imm extra f) = .next (settled s (retired a.core 0 c s)) := by
  rw [run_eq, acc, hu, hextra, Bool.or_self]
  exact next_settled_congr (issue_retires hr hf hhalt)

/-- A move leaves the core it makes. -/
theorem acc_moves (g : Core → Core) (hhalt : (g (core s a.core)).haltReq = (core s a.core).haltReq) {extra : Bool} (hextra : extra = false) :
    run s (acc a u imm extra (fun c => .ok { core := g c })) = .next (settled s (retired a.core 0 (g (core s a.core)) s)) :=
  acc_retires hr hu rfl hhalt hextra

/-- How a function with the exact result `z` for an accumulator ends. -/
theorem acc_overflow {f : Core → Except Exc Eff} {z : Int} (hf : f (core s a.core) = accWrite a z (core s a.core)) :
    let c := core s a.core
    let o := run s (acc a u imm false f)
    let v := BitVec.ofInt 40 z
    (a.s = false → v.toInt = z → o = .next (settled s (retired a.core 0 (c.withAcc a.ad.toNat v false false) s)))
    ∧ (a.s = false → v.toInt ≠ z → c.trapv = false →
        o = .next (settled s (retired a.core 0 ((c.withAcc a.ad.toNat v true false).setFlag (6 + a.ad.toNat % 4) true) s)))
    ∧ (a.s = false → v.toInt ≠ z → c.trapv = true → o = .next (settled s (takeExc a.core ⟨4, some (2 ^ (a.ad.toNat % 4))⟩ (begun s))))
    ∧ (a.s = true → o = .next (settled s (retired a.core 0 (c.withAcc a.ad.toNat (BitVec.ofInt 40 (clampI (-2147483648) 2147483647 z)) false
        (decide (z < -2147483648 ∨ 2147483647 < z))) s))) := by
  intro c o v
  have hwrap (hs : a.s = false) : narrow a.s 40 32 z = (v.toInt, decide (v.toInt ≠ z), false) := by rw [hs]; exact narrow_wrap (by omega) ..
  refine ⟨fun hs hfit => ?fits, fun hs hov ht => ?wraps, fun hs hov ht => ?traps, fun hs => ?clamps⟩
  case fits =>
    have hn := hwrap hs
    rw [decide_eq_false fun hne => hne hfit] at hn
    exact acc_retires hr hu (hf.trans (accWrite_ok hn (.inr rfl))) (withAcc_haltReq ..) rfl
  case wraps =>
    have hn := hwrap hs
    rw [decide_eq_true hov] at hn
    exact acc_retires hr hu (hf.trans (accWrite_ok hn (.inl ht))) (by simp) rfl
  case traps =>
    have hn := hwrap hs
    rw [decide_eq_true hov] at hn
    have hraise := issue_raises (f := fun _ c => f c) hr (hf.trans (accWrite_error hn ht))
    simp only [o]
    rw [run_eq, acc, hu, Bool.or_self, hraise]
  case clamps =>
    have hn := hs ▸ narrow_clamp_32 z
    exact acc_retires hr hu (hf.trans (accWrite_ok hn (.inr rfl))) (withAcc_haltReq ..) rfl

end

/-! ### Extraction into data registers -/

/-- With S = 0 an extracted field wraps to its width. -/
theorem extract_wrap {w : Nat} (hw : 0 < w) (sh : Nat) (z : Int) : extract false sh w z
    = ((BitVec.ofInt w (divEvenI z (2 ^ sh))).toInt, decide ((BitVec.ofInt w (divEvenI z (2 ^ sh))).toInt ≠ divEvenI z (2 ^ sh)), false) :=
  narrow_wrap hw w _

/-- What EXTV with S = 1 extracts of the four accumulators from `k` on. -/
def clampedLanes (c : Core) (k : Nat) : List (Int × Bool × Bool) := (List.range 4).map (fun i => extract true 16 16 (c.an (k + i)).toInt)

theorem clampedLanes_getD (c : Core) (k : Nat) {i : Nat} (hi : i < 4) (d : Int × Bool × Bool) :
    (clampedLanes c k).getD i d = narrow true 16 16 (divEvenI (c.an (k + i)).toInt 65536) := getD_map_range _ hi d

/-- A clamped lane never overflows. -/
theorem clampedLanes_mask (c : Core) (k : Nat) :
    (List.range 4).foldl (fun m i => m + 2 ^ i * b2n (((clampedLanes c k).getD i (0, false, false)).2.1)) 0 = 0 := by
  refine Decidable.byContradiction fun h => ?_
  obtain ⟨i, hi, hov⟩ := (laneMask_ne_zero fun i => ((clampedLanes c k).getD i (0, false, false)).2.1).mp h
  rw [clampedLanes_getD c k hi, narrow_clamp_16] at hov
  exact Bool.false_ne_true hov

theorem clampedLanes_value (c : Core) (k : Nat) {i : Nat} (hi : i < 4) :
    ((clampedLanes c k).map (fun r => BitVec.ofInt 16 r.1)).getD i 0
      = BitVec.ofInt 16 (clampI (-32768) 32767 (divEvenI (c.an (k + i)).toInt 65536)) := by
  rw [clampedLanes, List.map_map, getD_map_range _ hi]
  exact congrArg (fun r : Int × Bool × Bool => BitVec.ofInt 16 r.1) (narrow_clamp_16 _)

section
variable {a : AccArgs} {s : State} (hr : ready s a.core .any = true) (had : a.ad = 0) (himm : a.imm = 0)
include hr had himm

theorem execTExt_wrap (hs : a.s = false) (ht : (core s a.core).trapv = false) :
    let z := divEvenI (core s a.core |>.an a.as_.toNat).toInt 65536
    let v := BitVec.ofInt 16 z
    execTExt a s = .next (settled s (retired a.core 0
      ((((core s a.core).setD a.dr.toNat v).setZN (v == 0) v.msb).setV (decide (v.toInt ≠ z)) false) s)) := by
  have hu : accBad a { s := true, as_ := true, dr := 4 } (a.imm == 0) = false := by
    simp [accBad, had, himm, a.dr.isLt]
  refine acc_retires hr hu ?_ (by simp) rfl
  dsimp only
  rw [hs, extract_wrap (by omega)]
  dsimp only
  rw [ovf_eq_none (.inl ht), toInt_beq_zero, ← BitVec.msb_eq_toInt, BitVec.ofInt_toInt]
  rfl

theorem execTExtw_wrap (hs : a.s = false) (ht : (core s a.core).trapv = false) (has : a.as_.toNat % 2 = 0) (hdr : a.dr.toNat < 8) :
    let z := divEvenI ((core s a.core).wideA (a.as_.toNat / 2)).toInt (2 ^ 32)
    let v := BitVec.ofInt 32 z
    execTExtw a s = .next (settled s (retired a.core 0
      ((((core s a.core).setPair a.dr.toNat v).setZN (v == 0) v.msb).setV (decide (v.toInt ≠ z)) false) s)) := by
  have hu : accBad a { s := true, as_ := true, dr := 3 } (a.imm == 0) = false := by
    simp [accBad, had, himm, hdr]
  refine acc_retires hr hu ?_ (by simp) (by rw [has]; rfl)
  dsimp only
  rw [hs, extract_wrap (by omega)]
  generalize divEvenI ((core s a.core).wideA (a.as_.toNat / 2)).toInt (2 ^ 32) = z
  dsimp only
  rw [ovf_eq_none (.inl ht), toInt_beq_zero, ← BitVec.msb_eq_toInt, BitVec.ofInt_toInt]

theorem execTExtv_clamp (hs : a.s = true) (has : a.as_ = 0 ∨ a.as_ = 4) (hdr : a.dr.toNat < 4) :
    ∃ t, execTExtv a s = .next t ∧ ∀ i, i < 4 → (core t a.core).dn (4 * a.dr.toNat + i)
      = BitVec.ofInt 16 (clampI (-32768) 32767 (divEvenI ((core s a.core).an (a.as_.toNat + i)).toInt 65536)) := by
  have hu : accBad a { s := true, as_ := true, dr := 2 } (a.imm == 0) = false := by
    simp [accBad, had, himm, hdr]
  have hextra : (a.as_ != 0 && a.as_ != 4) = false := by rcases has with h | h <;> rw [h] <;> rfl
  refine ⟨_, acc_retires hr hu (c := ((core s a.core).setLanes a.dr.toNat ((clampedLanes (core s a.core) a.as_.toNat).map
    (fun r => BitVec.ofInt 16 r.1))).setV false ((clampedLanes (core s a.core) a.as_.toNat).any (·.2.2))) ?_ (by simp) hextra, fun i hi => ?_⟩
  · dsimp only
    rw [hs, ← clampedLanes, clampedLanes_mask, ovf_eq_none (.inr rfl)]
    rfl
  · rw [core_settled, core_retired_dn, setV_dn, dn_setLanes_lane _ _ hdr hi, clampedLanes_value _ _ hi]

end

/-! ### Moves of a whole accumulator -/

/-- Accumulators cleared from `k` on, the others as before. -/
theorem an_clear (c : Core) {k n i : Nat} (hk : k + n ≤ 8) :
    ((List.range n).foldl (fun c i => c.setA (k + i) 0) c).an i = if k ≤ i ∧ i < k + n then 0 else c.an i := by
  induction n with
  | zero => rw [if_neg (by omega)]; rfl
  | succ n ih =>
    rw [List.range_succ, List.foldl_append, List.foldl_cons, List.foldl_nil, an_setA, ih (by omega)]
    by_cases hi : i = k + n
    · rw [if_pos ⟨hi, by omega⟩, if_pos (by omega)]
    · rw [if_neg (fun h => hi h.1)]
      by_cases hin : k ≤ i ∧ i < k + n
      · rw [if_pos hin, if_pos (by omega)]
      · rw [if_neg hin, if_neg (by omega)]

/-- The low 32 bits and the guard of an accumulator, moved to data registers and back, are the accumulator. -/
theorem acc_pieces (A : BitVec 40) :
    (((A.extractLsb' 32 8).signExtend 16).extractLsb' 0 8 : BitVec 8) ++ (((A.setWidth 32).signExtend 40).extractLsb' 0 32 : BitVec 32) = A := by
  have hhigh : (((A.extractLsb' 32 8).signExtend 16).extractLsb' 0 8 : BitVec 8) = A.extractLsb' 32 8 := by
    ext i hi
    simpa [BitVec.getLsbD_signExtend, hi] using fun _ => Nat.lt_trans hi (by omega)
  have hlow : (((A.setWidth 32).signExtend 40).extractLsb' 0 32 : BitVec 32) = A.extractLsb' 0 32 := by
    ext i hi
    simpa [BitVec.getLsbD_signExtend, hi] using fun _ => Nat.lt_trans hi (by omega)
  rw [hhigh, hlow]
  exact BitVec.extractLsb'_append_extractLsb'

/-- Settles O30: one rule for exact results in an accumulator, convergent rounding once for every divisor, and the moves field by field. -/
theorem accumulatorFunctions : Obligations.AccumulatorFunctions := by
  unfold Obligations.AccumulatorFunctions
  refine ⟨⟨fun a s hr => ?exact, fun z d => divEvenI_nearest z⟩, fun a s hr hs himm => ?move, acc_pieces⟩
  case exact =>
    refine ⟨fun hdr himm => ?sums, fun hdr himm => ?shift, fun had himm => execTExt_wrap hr had himm, fun had himm => execTExtw_wrap hr had himm,
      fun had himm => execTExtv_clamp hr had himm⟩
    case sums =>
      have hu : accBad a { s := true, ad := true, as_ := true } (a.imm == 0) = false := by simp [accBad, hdr, himm]
      exact ⟨acc_overflow hr hu rfl, acc_overflow hr hu rfl, acc_overflow hr hu rfl, acc_overflow hr hu rfl⟩
    case shift =>
      have hu : accBad a { s := true, ad := true, as_ := true } (decide (a.imm.toNat < 64)) = false := by simp [accBad, hdr, himm]
      exact acc_overflow hr hu (by simp [srcA])
  case move =>
    have hword {u : AccUse} (hu : accBad a u true = false) : accBad a u (a.imm == 0) = false := by rwa [himm]
    refine ⟨fun has hdr => ?aclr, fun has hdr had => ?aclrv, fun hdr => ?amov, fun had hdr => ?mval, fun had => ?mvag, fun has hdr => ?mvda,
      fun has => ?mvga, fun has => ?deph⟩
    case aclr =>
      have hu : accBad a { ad := true } true = false := by simp [accBad, hs, has, hdr]
      exact acc_moves hr (hword hu) (fun c => c.setA a.ad.toNat 0) (setA_haltReq ..) rfl
    case aclrv =>
      have hu : accBad a { ad := true } true = false := by simp [accBad, hs, has, hdr]
      have hextra : (a.ad != 0 && a.ad != 4) = false := by rcases had with h | h <;> rw [h] <;> rfl
      have hlast : a.ad.toNat + 4 ≤ 8 := by rcases had with h | h <;> rw [h] <;> decide
      refine ⟨_, acc_moves hr (hword hu) (fun c => (List.range 4).foldl (fun c i => c.setA (a.ad.toNat + i) 0) c)
        (foldl_keeps Core.haltReq (fun c i => setA_haltReq c ..) _ _) hextra, fun i _ => ?_⟩
      rw [core_settled, core_retired_an, an_clear _ hlast]
    case amov =>
      have hu : accBad a { ad := true, as_ := true } true = false := by simp [accBad, hs, hdr]
      exact acc_moves hr (hword hu) (fun c => c.setA a.ad.toNat (c.an a.as_.toNat)) (setA_haltReq ..) rfl
    case mval =>
      have hu : accBad a { as_ := true, dr := 3 } true = false := by simp [accBad, hs, had, hdr]
      exact acc_moves hr (hword hu) (fun c => c.setPair a.dr.toNat ((c.an a.as_.toNat).setWidth 32)) (setPair_haltReq ..) rfl
    case mvag =>
      have hu : accBad a { as_ := true, dr := 4 } true = false := by simp [accBad, hs, had, a.dr.isLt]
      exact acc_moves hr (hword hu) (fun c => c.setD a.dr.toNat (((c.an a.as_.toNat).extractLsb' 32 8).signExtend 16)) (setD_haltReq ..) rfl
    case mvda =>
      have hu : accBad a { ad := true, dr := 3 } true = false := by simp [accBad, hs, has, hdr]
      exact acc_moves hr (hword hu) (fun c => c.setA a.ad.toNat ((c.pair a.dr.toNat).signExtend 40)) (setA_haltReq ..) rfl
    case mvga =>
      have hu : accBad a { ad := true, dr := 4 } true = false := by simp [accBad, hs, has, a.dr.isLt]
      exact acc_moves hr (hword hu)
        (fun c => c.setA a.ad.toNat ((c.dn a.dr.toNat).extractLsb' 0 8 ++ (c.an a.ad.toNat).extractLsb' 0 32)) (setA_haltReq ..) rfl
    case deph =>
      have hu : accBad a { ad := true, dr := 4 } true = false := by simp [accBad, hs, has, a.dr.isLt]
      exact acc_moves hr (hword hu) (fun c => c.setA a.ad.toNat ((c.dn a.dr.toNat).signExtend 24 ++ (0 : BitVec 16))) (setA_haltReq ..) rfl

end Sys2Proof.Machine
end

section
/-! The failure of a core whose tasks move to another one (09 R207), and the cluster whose memory they reach from there (log entry 43). -/
namespace Sys2Proof.Machine

/-- A state in which core `d` counts as failed. -/
def coreLost (s : State) (d : Nat) : State := { s with tarn := { s.tarn with failed := d :: s.tarn.failed } }

/-- With its spare in service, a core that has tasks and fails gives them to the first free core, its own cluster being asked first. -/
theorem coreFail_moves {s : State} {cl k e : Nat} (hcl : cl < 16) (hk : k < 16) (hserves : s.tarn.failed.contains (17 * cl + k) = false)
    (hspare : tarnSpareLeft s cl = false) (htasks : tasksOn s cl k ≠ [])
    (hfirst : (range (17 * cl) (17 * cl + 17) ++ List.range 272).find? (coreFree (coreLost s (17 * cl + k))) = some e) :
    coreFail cl k s = evD (moveTasks (17 * cl + k) e (coreLost s (17 * cl + k))) 0x705 (32 * cl + k) 0 0 := by
  have hplace : ¬ (16 ≤ cl ∨ 16 ≤ k ∨ s.tarn.failed.contains (17 * cl + k) = true) := by
    simp only [hserves, Bool.false_eq_true, or_false]; omega
  have htasks' : (tasksOn (coreLost s (17 * cl + k)) cl k).isEmpty = false := List.isEmpty_eq_false_iff.mpr htasks
  unfold coreLost at hfirst htasks' ⊢
  simp only [coreFail, if_neg hplace, hspare, htasks', Bool.false_eq_true, if_false, hfirst]

/-- What a move to core `d` does to the table of homes. -/
theorem moveTasks_homes (s : State) (lost d : Nat) : (moveTasks lost d s).tarn.homes =
    if homeOf s lost = d / 17 then tdel s.tarn.homes d else tset s.tarn.homes d (homeOf s lost) := rfl

/-- The core `d` that takes the tasks of a failed one: where their memory is that of its own cluster its entry in `homes` is deleted,
else the entry names the cluster. -/
theorem homeOf_moveTasks (s : State) (lost d : Nat) :
    homeOf (moveTasks lost d s) d = if homeOf s lost = d / 17 then (tget (tdel s.tarn.homes d) d).getD (d / 17) else homeOf s lost := by
  rw [homeOf, moveTasks_homes]
  split
  · rfl
  · rw [tget_tset_self, Option.getD_some]

/-- With one entry for a core at most in `homes`, the tasks reach the same cluster memory from where they have moved to. -/
theorem homeOf_moveTasks_of_rising {s : State} (h : Rising s.tarn.homes) (lost d : Nat) :
    homeOf (moveTasks lost d s) d = homeOf s lost := by
  rw [homeOf_moveTasks, tget_tdel_self d h]
  split
  · next hhome => exact hhome.symm
  · rfl

/-- Core 0 has a task, the spare of its cluster serves for core 3, and `homes` has two entries for core 1, which is free. -/
def twiceHomed : State :=
  { State.reset with
    clk := { State.reset.clk with running := true }
    tarn := { spares := [(0, 3)], homes := [(1, 1), (1, 2)] }
    tasks := [(0, { (default : Task) with cluster := 0, core := 0 })] }

/-- What is left of it when core 0 has failed and its task has moved to core 1. -/
def twiceHomedMoved : State := moveTasks 0 1 (coreLost (begun twiceHomed) 0)

theorem coreFail_twiceHomed : coreFail 0 0 (begun twiceHomed) = evD twiceHomedMoved 0x705 0 0 0 :=
  coreFail_moves (by decide) (by decide) (by decide) (by decide) (by decide) (by decide)

theorem twiceHomedMoved_place : (tget twiceHomedMoved.tasks 0).map (fun w => (w.cluster, w.core)) = some (0, 1) := rfl

/-- The move deletes one of the two entries of core 1, and the other sends the task to the memory of cluster 2. -/
theorem homeOf_twiceHomedMoved : homeOf twiceHomedMoved 1 = 2 := by
  rw [twiceHomedMoved, homeOf_moveTasks]; decide

/-- Refutes O37 at `twiceHomed`, in the clause on a core that fails without a spare. The clause says of every state that the tasks keep the
cluster memory they reach; a state whose `homes` has two entries for the core that takes them loses one in the move and goes by the other.
The clause wants the table's canonical form, as `homeOf_moveTasks_of_rising` has it. -/
theorem not_taskRunsSignalsAndSpares : ¬ Obligations.TaskRunsSignalsAndSpares := by
  unfold Obligations.TaskRunsSignalsAndSpares
  intro h
  obtain ⟨-, -, -, -, -, hspares⟩ := h twiceHomed
  obtain ⟨-, hfails⟩ := hspares rfl 0 0
  obtain ⟨-, hmoves⟩ := hfails (by decide) (by decide) (by decide)
  obtain ⟨hfree, -⟩ := hmoves (by decide) (by decide)
  obtain ⟨t, e, hexec, -, -, -, -, hhome, htask⟩ := hfree ⟨1, by decide, by decide, by decide⟩
  have hstep : exec (.tarnCoreFail 0 0) twiceHomed = .next (settled twiceHomed (coreFail 0 0 (begun twiceHomed))) := runMere_of_running rfl _
  obtain rfl : settled twiceHomed (coreFail 0 0 (begun twiceHomed)) = t := by
    rw [hstep] at hexec; exact Host.Outcome.next.inj hexec
  have hplace : (tget twiceHomedMoved.tasks 0).map (fun w => (w.cluster, w.core)) = some (e / 17, e % 17) := by
    have hmoved := htask 0 _ rfl rfl rfl
    rw [settled_tasks, coreFail_twiceHomed] at hmoved
    exact congrArg _ hmoved
  obtain rfl : e = 1 := by
    rw [twiceHomedMoved_place, Option.some.injEq, Prod.mk.injEq] at hplace
    omega
  have hsame : homeOf twiceHomedMoved 1 = 0 := by
    rw [homeOf, settled_tarn, coreFail_twiceHomed] at hhome
    exact hhome
  exact absurd (homeOf_twiceHomedMoved.symm.trans hsame) (by decide)

end Sys2Proof.Machine
end

section
/-! Network ports, counting and receiving (10 R216, R218 to R220, R228): what advancing a counter and setting an interrupt bit leave of a port
as it was, and the receive path. -/
namespace Sys2Proof.Machine

/-! ### One port changed -/

@[simp] theorem netPort_modNet_self (s : State) (p : Nat) (f : NetPort → NetPort) : netPort (modNet s p f) p = f (netPort s p) :=
  tgetD_tset_self _ _ _ _

theorem netPort_congr {s u : State} (h : u.netPorts = s.netPorts) (p : Nat) : netPort u p = netPort s p := by
  rw [netPort, h, netPort]

@[simp] theorem netPort_settled (s u : State) (p : Nat) : netPort (settled s u) p = netPort u p := netPort_congr (settled_netPorts s u) p

/-- The state without what the traffic of port `p` may change: of the port what `g` keeps, and neither streams, time bases, free values,
events nor what leaves the device. -/
def State.offPort (g : NetPort → NetPort) (p : Nat) (s : State) : State :=
  { s with netPorts := tset s.netPorts p (g (netPort s p)), streams := [], tbs := [], free := 0, evs := [], out := [] }

section
variable {g : NetPort → NetPort} {p : Nat} {s u : State}

theorem modNet_offPort {f : NetPort → NetPort} (h : g (f (netPort s p)) = g (netPort s p)) : (modNet s p f).offPort g p = s.offPort g p := by
  rw [State.offPort, netPort_modNet_self, h]
  simp [State.offPort, modNet]

theorem port_of_offPort (h : u.offPort g p = s.offPort g p) : g (netPort u p) = g (netPort s p) := by
  simpa [State.offPort] using congrArg (fun x : State => tgetD x.netPorts p {}) h

theorem netPort_ne_of_offPort (h : u.offPort g p = s.offPort g p) {q : Nat} (hq : q ≠ p) : netPort u q = netPort s q := by
  simpa [State.offPort, netPort, tgetD_tset_ne _ _ _ hq] using congrArg (fun x : State => tgetD x.netPorts q {}) h

theorem ctl_of_offPort (h : u.offPort g p = s.offPort g p) : u.ctl = s.ctl := (congrArg State.ctl h :)
theorem netGroups_of_offPort (h : u.offPort g p = s.offPort g p) : u.netGroups = s.netGroups := (congrArg State.netGroups h :)
theorem tsPorts_of_offPort (h : u.offPort g p = s.offPort g p) : u.tsPorts = s.tsPorts := (congrArg State.tsPorts h :)

@[simp] theorem emit_offPort (o : Out) : (emit s o).offPort g p = s.offPort g p := rfl
@[simp] theorem evD_offPort (typ obj status aux : Nat) : (evD s typ obj status aux).offPort g p = s.offPort g p := rfl
@[simp] theorem modStream_offPort (k : Nat) (f : Stream → Stream) : (modStream s k f).offPort g p = s.offPort g p := rfl
@[simp] theorem count_offPort (k i : Nat) : (count s k i).offPort g p = s.offPort g p := rfl

end

/-! ### Interrupt bits and counters (10 R228, 20 R376) -/

section
variable {g : NetPort → NetPort} (hbits : ∀ n x y, g { n with int := x, half := y } = g n)
include hbits

theorem netInt_offPort (s : State) (p b : Nat) : (netInt s p b).offPort g p = s.offPort g p := by
  have hset : (modNet s p (fun n => { n with int := setBit n.int b true })).offPort g p = s.offPort g p := modNet_offPort (hbits _ _ _)
  unfold netInt
  dsimp only
  split
  · rfl
  · split
    · rw [evD_offPort, hset]
    · exact hset

/-- A counter that `g` does not keep may advance. -/
theorem netCount_offPort {i : Nat} (hctr : ∀ n v, g { n with ctr := tset n.ctr i v } = g n) (s : State) (p k : Nat) :
    (netCount s p i k).offPort g p = s.offPort g p := by
  have hset : ∀ v, (modNet s p (fun n => { n with ctr := tset n.ctr i v })).offPort g p = s.offPort g p := fun v => modNet_offPort (hctr _ _)
  unfold netCount
  dsimp only
  split
  · rw [netInt_offPort hbits, modNet_offPort (hbits _ _ _), hset]
  · exact hset _

end

/-- The port without what counting changes. -/
def NetPort.offCount (n : NetPort) : NetPort := { n with ctr := [], int := 0, half := 0 }

section
variable (s : State) (p i k : Nat)

@[simp] theorem netInt_offCount (b : Nat) : (netInt s p b).offPort NetPort.offCount p = s.offPort NetPort.offCount p :=
  netInt_offPort (by intros; rfl) s p b

@[simp] theorem netCount_offCount : (netCount s p i k).offPort NetPort.offCount p = s.offPort NetPort.offCount p :=
  netCount_offPort (by intros; rfl) (by intros; rfl) s p k

theorem netPort_netInt (b : Nat) : (netPort (netInt s p b) p).offCount = (netPort s p).offCount := port_of_offPort (netInt_offCount s p b)
theorem netPort_netCount : (netPort (netCount s p i k) p).offCount = (netPort s p).offCount := port_of_offPort (netCount_offCount s p i k)

theorem netPort_netInt_eq (b : Nat) : netPort (netInt s p b) p =
    if bit (netPort s p).int b then netPort s p else { netPort s p with int := setBit (netPort s p).int b true } := by
  have hset := netPort_modNet_self s p (fun n => { n with int := setBit n.int b true })
  unfold netInt
  dsimp only
  split
  · rfl
  · split
    · exact hset
    · exact hset

theorem netPort_netInt_int (b : Nat) : bit (netPort (netInt s p b) p).int b = true := by
  rw [netPort_netInt_eq]
  split
  · assumption
  · simp [bit_setBit]

theorem netPort_netInt_ctr (b : Nat) : (netPort (netInt s p b) p).ctr = (netPort s p).ctr := by
  rw [netPort_netInt_eq]
  split <;> rfl

theorem netPort_netCount_ctr : (netPort (netCount s p i k) p).ctr = tset (netPort s p).ctr i (inc48 (tgetD (netPort s p).ctr i 0) k) := by
  unfold netCount
  dsimp only
  split
  · rw [netPort_netInt_ctr, netPort_modNet_self, netPort_modNet_self]
  · rw [netPort_modNet_self]

theorem ctr_netCount_self : tgetD (netPort (netCount s p i k) p).ctr i 0 = inc48 (tgetD (netPort s p).ctr i 0) k := by
  rw [netPort_netCount_ctr, tgetD_tset_self]

theorem ctr_netCount_ne {j : Nat} (h : j ≠ i) : tgetD (netPort (netCount s p i k) p).ctr j 0 = tgetD (netPort s p).ctr j 0 := by
  rw [netPort_netCount_ctr, tgetD_tset_ne _ _ _ h]

end

/-! ### Single fields and other ports -/

section
variable (s : State) (p i k : Nat)

@[simp] theorem netInt_held (b : Nat) : (netPort (netInt s p b) p).held = (netPort s p).held := (congrArg NetPort.held (netPort_netInt s p b) :)
@[simp] theorem netInt_wdMask (b : Nat) : (netPort (netInt s p b) p).wdMask = (netPort s p).wdMask := (congrArg NetPort.wdMask (netPort_netInt s p b) :)
@[simp] theorem netInt_queue (b : Nat) : (netPort (netInt s p b) p).queue = (netPort s p).queue := (congrArg NetPort.queue (netPort_netInt s p b) :)
@[simp] theorem netInt_link (b : Nat) : (netPort (netInt s p b) p).link = (netPort s p).link := (congrArg NetPort.link (netPort_netInt s p b) :)
@[simp] theorem netInt_adapting (b : Nat) : (netPort (netInt s p b) p).adapting = (netPort s p).adapting :=
  (congrArg NetPort.adapting (netPort_netInt s p b) :)
@[simp] theorem netInt_localFault (b : Nat) : (netPort (netInt s p b) p).localFault = (netPort s p).localFault :=
  (congrArg NetPort.localFault (netPort_netInt s p b) :)
@[simp] theorem netInt_remoteFault (b : Nat) : (netPort (netInt s p b) p).remoteFault = (netPort s p).remoteFault :=
  (congrArg NetPort.remoteFault (netPort_netInt s p b) :)
@[simp] theorem netInt_tsPorts (b : Nat) : (netInt s p b).tsPorts = s.tsPorts := tsPorts_of_offPort (netInt_offCount s p b)

@[simp] theorem netCount_held : (netPort (netCount s p i k) p).held = (netPort s p).held := (congrArg NetPort.held (netPort_netCount s p i k) :)
@[simp] theorem netCount_wdMask : (netPort (netCount s p i k) p).wdMask = (netPort s p).wdMask := (congrArg NetPort.wdMask (netPort_netCount s p i k) :)
@[simp] theorem netCount_queue : (netPort (netCount s p i k) p).queue = (netPort s p).queue := (congrArg NetPort.queue (netPort_netCount s p i k) :)
@[simp] theorem netCount_link : (netPort (netCount s p i k) p).link = (netPort s p).link := (congrArg NetPort.link (netPort_netCount s p i k) :)

variable {q : Nat} (hq : q ≠ p)
include hq

theorem netPort_modNet_ne (f : NetPort → NetPort) : netPort (modNet s p f) q = netPort s q := tgetD_tset_ne _ _ _ hq
theorem netPort_netInt_ne (b : Nat) : netPort (netInt s p b) q = netPort s q := netPort_ne_of_offPort (netInt_offCount s p b) hq
theorem netPort_netCount_ne : netPort (netCount s p i k) q = netPort s q := netPort_ne_of_offPort (netCount_offCount s p i k) hq

end

@[simp] theorem netPort_evD (s : State) (typ obj status aux p : Nat) : netPort (evD s typ obj status aux) p = netPort s p := rfl
@[simp] theorem netPort_begun (s : State) (p : Nat) : netPort (begun s) p = netPort s p := rfl

/-! ### The receive path (10 R216, R218 to R220, R228) -/

theorem fecCount_offCount (s : State) (p : Nat) (x : Nat × Nat × Nat) :
    (fecCount s p x).offPort NetPort.offCount p = s.offPort NetPort.offCount p := by
  unfold fecCount
  split
  · simp
  · rfl

/-- A good frame `b`, counted in octets, frames, by destination and by length. -/
def goodCounted (s : State) (p : Nat) (b : List Byte) : State :=
  netCount (netCount (netCount (netCount s p 0 (b.length + 4)) p 1 1) p (2 + dstKind b) 1) p (sizeClass (b.length + 4)) 1

theorem goodCounted_offCount (s : State) (p : Nat) (b : List Byte) :
    (goodCounted s p b).offPort NetPort.offCount p = s.offPort NetPort.offCount p := by
  simp [goodCounted]

theorem exec_netRxFrame {s : State} (hrun : s.clk.running = true) (p : Nat) (f : RxFrame) :
    exec (.netRxFrame p f) s = .next (settled s (netRx p f (begun s))) := runMere_of_running hrun _

section
variable {s d : State} {p : Nat} {f : RxFrame} (hd : inletDrain s f.taken = d)
include hd

theorem netRx_of_down (h : portExists d p = false ∨ (netPort d p).link = false) : netRx p f s = d := by
  simp only [netRx, hd]
  exact if_pos (by simpa using h)

theorem netRx_of_up (hex : portExists d p = true) (hlink : (netPort d p).link = true) :
    netRx p f s =
      if f.bytes.length + 4 < 64 then netCount (fecCount d p f.fec) p (if f.fcsOk then 6 else 7) 1
      else if (netPort d p).maxFrame < f.bytes.length + 4 then netCount (fecCount d p f.fec) p (if f.fcsOk then 8 else 9) 1
      else if f.fcsOk = false then netCount (fecCount d p f.fec) p 5 1
      else rxGood (goodCounted (fecCount d p f.fec) p f.bytes) p f.eighth (f.bytes.length + 4) f.bytes := by
  simp only [netRx, hd, hex, hlink, Bool.not_true, Bool.false_eq_true, or_self, if_false, Bool.not_eq_true', goodCounted]

end

/-- Whether the outer tag of a frame is the port's own (10 R218). -/
abbrev OwnTag (n : NetPort) (b : List Byte) : Prop :=
  fldBe b 12 2 = (if bit n.tagFlags 1 then 0x8100 else 0x88A8) ∧ fldBe b 14 2 % 4096 = n.outerTci % 4096

/-- A frame behind the tag step (10 R218). -/
abbrev untagged (n : NetPort) (b : List Byte) : List Byte := if bit n.tagFlags 0 then b.take 12 ++ b.drop 16 else b
/-- How many tags a frame may have behind the tag step. -/
abbrev tagsLeft (n : NetPort) : Nat := if bit n.tagFlags 0 then 1 else 2

theorem rxGood_of_macControl {s : State} {b : List Byte} (het : fldBe b 12 2 = 0x8808) (hpause : fldBe b 14 2 ≠ 1) (hpfc : fldBe b 14 2 ≠ 0x101)
    (p eighth len : Nat) : rxGood s p eighth len b = netCount s p 29 1 := by
  unfold rxGood
  dsimp only
  rw [if_pos het]
  split
  · exact absurd ‹_› hpause
  · exact absurd ‹_› hpfc
  · rfl

section
variable {s : State} {p : Nat} {n : NetPort} {b : List Byte} (hn : (netPort s p).offCount = n.offCount) (het : fldBe b 12 2 ≠ 0x8808) (eighth len : Nat)
include het

theorem rxGood_of_unready (hstage : s.ctl.stage ≠ 4) : rxGood s p eighth len b = netCount s p 20 1 := by
  unfold rxGood
  dsimp only
  rw [if_neg het, if_pos hstage]

include hn

theorem rxGood_of_foreignTag (hstage : s.ctl.stage = 4) (houter : bit n.tagFlags 0 = true) (htag : ¬ OwnTag n b) :
    rxGood s p eighth len b = netCount s p 21 1 := by
  have hflags : (netPort s p).tagFlags = n.tagFlags := (congrArg NetPort.tagFlags hn :)
  have htci : (netPort s p).outerTci = n.outerTci := (congrArg NetPort.outerTci hn :)
  unfold rxGood
  dsimp only
  rw [if_neg het, if_neg (by simp [hstage]), hflags, htci, if_pos]
  simpa only [houter, Bool.true_and, Bool.not_eq_true', Bool.and_eq_false_imp, beq_iff_eq, beq_eq_false_iff_ne, ne_eq, not_and] using htag

/-- A frame that passes the tag step is offered to the streams and then to the filters. -/
theorem rxGood_of_ownTag (hstage : s.ctl.stage = 4) (htag : bit n.tagFlags 0 = true → OwnTag n b) (hptp : isPtp (untagged n b) (tagsLeft n) = false) :
    rxGood s p eighth len b =
      (streamFrame s p p eighth (tagsLeft n) (untagged n b)).getD (toHost s p eighth len (tagsLeft n) (untagged n b)) := by
  have hflags : (netPort s p).tagFlags = n.tagFlags := (congrArg NetPort.tagFlags hn :)
  have htci : (netPort s p).outerTci = n.outerTci := (congrArg NetPort.outerTci hn :)
  unfold rxGood
  dsimp only
  rw [if_neg het, if_neg (by simp [hstage]), hflags, htci, if_neg, if_neg (by simpa using hptp)]
  · cases streamFrame s p p eighth (tagsLeft n) (untagged n b) <;> rfl
  · simpa using htag

end

theorem toHost_of_dropped {s : State} {p k i : Nat} {b w : List Byte} (hfilter : filterOf s p b = some (i, w)) (hdrop : bit (fld w 1 1) 2 = true)
    (hwake : (bit (fld w 1 1) 1 && macAsleep s p) = false) (eighth len : Nat) : toHost s p eighth len k b = netCount s p 23 1 := by
  simp only [toHost, hfilter, hwake, hdrop, Bool.false_eq_true, if_false, if_true]

/-- A frame that neither a filter nor Sundique takes, and that the port does not accept. -/
theorem toHost_of_unmatched {s : State} {p k : Nat} {n : NetPort} {b : List Byte} (hn : (netPort s p).offCount = n.offCount)
    (hfilter : filterOf s p b = none) (hown : sundiqueFrame s b k = false)
    (hrefused : n.defRing = 0xFFFFFFFF ∨ (b.take 6 ≠ n.mac ∧ (dstKind b = 2 → bit n.rxFlags 0 = false) ∧ (dstKind b = 1 → bit n.rxFlags 1 = false)
      ∧ bit n.rxFlags 2 = false)) (eighth len : Nat) : toHost s p eighth len k b = netCount s p 22 1 := by
  have hring : (netPort s p).defRing = n.defRing := (congrArg NetPort.defRing hn :)
  have hmac : (netPort s p).mac = n.mac := (congrArg NetPort.mac hn :)
  have hflags : (netPort s p).rxFlags = n.rxFlags := (congrArg NetPort.rxFlags hn :)
  simp only [toHost, hfilter, hown, Bool.false_eq_true, if_false]
  rw [hring, hmac, hflags, if_neg]
  rcases hrefused with h | ⟨hdst, hbc, hmc, hall⟩
  · simp [h]
  · simp only [hall, Bool.or_false, Bool.and_eq_true, Bool.or_eq_true, beq_iff_eq, not_and]
    rintro ((h | ⟨h, hflag⟩) | ⟨h, hflag⟩)
    · exact absurd h hdst
    · simp [hbc h] at hflag
    · simp [hmc h] at hflag

/-- Settles O38: up to the length and FCS steps a frame meets `netRx`, then `rxGood` on the state that has counted it, whose port differs in
nothing that a step reads. -/
theorem receivePathCountsByKind : Obligations.ReceivePathCountsByKind := by
  unfold Obligations.ReceivePathCountsByKind
  intro p f s hrun d n len a good fits outer mine b k past
  rw [exec_netRxFrame hrun]
  refine ⟨fun hdown => by rw [netRx_of_down rfl hdown], fun hex hlink => ?_⟩
  have hrx := netRx_of_up (f := f) (s := begun s) rfl hex hlink
  have hcounted : good.offPort NetPort.offCount p = d.offPort NetPort.offCount p :=
    (goodCounted_offCount a p f.bytes).trans (fecCount_offCount d p f.fec)
  have hn : (netPort good p).offCount = n.offCount := port_of_offPort hcounted
  have hstage : good.ctl.stage = d.ctl.stage := congrArg Ctl.stage (ctl_of_offPort hcounted)
  have hgood : fits → f.fcsOk = true → netRx p f (begun s) = rxGood good p f.eighth len f.bytes := by
    rintro ⟨hmin, hmax⟩ hfcs
    rw [hrx, if_neg (Nat.not_lt.mpr hmin), if_neg (Nat.not_lt.mpr hmax), if_neg (by simp [hfcs])]
    rfl
  have hpast : past → netRx p f (begun s) = (streamFrame good p p f.eighth k b).getD (toHost good p f.eighth len k b) := by
    rintro ⟨hfits, hfcs, het, hready, htag, hptp⟩
    rw [hgood hfits hfcs]
    exact rxGood_of_ownTag hn het _ _ (hstage.trans hready) htag hptp
  refine ⟨fun hshort => ?_, fun hmin hlong => ?_, fun ⟨hmin, hmax⟩ hfcs => ?_, fun hfits hfcs het hpause hpfc => ?_, fun hfits hfcs het hready => ?_,
    fun hfits hfcs het hready houter htag => ?_, fun u hp htake => ?_, fun i w hp hstream hfilter hdrop hwake => ?_,
    fun hp hstream hfilter hown hrefused => ?_⟩
  · rw [hrx, if_pos hshort]
  · rw [hrx, if_neg (Nat.not_lt.mpr hmin), if_pos hlong]
  · rw [hrx, if_neg (Nat.not_lt.mpr hmin), if_neg (Nat.not_lt.mpr hmax), if_pos hfcs]
  · rw [hgood hfits hfcs, rxGood_of_macControl het hpause hpfc]
  · rw [hgood hfits hfcs, rxGood_of_unready het _ _ (fun h => hready (hstage.symm.trans h))]
  · rw [hgood hfits hfcs, rxGood_of_foreignTag hn het _ _ (hstage.trans hready) houter htag]
  · rw [hpast hp, htake, Option.getD_some]
  · rw [hpast hp, hstream, Option.getD_none, toHost_of_dropped hfilter hdrop hwake]
  · rw [hpast hp, hstream, Option.getD_none, toHost_of_unmatched hn hfilter hown hrefused]

end Sys2Proof.Machine
end

section
/-! Network ports, sending and pause (10 R222 to R227): what releasing the frames of a port leaves as it was, flow control, and low-power idle. -/
namespace Sys2Proof.Machine

/-! ### What sending on a port leaves as it was (10 R222 to R224, 13 R278) -/

/-- The port without what sending changes: the frames that wait, the interrupt bits, and the counters below 47. -/
def NetPort.offSend (n : NetPort) : NetPort := { n with queue := [], int := 0, half := 0, ctr := n.ctr.filter (fun e => 47 ≤ e.1) }

theorem filter_tset {α : Type} {P : Nat → Bool} {k : Nat} (hk : P k = false) (v : α) (t : Tbl α) :
    (tset t k v).filter (fun e => P e.1) = t.filter (fun e => P e.1) := by
  induction t with
  | nil => simp [tset, hk]
  | cons e t ih =>
    obtain ⟨i, w⟩ := e
    unfold tset
    split
    · simp [hk]
    · split
      · rename_i hi; subst hi; simp [hk]
      · simp [List.filter_cons, ih]

theorem tget_filter {α : Type} {P : Nat → Bool} {k : Nat} (hk : P k = true) (t : Tbl α) : tget (t.filter (fun e => P e.1)) k = tget t k := by
  induction t with
  | nil => rfl
  | cons e t ih =>
    obtain ⟨i, w⟩ := e
    by_cases hi : i = k
    · subst hi; simp [hk, tget]
    · cases hP : P i <;> simp [hP, tget, hi, ih]

theorem ctr_of_offSend {n m : NetPort} (h : n.offSend = m.offSend) {i : Nat} (hi : 47 ≤ i) : tgetD n.ctr i 0 = tgetD m.ctr i 0 := by
  have hctr : n.ctr.filter (fun e => 47 ≤ e.1) = m.ctr.filter (fun e => 47 ≤ e.1) := congrArg NetPort.ctr h
  have hkept : decide (47 ≤ i) = true := by simpa using hi
  rw [tgetD, ← tget_filter (P := fun j => decide (47 ≤ j)) hkept n.ctr, hctr, tget_filter (P := fun j => decide (47 ≤ j)) hkept, tgetD]

theorem dstKind_le (b : List Byte) : dstKind b ≤ 2 := by
  unfold dstKind
  split
  · exact Nat.le_refl 2
  · split <;> omega

/-- The state without what sending on port `p` may change. -/
abbrev State.offSend (p : Nat) (s : State) : State := s.offPort NetPort.offSend p

section
variable (s : State) (p : Nat)

@[simp] theorem netInt_offSend (b : Nat) : (netInt s p b).offSend p = s.offSend p := netInt_offPort (by intros; rfl) s p b

theorem netCount_offSend {i : Nat} (hi : i < 47) (k : Nat) : (netCount s p i k).offSend p = s.offSend p :=
  netCount_offPort (by intros; rfl) (fun n v => by
    simp only [NetPort.offSend, filter_tset (P := fun j => decide (47 ≤ j)) (by simpa using hi)]) s p k

theorem netWire_wire_offSend (h : TxHeld) (b : List Byte) : (netWire.wire p h b s).offSend p = s.offSend p := by
  have hkind : 42 + dstKind (macFrame (netPort s p) b) < 47 := by have := dstKind_le (macFrame (netPort s p) b); omega
  simp [netWire.wire, netCount_offSend, hkind]

@[simp] theorem netWire_offSend (h : TxHeld) (b : List Byte) : (netWire s p h b).offSend p = s.offSend p := by
  unfold netWire
  split
  · exact netCount_offSend s p (by decide) 1
  · split
    · split
      · exact modStream_offPort _ _
      · exact (count_offPort _ _).trans (netWire_wire_offSend ..)
    · exact netWire_wire_offSend s p h b

theorem ptpStamp_offSend (k : Nat) (x : Int) (h : TxHeld) (t o : Nat) : (ptpStamp s k x h t o).2.1.offSend p = s.offSend p := by
  unfold ptpStamp
  dsimp only
  split
  · rfl
  · split <;> rfl

theorem ptpLeave_offSend (k : Nat) (h : TxHeld) : (ptpLeave s k h).2.1.offSend p = s.offSend p := by
  unfold ptpLeave
  split
  · rfl
  · exact ptpStamp_offSend ..

theorem netQueue_offSend {send : State → State} (hsend : (send s).offSend p = s.offSend p) (h : TxHeld) :
    (netQueue send s p h).offSend p = s.offSend p := by
  unfold netQueue
  dsimp only
  split
  · exact netCount_offSend s p (by decide) 1
  · split
    · rw [netInt_offSend, netCount_offSend s p (by decide)]
    · split
      · exact modNet_offPort rfl
      · exact hsend

theorem netSend_offSend (h : TxHeld) : (netSend s p h).offSend p = s.offSend p := by
  have hleft : (netWire (ptpLeave s p h).2.1 p h (ptpLeave s p h).1).offSend p = s.offSend p :=
    (netWire_offSend ..).trans (ptpLeave_offSend ..)
  unfold netSend
  split
  · exact netCount_offSend s p (by decide) 1
  · dsimp only
    split
    · exact (netQueue_offSend _ p (netWire_offSend ..) _).trans hleft
    · exact hleft

theorem netRelease_offSend : (netRelease s p).offSend p = s.offSend p :=
  (foldl_keeps (State.offSend p) (fun s h => netSend_offSend s p h) _ _).trans (modNet_offPort rfl)

/-! ### What releasing the frames of a port leaves of it -/

theorem netPort_netRelease : (netPort (netRelease s p) p).offSend = (netPort s p).offSend := port_of_offPort (netRelease_offSend s p)
theorem netPort_netRelease_ne {q : Nat} (h : q ≠ p) : netPort (netRelease s p) q = netPort s q := netPort_ne_of_offPort (netRelease_offSend s p) h
theorem ctr_netRelease {i : Nat} (h : 47 ≤ i) : tgetD (netPort (netRelease s p) p).ctr i 0 = tgetD (netPort s p).ctr i 0 :=
  ctr_of_offSend (netPort_netRelease s p) h

@[simp] theorem netRelease_netGroups : (netRelease s p).netGroups = s.netGroups := netGroups_of_offPort (netRelease_offSend s p)
@[simp] theorem netRelease_tsPorts : (netRelease s p).tsPorts = s.tsPorts := tsPorts_of_offPort (netRelease_offSend s p)

@[simp] theorem netRelease_held : (netPort (netRelease s p) p).held = (netPort s p).held := (congrArg NetPort.held (netPort_netRelease s p) :)
@[simp] theorem netRelease_wdMask : (netPort (netRelease s p) p).wdMask = (netPort s p).wdMask := (congrArg NetPort.wdMask (netPort_netRelease s p) :)
@[simp] theorem netRelease_txLpi : (netPort (netRelease s p) p).txLpi = (netPort s p).txLpi := (congrArg NetPort.txLpi (netPort_netRelease s p) :)
@[simp] theorem netRelease_link : (netPort (netRelease s p) p).link = (netPort s p).link := (congrArg NetPort.link (netPort_netRelease s p) :)
@[simp] theorem netRelease_localFault : (netPort (netRelease s p) p).localFault = (netPort s p).localFault :=
  (congrArg NetPort.localFault (netPort_netRelease s p) :)
@[simp] theorem netRelease_remoteFault : (netPort (netRelease s p) p).remoteFault = (netPort s p).remoteFault :=
  (congrArg NetPort.remoteFault (netPort_netRelease s p) :)

end

/-! ### Pause (10 R225, R226) -/

section
variable (s : State) (p m : Nat)

@[simp] theorem setHeld_held : (netPort (setHeld s p m) p).held = m := by
  unfold setHeld
  dsimp only
  split
  · simp
  · split <;> simp

@[simp] theorem setHeld_wdMask : (netPort (setHeld s p m) p).wdMask = (netPort s p).wdMask := by
  unfold setHeld
  dsimp only
  split
  · simp
  · split <;> simp

theorem ctr_setHeld {i : Nat} (hi : i ≠ 51) : tgetD (netPort (setHeld s p m) p).ctr i 0 = tgetD (netPort s p).ctr i 0 := by
  unfold setHeld
  dsimp only
  split
  · simp
  · split <;> simp [ctr_netCount_ne _ _ _ _ hi]

theorem netPort_setHeld_ne {q : Nat} (hq : q ≠ p) : netPort (setHeld s p m) q = netPort s q := by
  unfold setHeld
  dsimp only
  split
  · simp [netPort_modNet_ne _ _ hq]
  · split <;> simp [netPort_modNet_ne _ _ hq, netPort_netCount_ne _ _ _ _ hq]

end

section
variable {s : State} {p c : Nat} (hp : p < 8) (hc : c < 8) (hrun : s.clk.running = true)

section
include hp hc hrun

theorem exec_pauseHoldExpiry :
    exec (.pauseHoldExpiry p c) s = .next (settled s (netRelease (setHeld (begun s) p (setBit (netPort s p).held c false)) p)) :=
  (runMere_of_running hrun _).trans (by rw [if_pos ⟨hp, hc⟩]; rfl)

theorem exec_wdHoldExpiry :
    exec (.wdHoldExpiry p c) s = .next (settled s (modNet (begun s) p (fun n => { n with wdMask := setBit n.wdMask c false }))) :=
  (runMere_of_running hrun _).trans (by rw [if_pos ⟨hp, hc⟩]; rfl)

end

theorem exec_pauseWdExpiry (hrun : s.clk.running = true) (p c : Nat) :
    exec (.pauseWdExpiry p c) s = .next (settled s (pauseWd p c (begun s))) := runMere_of_running hrun _

/-- A port on which the watchdog has ended the hold of class `c`, before its frames leave. -/
def wdEnded (p c : Nat) (s : State) : State :=
  netCount (modNet (setHeld s p (setBit (netPort s p).held c false)) p (fun n => { n with wdMask := setBit n.wdMask c true })) p 50 1

theorem pauseWd_of_held (hp : p < 8) (hc : c < 8) (h : bit (netPort s p).held c = true) :
    pauseWd p c s = netRelease (netInt (evD (wdEnded p c s) 0x803 p 0 c) p 2) p := if_pos ⟨hp, hc, h⟩

theorem pauseWd_of_free (h : bit (netPort s p).held c = false) : pauseWd p c s = s := if_neg (by simp [classHeld, h])

end

/-- While the WD_HOLD bit of a class is set no flow-control frame changes its hold. -/
theorem pauseClasses_held {s : State} {p c : Nat} (h : bit (netPort s p).wdMask c = true) (m : Nat) (quanta : Nat → Nat) :
    bit (netPort (pauseClasses s p m quanta) p).held c = bit (netPort s p).held c := by
  rw [pauseClasses, netRelease_held, setHeld_held]
  refine foldl_keeps (fun x => bit x c) (fun x d => ?_) _ _
  split
  · rename_i hd
    have hne : c ≠ d := fun he => by simp [← he, h] at hd
    simp only [bit_setBit, if_neg hne]
  · rfl

/-! ### Low-power idle (10 R227) -/

theorem exec_lpiIdleExpiry {s : State} (hrun : s.clk.running = true) (p : Nat) :
    exec (.lpiIdleExpiry p) s = .next (settled s (lpiIdle p (begun s))) := runMere_of_running hrun _
theorem exec_lpiWakeTimeExpiry {s : State} (hrun : s.clk.running = true) (p : Nat) :
    exec (.lpiWakeTimeExpiry p) s = .next (settled s (endLpi (begun s) p)) := runMere_of_running hrun _
theorem exec_receiveLpiChange {s : State} (hrun : s.clk.running = true) (p : Nat) (on : Bool) :
    exec (.receiveLpiChange p on) s = .next (settled s (receiveLpi p on (begun s))) := runMere_of_running hrun _

/-- Port `p` may assert transmit LPI. -/
abbrev MayIdle (s : State) (p : Nat) : Prop :=
  lpiPort s p = true ∧ (netPort s p).lpiEn = 1 ∧ (netPort s p).link = true ∧ (netPort s p).txLpi = false ∧ (netPort s p).queue = []
    ∧ portTxLegs s p = false

section
variable {s : State} {p : Nat}

theorem lpiIdle_of_may (h : MayIdle s p) :
    lpiIdle p s = emit (netCount (modNet s p (fun n => { n with txLpi := true })) p 52 1) (.linkSignal p 4) := if_pos (by simpa using h)

theorem lpiIdle_of_not_may (h : ¬ MayIdle s p) : lpiIdle p s = s := if_neg (by simpa using h)

theorem endLpi_of_idle (h : (netPort s p).txLpi = true) : endLpi s p = netRelease (modNet s p (fun n => { n with txLpi := false })) p := if_pos h

/-- The change of the partner's LPI, with an entry counted. -/
theorem receiveLpi_of_port (hp : p < 8) (h : lpiPort s p = true) (on : Bool) :
    receiveLpi p on s = modNet (if on && !(netPort s p).rxLpi then netCount s p 28 1 else s) p (fun n => { n with rxLpi := on }) := if_pos ⟨hp, h⟩

end

/-- Settles O39: a release of frames keeps the fields and counters the statement speaks of, so each event is read off its own change of the
port. -/
theorem pauseAndLowPowerIdle : Obligations.PauseAndLowPowerIdle := by
  unfold Obligations.PauseAndLowPowerIdle
  refine ⟨⟨fun p c s hp hc hrun => ⟨?hold, ?wdHold, ?wdHeld, ?wdFree⟩, fun p m c quanta s h => pauseClasses_held h m quanta⟩,
    fun p s hrun => ?lpi⟩
  case hold =>
    refine ⟨_, exec_pauseHoldExpiry hp hc hrun, ?_, ?_, fun q hq => ?_⟩
    · simp [bit_setBit]
    · simp
    · rw [netPort_settled, netPort_netRelease_ne _ _ hq, netPort_setHeld_ne _ _ _ hq, netPort_begun]
  case wdHold => exact exec_wdHoldExpiry hp hc hrun
  case wdHeld =>
    intro hheld
    have hexec := exec_pauseWdExpiry hrun p c
    rw [pauseWd_of_held (s := begun s) hp hc hheld] at hexec
    refine ⟨_, hexec, ?_, ?_, ?_, fun q hq => ?_⟩
    · simp [wdEnded, bit_setBit]
    · simp [wdEnded, bit_setBit]
    · rw [netPort_settled, ctr_netRelease _ _ (by decide), netPort_netInt_ctr, netPort_evD, wdEnded, ctr_netCount_self, netPort_modNet_self]
      simp only
      rw [ctr_setHeld _ _ _ (by decide), netPort_begun]
    · rw [netPort_settled, netPort_netRelease_ne _ _ hq, netPort_netInt_ne _ _ hq, netPort_evD, wdEnded, netPort_netCount_ne _ _ _ _ hq,
        netPort_modNet_ne _ _ hq, netPort_setHeld_ne _ _ _ hq, netPort_begun]
  case wdFree =>
    intro hfree
    rw [exec_pauseWdExpiry hrun, pauseWd_of_free (s := begun s) hfree]
  case lpi =>
    intro n may
    refine ⟨?idle, ?busy, ?woken, ?partner⟩
    case idle =>
      intro hmay
      rw [exec_lpiIdleExpiry hrun, lpiIdle_of_may (s := begun s) hmay]
      rfl
    case busy =>
      intro hnot
      rw [exec_lpiIdleExpiry hrun, lpiIdle_of_not_may (s := begun s) hnot]
    case woken =>
      intro hidle
      have hexec := exec_lpiWakeTimeExpiry hrun p
      rw [endLpi_of_idle (s := begun s) hidle] at hexec
      refine ⟨_, hexec, by simp, fun q hq => ?_⟩
      rw [netPort_settled, netPort_netRelease_ne _ _ hq, netPort_modNet_ne _ _ hq, netPort_begun]
    case partner =>
      intro hp hport on
      have hexec := exec_receiveLpiChange hrun p on
      rw [receiveLpi_of_port (s := begun s) hp hport] at hexec
      refine ⟨_, hexec, by simp, fun hon hoff => ?_, fun q hq => ?_⟩
      · rw [netPort_settled, netPort_modNet_self, if_pos (by rw [hon, netPort_begun]; simpa using hoff)]
        exact ctr_netCount_self ..
      · rw [netPort_settled, netPort_modNet_ne _ _ hq, apply_ite (fun u : State => netPort u q), netPort_netCount_ne _ _ _ _ hq, ite_self, netPort_begun]

end Sys2Proof.Machine
end

section
/-! Network ports, links (10 R211 to R215, 13 R281): changes of link state, mode changes, calibration and adaptation. -/
namespace Sys2Proof.Machine

/-! ### Weir requests and completions leave ports and groups alone -/

@[simp] theorem askWeir_netPorts (s : State) (c n : Nat) (w : WeirWhat) : (askWeir s c n w).netPorts = s.netPorts := by
  unfold askWeir; split <;> rfl
@[simp] theorem askWeir_netGroups (s : State) (c n : Nat) (w : WeirWhat) : (askWeir s c n w).netGroups = s.netGroups := by
  unfold askWeir; split <;> rfl

@[simp] theorem netPort_askAdapt (s : State) (p q : Nat) : netPort (askAdapt s p) q = netPort s q :=
  netPort_congr (foldl_keeps State.netPorts (fun s g => askWeir_netPorts s 2 2 (.serdes g)) _ s) q

@[simp] theorem finish_netGroups (s : State) (p : PendCmd) (status aux : Nat) : (finish s p status aux).netGroups = s.netGroups := by
  unfold finish complete laneOut
  dsimp only
  split
  · rfl
  · split
    · split <;> rfl
    · rfl

theorem evD_tsPorts (s : State) (typ obj status aux : Nat) : (evD s typ obj status aux).tsPorts = s.tsPorts := rfl

/-! ### Links (10 R212 to R214, 13 R281) -/

theorem exec_netLinkChange (p : Nat) (up lf rf : Bool) (s : State) :
    exec (.netLinkChange p up lf rf) s = .next (settled s (linkChange p up lf rf (begun s))) := rfl

/-- The faults the MAC of port `p` sees, taken and answered. -/
def faultsTaken (p : Nat) (lf rf : Bool) (s : State) : State :=
  let s := modNet s p (fun n => { n with localFault := lf, remoteFault := rf })
  if s.dev.safe then s else if lf then emit s (.linkSignal p 1) else if rf then emit s (.linkSignal p 2) else s

/-- The answer to a fault is all that leaves. -/
theorem faultsTaken_eq (p : Nat) (lf rf : Bool) (s : State) :
    ∃ o, faultsTaken p lf rf s = { modNet s p (fun n => { n with localFault := lf, remoteFault := rf }) with out := o } := by
  unfold faultsTaken
  dsimp only
  split
  · exact ⟨_, rfl⟩
  · split
    · exact ⟨_, rfl⟩
    · split <;> exact ⟨_, rfl⟩

section
variable (s : State) (p : Nat) (lf rf : Bool)

@[simp] theorem netPort_faultsTaken : netPort (faultsTaken p lf rf s) p = { netPort s p with localFault := lf, remoteFault := rf } := by
  obtain ⟨o, ho⟩ := faultsTaken_eq p lf rf s
  rw [ho]
  exact netPort_modNet_self s p (fun n => { n with localFault := lf, remoteFault := rf })

theorem netPort_faultsTaken_ne {q : Nat} (hq : q ≠ p) : netPort (faultsTaken p lf rf s) q = netPort s q := by
  obtain ⟨o, ho⟩ := faultsTaken_eq p lf rf s
  rw [ho]
  exact netPort_modNet_ne s p hq (fun n => { n with localFault := lf, remoteFault := rf })

@[simp] theorem faultsTaken_netGroups : (faultsTaken p lf rf s).netGroups = s.netGroups := by
  obtain ⟨o, ho⟩ := faultsTaken_eq p lf rf s
  rw [ho]; rfl
@[simp] theorem faultsTaken_dev : (faultsTaken p lf rf s).dev = s.dev := by
  obtain ⟨o, ho⟩ := faultsTaken_eq p lf rf s
  rw [ho]; rfl
@[simp] theorem faultsTaken_clk : (faultsTaken p lf rf s).clk = s.clk := by
  obtain ⟨o, ho⟩ := faultsTaken_eq p lf rf s
  rw [ho]; rfl

/-- The corrections of the mode of port `p`, with the deskew `d` on both. -/
def corrected (d : Nat) : State :=
  let (a, b) := netCorr (groupMode s (p / 4)) (tgetD s.netGroups (p / 4) {}).fec
  { s with tsPorts := tset s.tsPorts p { tgetD s.tsPorts p {} with corrIn := a + d, corrOut := b + d } }

/-- A multi-lane mode draws its deskew, the others have none. -/
theorem linkCorr_eq : ∃ d n, d < 2 ^ 20 ∧ (3 < groupMode s (p / 4) → d = 0) ∧ linkCorr s p = corrected { s with free := n } p d := by
  by_cases hmode : (tgetD s.netGroups (p / 4) {}).mode ≤ 3
  · refine ⟨(drawBelow s (2 ^ 20)).1, s.free + 1, Nat.mod_lt _ (by decide), fun h => absurd hmode (Nat.not_le.mpr h), ?_⟩
    unfold linkCorr
    dsimp only
    rw [if_pos hmode]
    rfl
  · refine ⟨0, s.free, by decide, fun _ => rfl, ?_⟩
    unfold linkCorr
    dsimp only
    rw [if_neg hmode]
    rfl

end

section
variable (s : State) (p d : Nat)

@[simp] theorem netPort_corrected (n q : Nat) : netPort (corrected { s with free := n } p d) q = netPort s q := rfl

theorem corrected_corrIn :
    (tgetD (corrected s p d).tsPorts p {}).corrIn = (netCorr (groupMode s (p / 4)) (tgetD s.netGroups (p / 4) {}).fec).1 + d := by
  simp [corrected]

theorem corrected_corrOut :
    (tgetD (corrected s p d).tsPorts p {}).corrOut = (netCorr (groupMode s (p / 4)) (tgetD s.netGroups (p / 4) {}).fec).2 + d := by
  simp [corrected]

end

/-- Port `p` with its faults taken and its link up. -/
def linked (p : Nat) (lf rf : Bool) (s : State) : State := modNet (faultsTaken p lf rf s) p (fun n => { n with link := true })

section
variable (s : State) (p : Nat) (lf rf : Bool)

theorem netPort_linked : netPort (linked p lf rf s) p = { netPort s p with localFault := lf, remoteFault := rf, link := true } := by
  rw [linked, netPort_modNet_self, netPort_faultsTaken]

theorem netPort_linked_ne {q : Nat} (hq : q ≠ p) : netPort (linked p lf rf s) q = netPort s q := by
  rw [linked, netPort_modNet_ne _ _ hq, netPort_faultsTaken_ne _ _ _ _ hq]

theorem linked_netGroups : (linked p lf rf s).netGroups = s.netGroups := faultsTaken_netGroups s p lf rf

end

theorem calibrating_congr {s u : State} (h : u.netGroups = s.netGroups) (p : Nat) : calibrating u p = calibrating s p := by
  unfold calibrating groupMode
  rw [h]

section
variable {s : State} {p : Nat}

theorem linkChange_up (hex : portExists s p = true) (hdown : (netPort s p).link = false) (hcal : calibrating s p = false)
    (hsafe : s.dev.safe = false) (hsds : bit s.clk.sds (p / 4) = true) (lf rf : Bool) :
    linkChange p true lf rf s =
      netRelease (evD (netInt (linkCorr (linked p lf rf s) p) p 0) 0x801 p 0 1) p := by
  have hcal' : calibrating (faultsTaken p lf rf s) p = false :=
    (calibrating_congr (faultsTaken_netGroups ..) p).trans hcal
  have hstays : ¬ ((netPort (faultsTaken p lf rf s) p).link = true ∨ calibrating (faultsTaken p lf rf s) p = true ∨
      (faultsTaken p lf rf s).dev.safe = true ∨ (!bit (faultsTaken p lf rf s).clk.sds (p / 4)) = true) := by
    simp [hdown, hcal', hsafe, hsds]
  unfold linkChange
  rw [if_pos hex]
  exact if_neg hstays

theorem linkChange_down (hex : portExists s p = true) (hup : (netPort s p).link = true) (lf rf : Bool) :
    linkChange p false lf rf s = askAdapt (linkDrop (faultsTaken p lf rf s) p) p := by
  have hlink : (netPort (faultsTaken p lf rf s) p).link = true := by rw [netPort_faultsTaken]; exact hup
  unfold linkChange
  rw [if_pos hex]
  exact if_pos hlink

/-- A port whose link goes down, with its loss and the frames dropped not yet counted. -/
def linkless (p : Nat) (s : State) : State :=
  modNet s p (fun n => { n with link := false, rxLpi := false, txLpi := false, queue := n.queue.filter (·.calib) })

theorem linkDrop_of_up (hup : (netPort s p).link = true) : ∃ k,
    linkDrop s p = evD (netInt (netCount (netCount (linkless p s) p 53 1) p 46 k) p 0) 0x801 p 0 0 := ⟨_, if_pos hup⟩

end

/-- What a loss of link leaves of the port and of the others. -/
theorem linkDrop_port {s : State} {p : Nat} (hup : (netPort s p).link = true) :
    (netPort (linkDrop s p) p).link = false ∧ (netPort (linkDrop s p) p).queue = (netPort s p).queue.filter (·.calib)
      ∧ tgetD (netPort (linkDrop s p) p).ctr 53 0 = inc48 (tgetD (netPort s p).ctr 53 0) 1
      ∧ ∀ q, q ≠ p → netPort (linkDrop s p) q = netPort s q := by
  obtain ⟨k, hk⟩ := linkDrop_of_up hup
  rw [hk]
  refine ⟨by simp [linkless], by simp [linkless], ?_, fun q hq => ?_⟩
  · rw [netPort_evD, netPort_netInt_ctr, ctr_netCount_ne _ _ _ _ (by decide), ctr_netCount_self, linkless, netPort_modNet_self]
  · rw [netPort_evD, netPort_netInt_ne _ _ hq, netPort_netCount_ne _ _ _ _ hq, netPort_netCount_ne _ _ _ _ hq, linkless, netPort_modNet_ne _ _ hq]

/-! ### Mode changes, calibration and adaptation (10 R212, R213, R215) -/

theorem exec_netModeDone {s : State} (hstart : s.clk.started = true) (g : Nat) :
    exec (.netModeDone g) s = .next (settled s (netModeDone g (begun s))) := runBase_of_started hstart _
theorem exec_pllCalDone {s : State} (hstart : s.clk.started = true) (k : Nat) :
    exec (.pllCalDone k) s = .next (settled s (pllDone k (begun s))) := runBase_of_started hstart _
theorem exec_txnrHoldExpiry {s : State} (hrun : s.clk.running = true) (p c : Nat) :
    exec (.txnrHoldExpiry p c) s = .next (settled s (txnrExpiry p c (begun s))) := runMere_of_running hrun _

theorem exec_adaptDone {s : State} {p : Nat} (hstart : s.clk.started = true) (h : (netPort s p).adapting = true) :
    exec (.adaptDone p) s = .next (settled s (netInt (modNet (begun s) p (fun n => { n with adapting := false })) p 5)) :=
  (runBase_of_started hstart _).trans (by rw [if_pos (by exact h)]; rfl)

theorem tget_tmap {α : Type} (t : Tbl α) (f : Nat → α → α) (k : Nat) : tget (tmap t f) k = (tget t k).map (f k) := by
  induction t with
  | nil => rfl
  | cons e t ih =>
    obtain ⟨i, v⟩ := e
    by_cases hi : i = k
    · subst hi; simp [tmap, tget]
    · simpa [tmap, tget, hi] using ih

/-- The groups that a pending mode change holds. -/
def heldGroups (c : PendCmd) : List Nat := (List.range 2).filter (fun h => c.holds.contains (.group h))

theorem heldGroups_contains (c : PendCmd) {h : Nat} (hh : h < 2) : (heldGroups c).contains h = c.holds.contains (.group h) := by
  rw [Bool.eq_iff_iff]
  simp [heldGroups, hh]

/-- The groups `gs` stop pending. -/
def groupsReady (gs : List Nat) (s : State) : State :=
  { s with netGroups := tmap s.netGroups (fun h x => if gs.contains h then { x with pending := false } else x) }

theorem groupsReady_group (gs : List Nat) (s : State) (h : Nat) :
    tgetD (groupsReady gs s).netGroups h {} =
      { tgetD s.netGroups h {} with pending := (tgetD s.netGroups h {}).pending && !gs.contains h } := by
  rw [groupsReady, tgetD, tget_tmap, tgetD]
  cases tget s.netGroups h with
  | none => rfl
  | some x => cases hgs : gs.contains h <;> simp

section
variable {s : State} {g : Nat}

theorem netModeDone_of_none (h : pendingFor s (fun w => w == .netMode g) = []) : netModeDone g s = s := by
  rw [netModeDone, h, List.foldl_nil]

theorem netModeDone_of_one {c : PendCmd} (h : pendingFor s (fun w => w == .netMode g) = [c]) :
    netModeDone g s = finish ((heldGroups c).foldl (fun s h => if groupMode s h = 0 then s else askWeir s 2 2 (.serdes h))
      (groupsReady (heldGroups c) s)) c 0 0 := by
  rw [netModeDone, h]
  rfl

end

theorem askGroups_netGroups (gs : List Nat) (s : State) :
    (gs.foldl (fun s h => if groupMode s h = 0 then s else askWeir s 2 2 (.serdes h)) s).netGroups = s.netGroups :=
  foldl_keeps State.netGroups (fun s h => by split <;> simp) gs s

theorem pllDone_netGroups {s : State} {k : Nat} (hk : k < 2) (h : thas s.netGroups k = true) :
    (pllDone k s).netGroups = tmod s.netGroups k (fun g => { g with pllCal := false }) := by
  unfold pllDone
  rw [if_pos ⟨hk, h⟩]
  exact foldl_keeps State.netGroups netRelease_netGroups _ _

theorem tgetD_tmod_self {α : Type} {t : Tbl α} {k : Nat} (h : thas t k = true) (f : α → α) (d : α) : tgetD (tmod t k f) k d = f (tgetD t k d) := by
  obtain ⟨v, hv⟩ := Option.isSome_iff_exists.mp h
  simp [tgetD, tget_tmod_self, hv]

theorem txnrExpiry_of_none {s : State} {p c : Nat} (h : (netPort s p).queue.find? (fun h => h.cls == c && h.calib) = none) :
    txnrExpiry p c s = s := by
  rw [txnrExpiry, h]

theorem txnrExpiry_of_some {s : State} {p c : Nat} {x : TxHeld} (h : (netPort s p).queue.find? (fun h => h.cls == c && h.calib) = some x) :
    txnrExpiry p c s = netInt (netCount (modNet s p (fun n => { n with queue := n.queue.erase x })) p 45 1) p 4 := by
  rw [txnrExpiry, h]

/-- Settles O40, event by event. The bound of the deskew is the model's choice (log entry 77), and so is that a link that goes down keeps only
frames that wait for the PLL (log entry 72). -/
theorem linkModeAndCalibration : Obligations.LinkModeAndCalibration := by
  unfold Obligations.LinkModeAndCalibration
  refine ⟨fun p lf rf s hex => ⟨fun hdown hcal hsafe hsds => ?linkUp, fun hup => ?linkDown⟩,
    fun g s hstart => ⟨fun hnone => ?noMode, fun c hone => ?mode⟩, fun k s hk hstart hhas => ?pll,
    fun p s hstart hadapt => ?adapt, fun p c s hrun => ?txnr⟩
  case linkUp =>
    have hexec := exec_netLinkChange p true lf rf s
    rw [linkChange_up (s := begun s) hex hdown hcal hsafe hsds] at hexec
    obtain ⟨d, n, hd, hsingle, hcorr⟩ := linkCorr_eq (linked p lf rf (begun s)) p
    rw [hcorr] at hexec
    have hgroups : (linked p lf rf (begun s)).netGroups = s.netGroups := linked_netGroups ..
    have hmode : groupMode (linked p lf rf (begun s)) (p / 4) = groupMode s (p / 4) := by rw [groupMode, hgroups, groupMode]
    have hport := netPort_linked (begun s) p lf rf
    refine ⟨_, hexec, ?_, ?_, ?_, ⟨d, hd, fun h => hsingle (hmode ▸ h), ?_, ?_⟩, fun q hq => ?_⟩
    · simp [hport]
    · simp [hport]
    · simp [hport]
    · rw [settled_tsPorts, netRelease_tsPorts, evD_tsPorts, netInt_tsPorts, corrected_corrIn]
      simp only [groupMode, hgroups]
    · rw [settled_tsPorts, netRelease_tsPorts, evD_tsPorts, netInt_tsPorts, corrected_corrOut]
      simp only [groupMode, hgroups]
    · rw [netPort_settled, netPort_netRelease_ne _ _ hq, netPort_evD, netPort_netInt_ne _ _ hq, netPort_corrected, netPort_linked_ne _ _ _ _ hq,
        netPort_begun]
  case linkDown =>
    have hlink : (netPort (faultsTaken p lf rf (begun s)) p).link = true := by rw [netPort_faultsTaken]; exact hup
    obtain ⟨hdown, hqueue, hctr, hothers⟩ := linkDrop_port hlink
    have hexec := exec_netLinkChange p false lf rf s
    rw [linkChange_down (s := begun s) hex hup] at hexec
    refine ⟨_, hexec, ?_, ?_, ?_, fun q hq => ?_⟩
    all_goals rw [netPort_settled, netPort_askAdapt]
    · exact hdown
    · rw [hqueue, netPort_faultsTaken, netPort_begun]
    · rw [hctr, netPort_faultsTaken, netPort_begun]
    · rw [hothers q hq, netPort_faultsTaken_ne _ _ _ _ hq, netPort_begun]
  case noMode => rw [exec_netModeDone hstart, netModeDone_of_none (s := begun s) hnone]
  case mode =>
    have hexec := exec_netModeDone hstart g
    rw [netModeDone_of_one (s := begun s) hone] at hexec
    refine ⟨_, hexec, ?_, fun h hh => ?_⟩
    · rw [settled_ctl_pend, finish_ctl]
      simp
    · rw [groupMode, settled_netGroups, finish_netGroups, askGroups_netGroups, groupsReady_group, heldGroups_contains c hh]
      exact ⟨rfl, rfl⟩
  case pll =>
    have hhas' : thas (begun s).netGroups k = true := hhas
    refine ⟨_, exec_pllCalDone hstart k, ?_, ?_, fun j hj => ?_⟩
    · rw [settled_netGroups, pllDone_netGroups hk hhas', tgetD_tmod_self hhas']
    · rw [groupMode, settled_netGroups, pllDone_netGroups hk hhas', tgetD_tmod_self hhas']
      rfl
    · rw [settled_netGroups, pllDone_netGroups hk hhas', tget_tmod_ne _ _ hj]
      rfl
  case adapt =>
    refine ⟨_, exec_adaptDone hstart hadapt, ?_, ?_, fun q hq => ?_⟩
    · simp
    · rw [netPort_settled, netPort_netInt_int]
    · rw [netPort_settled, netPort_netInt_ne _ _ hq, netPort_modNet_ne _ _ hq, netPort_begun]
  case txnr =>
    have hexec := exec_txnrHoldExpiry hrun p c
    cases hfind : (netPort s p).queue.find? (fun h => h.cls == c && h.calib) with
    | none => rw [hexec, txnrExpiry_of_none (s := begun s) hfind]
    | some x =>
      rw [txnrExpiry_of_some (s := begun s) hfind] at hexec
      refine ⟨_, hexec, ?_, ?_, ?_⟩
      · simp
      · rw [netPort_settled, netPort_netInt_ctr, ctr_netCount_self, netPort_modNet_self, netPort_begun]
      · rw [netPort_settled, netPort_netInt_int]

end Sys2Proof.Machine
end

section
/-! Field ports, counting, keys and receiving (11 R237 to R241): what counting leaves of a port as it was, what delivering the keys of a node
changes, and the receive path. -/
namespace Sys2Proof.Machine

/-! ### One port changed -/

@[simp] theorem fldPort_modFld_self (s : State) (p : Nat) (f : FldPort → FldPort) : fldPort (modFld s p f) p = f (fldPort s p) :=
  tgetD_tset_self _ _ _ _

@[simp] theorem modFld_modFld (s : State) (p : Nat) (f g : FldPort → FldPort) : modFld (modFld s p f) p g = modFld s p (fun x => g (f x)) := by
  simp [modFld, fldPort]

@[simp] theorem fldPort_settled (s u : State) (p : Nat) : fldPort (settled s u) p = fldPort u p := by simp [fldPort]
@[simp] theorem fldPort_begun (s : State) (p : Nat) : fldPort (begun s) p = fldPort s p := rfl

/-- The state without what the traffic of field port `p` may change: of the port what `g` keeps, and neither streams, time bases, free values,
events nor what leaves the device. -/
def State.offFld (g : FldPort → FldPort) (p : Nat) (s : State) : State :=
  { s with fld := tset s.fld p (g (fldPort s p)), streams := [], tbs := [], free := 0, evs := [], out := [] }

section
variable {g : FldPort → FldPort} {p : Nat} {s u : State}

theorem modFld_offFld {f : FldPort → FldPort} (h : g (f (fldPort s p)) = g (fldPort s p)) : (modFld s p f).offFld g p = s.offFld g p := by
  rw [State.offFld, fldPort_modFld_self, h]
  simp [State.offFld, modFld]

theorem fldPort_of_offFld (h : u.offFld g p = s.offFld g p) : g (fldPort u p) = g (fldPort s p) := by
  simpa [State.offFld] using congrArg (fun x : State => tgetD x.fld p {}) h

theorem fldPort_ne_of_offFld (h : u.offFld g p = s.offFld g p) {q : Nat} (hq : q ≠ p) : fldPort u q = fldPort s q := by
  simpa [State.offFld, fldPort, tgetD_tset_ne _ _ _ hq] using congrArg (fun x : State => tgetD x.fld q {}) h

@[simp] theorem emit_offFld (o : Out) : (emit s o).offFld g p = s.offFld g p := rfl
@[simp] theorem count_offFld (k i : Nat) : (count s k i).offFld g p = s.offFld g p := rfl

end

/-! ### Counters (11 R246) -/

section
variable (s : State) (p i k : Nat)

/-- A counter that `g` does not keep may advance. -/
theorem fldCount_offFld {g : FldPort → FldPort} {i : Nat} (hctr : ∀ x v h, g { x with ctr := tset x.ctr i v, half := h } = g x) :
    (fldCount s p i k).offFld g p = s.offFld g p := modFld_offFld (hctr _ _ _)

theorem fldCount_ctr : (fldPort (fldCount s p i k) p).ctr = tset (fldPort s p).ctr i (inc48 (tgetD (fldPort s p).ctr i 0) k) := by
  rw [fldCount, fldPort_modFld_self]

theorem ctr_fldCount_self : tgetD (fldPort (fldCount s p i k) p).ctr i 0 = inc48 (tgetD (fldPort s p).ctr i 0) k := by
  rw [fldCount_ctr, tgetD_tset_self]

theorem ctr_fldCount_ne {j : Nat} (h : j ≠ i) : tgetD (fldPort (fldCount s p i k) p).ctr j 0 = tgetD (fldPort s p).ctr j 0 := by
  rw [fldCount_ctr, tgetD_tset_ne _ _ _ h]

end

/-- The port without what counting changes. -/
def FldPort.offCount (x : FldPort) : FldPort := { x with ctr := [], half := 0 }

theorem fldPort_fldCount (s : State) (p i k : Nat) : (fldPort (fldCount s p i k) p).offCount = (fldPort s p).offCount :=
  fldPort_of_offFld (fldCount_offFld s p k (by intros; rfl))

section
variable (s : State) (p i k : Nat)

@[simp] theorem fldCount_plca : (fldPort (fldCount s p i k) p).plca = (fldPort s p).plca := (congrArg FldPort.plca (fldPort_fldCount s p i k) :)
@[simp] theorem fldCount_lost : (fldPort (fldCount s p i k) p).lost = (fldPort s p).lost := (congrArg FldPort.lost (fldPort_fldCount s p i k) :)
@[simp] theorem fldCount_cur : (fldPort (fldCount s p i k) p).cur = (fldPort s p).cur := (congrArg FldPort.cur (fldPort_fldCount s p i k) :)
@[simp] theorem fldCount_queue : (fldPort (fldCount s p i k) p).queue = (fldPort s p).queue := (congrArg FldPort.queue (fldPort_fldCount s p i k) :)
@[simp] theorem fldCount_legPkts : (fldPort (fldCount s p i k) p).legPkts = (fldPort s p).legPkts :=
  (congrArg FldPort.legPkts (fldPort_fldCount s p i k) :)
@[simp] theorem fldCount_burstCount : (fldPort (fldCount s p i k) p).burstCount = (fldPort s p).burstCount :=
  (congrArg FldPort.burstCount (fldPort_fldCount s p i k) :)
@[simp] theorem fldCount_staged : (fldPort (fldCount s p i k) p).staged = (fldPort s p).staged :=
  (congrArg FldPort.staged (fldPort_fldCount s p i k) :)
@[simp] theorem fldCount_configured : (fldPort (fldCount s p i k) p).configured = (fldPort s p).configured :=
  (congrArg FldPort.configured (fldPort_fldCount s p i k) :)
@[simp] theorem fldCount_keys : (fldCount s p i k).keys = s.keys := rfl

variable {q : Nat} (hq : q ≠ p)
include hq

theorem fldPort_modFld_ne (f : FldPort → FldPort) : fldPort (modFld s p f) q = fldPort s q := tgetD_tset_ne _ _ _ hq
theorem fldPort_fldCount_ne : fldPort (fldCount s p i k) q = fldPort s q := fldPort_modFld_ne s p hq _

end

@[simp] theorem fldPort_evT (s : State) (t typ obj status aux p : Nat) : fldPort (evT s t typ obj status aux) p = fldPort s p := rfl
@[simp] theorem fldPort_drawBelow (s : State) (n p : Nat) : fldPort (drawBelow s n).2 p = fldPort s p := rfl

/-! ### Delivering the keys of a node (11 R241, R242) -/

@[simp] theorem keyChange_keys (s : State) (t src port node key : Nat) (held : Bool) (cause : Nat) :
    (keyChange s t src port node key held cause).keys = s.keys := by
  unfold keyChange
  dsimp only
  split <;> rfl

@[simp] theorem wake_keys (s : State) : (wake s).keys = s.keys := by
  unfold wake askWeir
  split
  · dsimp only
    split
    · split <;> rfl
    · rfl
  · rfl

/-- The delivered state that the raw state of node `k` gives to its keys in mask `m`. -/
def deliveredBy (k : KeyNode) (m : Nat) : Nat :=
  (List.range 16).foldl (fun d i => if bit m i then setBit d i (bit k.raw i && !bit k.blocked i && !bit k.latched i && !k.absent) else d) k.delivered

/-- Delivering changes the delivered state of the node and of no other. -/
theorem deliverKeys_keys (s : State) (p n m cause : Nat) : (deliverKeys s p n m cause).keys =
    tset s.keys (256 * p + n) { tgetD s.keys (256 * p + n) {} with delivered := deliveredBy (tgetD s.keys (256 * p + n) {}) m } :=
  foldl_keeps State.keys (fun s i => by split <;> simp) _ _

theorem tget_deliverNode {s : State} {p n : Nat} {k : KeyNode} (h : tget s.keys (256 * p + n) = some k) (cause : Nat) :
    tget (deliverNode s p n cause).keys (256 * p + n) = some { k with delivered := deliveredBy k 0xFFFF } := by
  rw [deliverNode, deliverKeys_keys, tget_tset_self, tgetD, h, Option.getD_some]

/-! ### Key frames (11 R238 to R241) -/

/-- The contents of a key frame behind its Ethernet header. -/
abbrev keyBody (b : List Byte) : List Byte := b.drop 14

/-- A key frame whose version, type and reserved bytes are as R238 has them. -/
def KeyForm (b : List Byte) : Prop := fld (keyBody b) 0 1 = 1 ∧ fld (keyBody b) 1 1 = 1 ∧ allZero (slice (keyBody b) 6 2) = true

/-- The place in `keys` of the node that a key frame names. -/
abbrev keyPlace (p : Nat) (b : List Byte) : Nat := 256 * p + fld (keyBody b) 2 1

/-- The node that a key frame names. -/
abbrev keyNode (s : State) (p : Nat) (b : List Byte) : KeyNode := tgetD s.keys (keyPlace p b) {}

/-- A node that comes with frame `b`: its keys are the raw state, those held are blocked (R241), and `d` is delivered. -/
def firstState (b : List Byte) (d : Nat) : KeyNode :=
  { seq := fld (keyBody b) 3 1, raw := fldBe (keyBody b) 4 2, delivered := d, blocked := fldBe (keyBody b) 4 2, first := false }

section
variable {p opp : Nat} {b : List Byte} {s : State}

theorem keyFrame_of_malformed (h : fld (keyBody b) 0 1 ≠ 1 ∨ fld (keyBody b) 1 1 ≠ 1 ∨ allZero (slice (keyBody b) 6 2) = false) :
    keyFrame p opp b s = fldCount (fldCount s p 13 1) p 14 1 := by
  unfold keyFrame
  exact if_pos (by simpa using h)

theorem own_turn {n : Nat} (hturn : (fldPort s p).plca = false ∨ opp = n) : ¬ ((fldPort s p).plca = true ∧ opp ≠ n) := by
  rintro ⟨hplca, hopp⟩
  exact hturn.elim (fun h => by simp [h] at hplca) hopp

section
variable (hform : KeyForm b)
include hform

theorem keyForm_passes : ¬ (fld (keyBody b) 0 1 ≠ 1 ∨ fld (keyBody b) 1 1 ≠ 1 ∨ (!allZero (slice (keyBody b) 6 2)) = true) := by
  obtain ⟨hversion, htype, hzero⟩ := hform
  simp [hversion, htype, hzero]

theorem keyFrame_of_spoofed (hplca : (fldPort s p).plca = true) (hopp : opp ≠ fld (keyBody b) 2 1) :
    keyFrame p opp b s = fldCount (fldCount s p 13 1) p 16 1 := by
  unfold keyFrame
  dsimp only
  rw [if_neg (keyForm_passes hform), if_pos ⟨hplca, hopp⟩]

variable (hturn : (fldPort s p).plca = false ∨ opp = fld (keyBody b) 2 1)
include hturn

theorem keyFrame_of_stale (hknown : thas s.keys (keyPlace p b) = true) (hpresent : (keyNode s p b).absent = false)
    (hold : nearest 256 (keyNode s p b).seq (fld (keyBody b) 3 1) ≤ (keyNode s p b).seq) :
    keyFrame p opp b s = fldCount (fldCount s p 13 1) p 15 1 := by
  unfold keyFrame
  dsimp only
  rw [if_neg (keyForm_passes hform), if_neg (own_turn hturn), if_pos ⟨hknown, by simpa using hpresent, hold⟩]

/-- An accepted frame of a node whose next frame is a first state (R241). -/
theorem keyFrame_of_first (hfirst : (keyNode s p b).first = true)
    (hnew : thas s.keys (keyPlace p b) = false ∨ (keyNode s p b).absent = true ∨
      ((keyNode s p b).seq : Int) < nearest 256 (keyNode s p b).seq (fld (keyBody b) 3 1)) :
    ∃ d, tget (keyFrame p opp b s).keys (keyPlace p b) = some (firstState b d) := by
  have hfresh : ¬ (thas s.keys (keyPlace p b) = true ∧ (!(keyNode s p b).absent) = true ∧
      nearest 256 (keyNode s p b).seq (fld (keyBody b) 3 1) ≤ (keyNode s p b).seq) := by
    rintro ⟨hknown, hpresent, hold⟩
    rcases hnew with h | h | h
    · simp [h] at hknown
    · simp [h] at hpresent
    · omega
  unfold keyFrame
  dsimp only
  rw [if_neg (keyForm_passes hform), if_neg (own_turn hturn), if_neg (by exact hfresh),
    if_pos (show (keyNode (fldCount s p 13 1) p b).first = true from hfirst)]
  split
  · split
    · rw [wake_keys]; exact ⟨_, tget_tset_self ..⟩
    · exact ⟨_, tget_tset_self ..⟩
  · exact ⟨_, tget_deliverNode (k := firstState b _) (tget_tset_self ..) 0⟩

end

end

/-! ### The receive path (11 R237) -/

theorem exec_fldRxFrame {s : State} {p : Nat} (hp : p < 16) (hrun : s.clk.running = true) (x : FldRx) :
    exec (.fldRxFrame p x) s = .next (settled s (fldReceive p x (begun s))) :=
  (runMere_of_running hrun _).trans (by rw [if_pos hp]; rfl)

theorem exec_frame {s u : State} {p opp : Nat} {f : RxFrame} (hp : p < 16) (hrun : s.clk.running = true) (h : fldFrame p f opp (begun s) = u) :
    exec (.fldRxFrame p (.frame f opp)) s = .next (settled s u) := by
  rw [exec_fldRxFrame hp hrun, fldReceive, h]

/-- The bytes in the receive buffer of port `p` when a frame comes of which `f.taken` have gone. -/
abbrev fillBefore (s : State) (p : Nat) (f : RxFrame) : Nat := (fldPort s p).rxFill - f.taken

/-- A frame in the receive buffer, counted in octets and frames. -/
def fldBuffered (s : State) (p : Nat) (f : RxFrame) : State :=
  fldCount (fldCount (modFld s p (fun x => { x with rxFill := fillBefore s p f + (f.bytes.length + 4) })) p 0 (f.bytes.length + 4)) p 1 1

theorem fldPort_fldBuffered_plca (s : State) (p : Nat) (f : RxFrame) : (fldPort (fldBuffered s p f) p).plca = (fldPort s p).plca := by
  simp [fldBuffered]

section
variable {s : State} {p opp : Nat} {f : RxFrame}

theorem fldFrame_of_bad (h : f.fcsOk = false ∨ f.bytes.length + 4 < 64 ∨ 1522 < f.bytes.length + 4) :
    fldFrame p f opp s = fldCount (modFld s p (fun x => { x with rxFill := fillBefore s p f })) p 2 1 := by
  unfold fldFrame
  exact if_pos (by simpa using h)

theorem port_ready (hstage : s.ctl.stage = 4) (hconf : (fldPort s p).configured = true) :
    ¬ (s.ctl.stage ≠ 4 ∨ (!(fldPort s p).configured) = true) := by simp [hstage, hconf]

section
variable (hfcs : f.fcsOk = true) (hmin : 64 ≤ f.bytes.length + 4) (hmax : f.bytes.length + 4 ≤ 1522)
include hfcs hmin hmax

theorem frame_fits : ¬ ((!f.fcsOk) = true ∨ f.bytes.length + 4 < 64 ∨ 1522 < f.bytes.length + 4) := by
  simp only [hfcs, Bool.not_true, Bool.false_eq_true, false_or]
  omega

theorem fldFrame_of_full (hfull : 32768 < fillBefore s p f + (f.bytes.length + 4)) :
    fldFrame p f opp s = fldCount (modFld s p (fun x => { x with rxFill := fillBefore s p f })) p 3 1 := by
  unfold fldFrame
  dsimp only
  rw [if_neg (frame_fits hfcs hmin hmax), if_pos hfull]

variable (hroom : fillBefore s p f + (f.bytes.length + 4) ≤ 32768)
include hroom

theorem fldFrame_of_unready (h : s.ctl.stage ≠ 4 ∨ (fldPort s p).configured = false) : fldFrame p f opp s = fldCount (fldBuffered s p f) p 5 1 := by
  have hnot : s.ctl.stage ≠ 4 ∨ (!(fldPort s p).configured) = true := by simpa using h
  unfold fldFrame
  dsimp only
  rw [if_neg (frame_fits hfcs hmin hmax), if_neg (Nat.not_lt.mpr hroom), modFld_modFld, if_pos (by exact hnot)]
  rfl

variable (hstage : s.ctl.stage = 4) (hconf : (fldPort s p).configured = true)
include hstage hconf

theorem fldFrame_of_asleep (hasleep : fldAsleep s p = true) (hkey : fldBe f.bytes 12 2 ≠ (fldPort s p).keyEtype) :
    fldFrame p f opp s = fldCount (fldBuffered s p f) p 19 1 := by
  unfold fldFrame
  dsimp only
  rw [if_neg (frame_fits hfcs hmin hmax), if_neg (Nat.not_lt.mpr hroom), modFld_modFld, if_neg (by exact port_ready hstage hconf),
    if_pos ⟨hasleep, by simpa using hkey⟩]
  rfl

variable (hptp : isPtp f.bytes 2 = false)
include hptp

theorem fldFrame_of_key (hkey : fldBe f.bytes 12 2 = (fldPort s p).keyEtype) : fldFrame p f opp s = keyFrame p opp f.bytes (fldBuffered s p f) := by
  unfold fldFrame
  dsimp only
  rw [if_neg (frame_fits hfcs hmin hmax), if_neg (Nat.not_lt.mpr hroom), modFld_modFld, if_neg (by exact port_ready hstage hconf),
    if_neg (by simp [hkey]), if_neg (by simp [hptp]), if_pos (by simpa using hkey)]
  rfl

/-- A frame that is neither PTP nor of keys, that no stream takes and that finds no ring. -/
theorem fldFrame_of_unmatched (hawake : fldAsleep s p = false) (hkey : fldBe f.bytes 12 2 ≠ (fldPort s p).keyEtype)
    (hstream : streamFrame (fldBuffered s p f) (16 + p) (16 + p) f.eighth 2 f.bytes = none)
    (hring : (fldPort s p).defRing = 0xFFFFFFFF ∨
      toRing (fldBuffered s p f) (fldPort s p).tenant (fldPort s p).defRing 0xFFFF (ringStamp (fldBuffered s p f) (16 + p) f.eighth) f.bytes = none) :
    fldFrame p f opp s = fldCount (fldBuffered s p f) p 4 1 := by
  have hnone : (if (fldPort s p).defRing = 0xFFFFFFFF then none
      else toRing (fldBuffered s p f) (fldPort s p).tenant (fldPort s p).defRing 0xFFFF (ringStamp (fldBuffered s p f) (16 + p) f.eighth) f.bytes) = none := by
    rcases hring with h | h
    · rw [if_pos h]
    · rw [h, ite_self]
  unfold fldFrame
  dsimp only
  rw [if_neg (frame_fits hfcs hmin hmax), if_neg (Nat.not_lt.mpr hroom), modFld_modFld, if_neg (by exact port_ready hstage hconf),
    if_neg (fun h => by exact absurd (hawake.symm.trans h.1) (by decide)), if_neg (by simp [hptp]), if_neg (by simpa using hkey)]
  unfold fldBuffered at hstream hnone ⊢
  rw [hstream]
  dsimp only
  rw [hnone, Option.getD_none]

end

end

end Sys2Proof.Machine
end

section
/-! Field ports, sending (11 R231 to R236): what sending leaves of a port as it was, PLCA fall-back and cycles, collisions and back-off. -/
namespace Sys2Proof.Machine

/-! ### What sending on a port leaves as it was -/

/-- The port without what sending changes: the counters below 8, the frames that wait for an opportunity and those behind the one sent. -/
def FldPort.offSend (x : FldPort) : FldPort := { x with ctr := x.ctr.filter (fun e => 8 ≤ e.1), half := 0, queue := [], behind := [] }

/-- The port without what CSMA/CD changes when it takes up frames: also the frame on the medium and its attempts. -/
def FldPort.offGo (x : FldPort) : FldPort := { x.offSend with cur := none, attempts := 0, backing := false }

section
variable {x y : FldPort}

theorem plca_of_offGo (h : x.offGo = y.offGo) : x.plca = y.plca := (congrArg FldPort.plca h :)
theorem lost_of_offGo (h : x.offGo = y.offGo) : x.lost = y.lost := (congrArg FldPort.lost h :)
theorem legPkts_of_offGo (h : x.offGo = y.offGo) : x.legPkts = y.legPkts := (congrArg FldPort.legPkts h :)

theorem ctr_of_offGo (h : x.offGo = y.offGo) {i : Nat} (hi : 8 ≤ i) : tgetD x.ctr i 0 = tgetD y.ctr i 0 := by
  have hctr : x.ctr.filter (fun e => 8 ≤ e.1) = y.ctr.filter (fun e => 8 ≤ e.1) := congrArg FldPort.ctr h
  have hkept : decide (8 ≤ i) = true := by simpa using hi
  rw [tgetD, ← tget_filter (P := fun j => decide (8 ≤ j)) hkept x.ctr, hctr, tget_filter (P := fun j => decide (8 ≤ j)) hkept, tgetD]

end

/-- `g` keeps neither the counters below 8 nor the half-range bits. -/
def DropsSent (g : FldPort → FldPort) : Prop := ∀ i, i < 8 → ∀ (x : FldPort) (v h : Nat), g { x with ctr := tset x.ctr i v, half := h } = g x

theorem offCount_dropsSent : DropsSent FldPort.offCount := fun _ _ _ _ _ => rfl

theorem offSend_dropsSent : DropsSent FldPort.offSend := fun i hi x v h => by
  simp only [FldPort.offSend, filter_tset (P := fun j => decide (8 ≤ j)) (by simpa using hi)]

theorem offFld_offGo {s u : State} {p : Nat} (h : u.offFld FldPort.offSend p = s.offFld FldPort.offSend p) :
    u.offFld FldPort.offGo p = s.offFld FldPort.offGo p := by
  have hgo (v : State) : v.offFld FldPort.offGo p =
      (v.offFld FldPort.offSend p).offFld (fun x => { x with cur := none, attempts := 0, backing := false }) p := by
    simp [State.offFld, fldPort, FldPort.offGo]
  rw [hgo, h, ← hgo]

section
variable (s : State) (p : Nat)

/-- A frame on the medium changes nothing that is kept where the counters below 8 are not. -/
theorem fldPut_offFld {g : FldPort → FldPort} (hg : DropsSent g) (h : TxHeld) (b : List Byte) :
    (fldPut s p h b).offFld g p = s.offFld g p := by
  have hcounted : ∀ k l, (fldCount (fldCount s p 6 k) p 7 l).offFld g p = s.offFld g p := fun k l =>
    (fldCount_offFld _ p l (hg 7 (by decide))).trans (fldCount_offFld s p k (hg 6 (by decide)))
  unfold fldPut
  dsimp only
  split
  · rw [emit_offFld, count_offFld, hcounted]
  · rw [emit_offFld, hcounted]

theorem ptpStamp_offFld (g : FldPort → FldPort) (k : Nat) (x : Int) (h : TxHeld) (t o : Nat) :
    (ptpStamp s k x h t o).2.1.offFld g p = s.offFld g p := by
  unfold ptpStamp
  dsimp only
  split
  · rfl
  · split <;> rfl

theorem ptpLeave_offFld (g : FldPort → FldPort) (k : Nat) (h : TxHeld) : (ptpLeave s k h).2.1.offFld g p = s.offFld g p := by
  unfold ptpLeave
  split
  · rfl
  · exact ptpStamp_offFld ..

theorem ptpLeave_follow_none {h : TxHeld} (hptp : h.ptp = none) (k : Nat) : (ptpLeave s k h).2.2 = none := by
  simp only [ptpLeave, hptp]

/-- A frame as it has left port `p`, before what follows it. -/
def fldLeft (h : TxHeld) : State := fldPut (ptpLeave s (8 + p) h).2.1 p h (ptpLeave s (8 + p) h).1

theorem fldLeft_offFld {g : FldPort → FldPort} (hg : DropsSent g) (h : TxHeld) :
    (fldLeft s p h).offFld g p = s.offFld g p := (fldPut_offFld _ p hg _ _).trans (ptpLeave_offFld ..)

theorem fldPort_fldLeft (h : TxHeld) : (fldPort (fldLeft s p h) p).offCount = (fldPort s p).offCount :=
  fldPort_of_offFld (fldLeft_offFld s p offCount_dropsSent h)

theorem fldSend_eq (h : TxHeld) : fldSend s p h = match (ptpLeave s (8 + p) h).2.2 with
    | none => fldLeft s p h
    | some f => if (fldPort (fldLeft s p h) p).plca then modFld (fldLeft s p h) p (fun x => { x with queue := x.queue ++ [f] })
      else fldPut (modFld (fldLeft s p h) p (fun x => { x with behind := x.behind ++ [f] })) p f f.bytes := rfl

theorem fldSend_offSend (h : TxHeld) : (fldSend s p h).offFld FldPort.offSend p = s.offFld FldPort.offSend p := by
  have hleft := fldLeft_offFld s p offSend_dropsSent h
  rw [fldSend_eq]
  split
  · exact hleft
  · split
    · exact (modFld_offFld rfl).trans hleft
    · exact (fldPut_offFld _ p offSend_dropsSent _ _).trans ((modFld_offFld rfl).trans hleft)

@[simp] theorem fldSend_plca (h : TxHeld) : (fldPort (fldSend s p h) p).plca = (fldPort s p).plca :=
  (congrArg FldPort.plca (fldPort_of_offFld (fldSend_offSend s p h)) :)

/-- Only a message that follows a PTP event message under PLCA comes to wait (13 R278). -/
theorem fldSend_queue (h : TxHeld) : ∃ l, (fldPort (fldSend s p h) p).queue = (fldPort s p).queue ++ l
    ∧ ((fldPort s p).plca = false ∨ h.ptp = none → l = []) := by
  have hqueue : (fldPort (fldLeft s p h) p).queue = (fldPort s p).queue := (congrArg FldPort.queue (fldPort_fldLeft s p h) :)
  have hplca : (fldPort (fldLeft s p h) p).plca = (fldPort s p).plca := (congrArg FldPort.plca (fldPort_fldLeft s p h) :)
  rw [fldSend_eq]
  split
  · exact ⟨[], by simpa using hqueue, fun _ => rfl⟩
  · next f hf =>
    split
    · next hon =>
      refine ⟨[f], by simp [hqueue], fun hno => ?_⟩
      rcases hno with hoff | hptp
      · simp [hplca, hoff] at hon
      · simp [ptpLeave_follow_none s hptp] at hf
    · refine ⟨[], ?_, fun _ => rfl⟩
      have hput : ∀ u : State, (fldPort (fldPut u p f f.bytes) p).queue = (fldPort u p).queue := fun u =>
        (congrArg FldPort.queue (fldPort_of_offFld (fldPut_offFld u p offCount_dropsSent f f.bytes)) :)
      rw [hput, fldPort_modFld_self, List.append_nil, ← hqueue]

/-- Frames sent one after the other. -/
def fldSendAll (hs : List TxHeld) : State := hs.foldl (fun s h => fldSend s p h) s

theorem fldSendAll_offSend (hs : List TxHeld) : (fldSendAll s p hs).offFld FldPort.offSend p = s.offFld FldPort.offSend p :=
  foldl_keeps (State.offFld FldPort.offSend p) (fun s h => fldSend_offSend s p h) hs s

theorem fldSendAll_queue (hs : List TxHeld) : ∀ s : State, ∃ l, (fldPort (fldSendAll s p hs) p).queue = (fldPort s p).queue ++ l
    ∧ ((fldPort s p).plca = false ∨ (∀ h ∈ hs, h.ptp = none) → l = []) := by
  induction hs with
  | nil => exact fun s => ⟨[], by simp [fldSendAll], fun _ => rfl⟩
  | cons h hs ih =>
    intro s
    obtain ⟨l, hl, hnil⟩ := fldSend_queue s p h
    obtain ⟨m, hm, hnil'⟩ := ih (fldSend s p h)
    refine ⟨l ++ m, by rw [← List.append_assoc, ← hl]; exact hm, fun hno => ?_⟩
    rw [hnil (hno.imp_right fun hall => hall h (by simp)), hnil' (by rw [fldSend_plca]; exact hno.imp_right fun hall x hx => hall x (by simp [hx])),
      List.append_nil]

theorem fldGo_cons (h : TxHeld) (rest : List TxHeld) :
    fldGo s p (h :: rest) = fldSendAll (modFld s p (fun f => { f with cur := some h, attempts := 0, backing := false, behind := rest })) p (h :: rest) := rfl

theorem fldGo_offGo (hs : List TxHeld) : (fldGo s p hs).offFld FldPort.offGo p = s.offFld FldPort.offGo p := by
  cases hs with
  | nil => rfl
  | cons h rest =>
    rw [fldGo_cons, offFld_offGo (fldSendAll_offSend ..)]
    exact modFld_offFld rfl

/-- The first of the frames is the one on the medium. -/
theorem fldGo_cur {s : State} (hcur : (fldPort s p).cur = none) (hs : List TxHeld) : (fldPort (fldGo s p hs) p).cur = hs.head? := by
  cases hs with
  | nil => exact hcur
  | cons h rest =>
    rw [fldGo_cons]
    exact (congrArg FldPort.cur (fldPort_of_offFld (fldSendAll_offSend ..)) :).trans (by rw [fldPort_modFld_self]; rfl)

end

/-! ### What is left of a port, read off its kept part -/

section
variable {s u : State} {p : Nat}

/-- What holds of field port `p` and of the others after CSMA/CD has taken up frames. -/
structure KeptByGo (p : Nat) (s u : State) : Prop where
  plca : (fldPort u p).plca = (fldPort s p).plca
  lost : (fldPort u p).lost = (fldPort s p).lost
  legPkts : (fldPort u p).legPkts = (fldPort s p).legPkts
  ctr : ∀ i, 8 ≤ i → tgetD (fldPort u p).ctr i 0 = tgetD (fldPort s p).ctr i 0
  others : ∀ q, q ≠ p → fldPort u q = fldPort s q

theorem keptByGo (h : u.offFld FldPort.offGo p = s.offFld FldPort.offGo p) : KeptByGo p s u := by
  have hport := fldPort_of_offFld h
  exact ⟨plca_of_offGo hport, lost_of_offGo hport, legPkts_of_offGo hport, fun _ hi => ctr_of_offGo hport hi,
    fun _ hq => fldPort_ne_of_offFld h hq⟩

end

/-! ### PLCA fall-back and resumption (11 R233) -/

theorem fldFall_offGo (s : State) (p : Nat) : (fldFall s p).offFld FldPort.offGo p = s.offFld FldPort.offGo p := by
  unfold fldFall
  dsimp only
  split
  · rfl
  · exact (fldGo_offGo ..).trans (modFld_offFld rfl)

/-- Port `p` as it falls back, counted. -/
def fellBack (p : Nat) (s : State) : State := fldCount (modFld s p (fun f => { f with plca := false, lost := true })) p 18 1

/-- What a fall-back leaves: CSMA/CD then takes up the frames that waited for an opportunity. -/
theorem fldFall_fellBack (s : State) (p t typ obj status aux : Nat) :
    let u := fldFall (evT (fellBack p s) t typ obj status aux) p
    (fldPort u p).plca = false ∧ (fldPort u p).lost = true ∧ tgetD (fldPort u p).ctr 18 0 = inc48 (tgetD (fldPort s p).ctr 18 0) 1
      ∧ tgetD (fldPort u p).ctr 17 0 = tgetD (fldPort s p).ctr 17 0 ∧ ∀ q, q ≠ p → fldPort u q = fldPort s q := by
  intro u
  obtain ⟨hplca, hlost, -, hctr, hothers⟩ := keptByGo (fldFall_offGo (evT (fellBack p s) t typ obj status aux) p)
  refine ⟨hplca.trans ?_, hlost.trans ?_, (hctr 18 (by decide)).trans ?_, (hctr 17 (by decide)).trans ?_, fun q hq => (hothers q hq).trans ?_⟩
  · simp [fellBack]
  · simp [fellBack]
  · simp [fellBack, ctr_fldCount_self]
  · simp [fellBack, ctr_fldCount_ne]
  · rw [fldPort_evT, fellBack, fldPort_fldCount_ne _ _ _ _ hq, fldPort_modFld_ne _ _ hq]

section
variable {s : State} {p : Nat}

section
variable (hrun : s.clk.running = true)
include hrun

theorem exec_plcaBeaconTimeout (p : Nat) : exec (.plcaBeaconTimeout p) s = .next (settled s (beaconTimeout p (begun s))) := runMere_of_running hrun _
theorem exec_beaconResume (p : Nat) : exec (.beaconResume p) s = .next (settled s (beaconResume p (begun s))) := runMere_of_running hrun _
theorem exec_fldPacketDeadline (p : Nat) : exec (.fldPacketDeadline p) s = .next (settled s (fldDeadline p (begun s))) := runMere_of_running hrun _
theorem exec_collision (p : Nat) (late : Bool) : exec (.collision p late) s = .next (settled s (collide p late (begun s))) := runMere_of_running hrun _
theorem exec_backoffExpiry (p : Nat) : exec (.backoffExpiry p) s = .next (settled s (backoffEnd p (begun s))) := runMere_of_running hrun _

theorem exec_plcaCycle (hp : p < 16) (overran : Bool) : exec (.plcaCycle p overran) s = .next (settled s (plcaCycle p overran (begun s))) :=
  (runMere_of_running hrun _).trans (by rw [if_pos hp]; rfl)

end

theorem beaconTimeout_of_plca (hp : p < 16) (h : (fldPort s p).role = 2 ∧ (fldPort s p).plca = true) :
    beaconTimeout p s = fldFall (evT (fellBack p s) (fldPort s p).tenant 0x814 p 0 0) p := if_pos ⟨hp, h⟩

theorem beaconTimeout_of_not (h : ¬ ((fldPort s p).role = 2 ∧ (fldPort s p).plca = true)) : beaconTimeout p s = s := if_neg fun hall => h hall.2

theorem beaconResume_of_lost (hp : p < 16) (h : (fldPort s p).role = 1 ∧ (fldPort s p).plca = false ∧ (fldPort s p).lost = true) :
    beaconResume p s = evT (modFld s p (fun f => { f with plca := true, lost := false })) (fldPort s p).tenant 0x815 p 0 1 :=
  if_pos ⟨hp, by simpa using h⟩

theorem beaconResume_of_not (h : ¬ ((fldPort s p).role = 1 ∧ (fldPort s p).plca = false ∧ (fldPort s p).lost = true)) : beaconResume p s = s :=
  if_neg fun hall => h (by simpa using hall.2)

theorem fldBeacon_of_follower (hrole : (fldPort s p).role = 2) (hplca : (fldPort s p).plca = false) (q : Nat) :
    fldPort (fldBeacon p s) q = fldPort (modFld s p (fun f => { f with plca := true, lost := false })) q := by
  unfold fldBeacon
  dsimp only
  rw [if_pos ⟨hrole, by simp [hplca]⟩]
  split <;> rfl

theorem fldBeacon_of_coordinator (hrole : (fldPort s p).role = 1) (hplca : (fldPort s p).plca = true) :
    fldBeacon p s = fldFall (evT (fellBack p (fldCount s p 17 1)) (fldPort s p).tenant 0x814 p 0 1) p := by
  unfold fldBeacon
  dsimp only
  rw [if_neg (by simp [hrole]), if_pos hrole, if_pos hplca]
  rfl

end

/-! ### Cycles (11 R231, R235, R236) -/

@[simp] theorem fldMaySend_fldCount (s : State) (p i k : Nat) : fldMaySend (fldCount s p i k) p = fldMaySend s p := by
  rw [fldMaySend, fldCount_configured]
  rfl

section
variable {s : State} {p : Nat}

theorem plcaCycle_overran (h : (fldPort s p).staged = none) : plcaCycle p true s = plcaCycle p false (fldCount s p 11 1) := by
  unfold plcaCycle
  simp only [fldCount_staged, h]
  rfl

theorem plcaCycle_of_silent (h : (fldPort s p).staged = none) (hno : (fldPort s p).plca = false ∨ fldMaySend s p = false) : plcaCycle p false s = s := by
  unfold plcaCycle
  simp only [h]
  exact if_pos (by simpa using hno)

/-- The cycle of port `p` with its BEACON sent, and the frames of this opportunity taken from those that wait. -/
def cycleBegun (p : Nat) (s : State) : State :=
  modFld (if (fldPort s p).role = 1 then emit s (.fldSignal p 0) else s) p (fun f => { f with
    legPkts := f.legPkts.drop (1 + (fldPort s p).burstCount)
    queue := f.queue.drop (1 + (fldPort s p).burstCount - (fldPort s p).legPkts.length) })

/-- What a cycle sends: the leg's packets first, at most 1 + BURST_COUNT in all. -/
def cycleFrames (x : FldPort) : List TxHeld :=
  x.legPkts.take (1 + x.burstCount) ++ x.queue.take (1 + x.burstCount - x.legPkts.length)

theorem mem_waiting_of_mem_cycleFrames {x : FldPort} {h : TxHeld} (hmem : h ∈ cycleFrames x) : h ∈ x.legPkts ++ x.queue :=
  List.mem_append.mpr ((List.mem_append.mp hmem).imp List.mem_of_mem_take List.mem_of_mem_take)

theorem fldPort_cycleBegun (q : Nat) : fldPort (cycleBegun p s) q = fldPort (modFld s p (fun f => { f with
    legPkts := f.legPkts.drop (1 + (fldPort s p).burstCount)
    queue := f.queue.drop (1 + (fldPort s p).burstCount - (fldPort s p).legPkts.length) })) q := by
  unfold cycleBegun
  split <;> rfl

/-- What holds of field port `p` and of the others after a cycle in which the port may send. -/
structure CycleLeaves (p : Nat) (s u : State) : Prop where
  legPkts : (fldPort u p).legPkts = (fldPort s p).legPkts.drop (1 + (fldPort s p).burstCount)
  queue : ∃ l, (fldPort u p).queue = (fldPort s p).queue.drop (1 + (fldPort s p).burstCount - (fldPort s p).legPkts.length) ++ l
    ∧ ((∀ h ∈ (fldPort s p).legPkts ++ (fldPort s p).queue, h.ptp = none) → l = [])
  others : ∀ q, q ≠ p → fldPort u q = fldPort s q

theorem cycleLeaves_of_fldCount {u : State} {i k : Nat} (h : CycleLeaves p (fldCount s p i k) u) : CycleLeaves p s u := by
  obtain ⟨hleg, hqueue, hothers⟩ := h
  refine ⟨by simpa using hleg, by simpa using hqueue, fun q hq => (hothers q hq).trans (fldPort_fldCount_ne _ _ _ _ hq)⟩

section
variable (h : (fldPort s p).staged = none) (hplca : (fldPort s p).plca = true) (hmay : fldMaySend s p = true)
include h hplca hmay

theorem plcaCycle_of_opportunity : plcaCycle p false s = fldSendAll (cycleBegun p s) p (cycleFrames (fldPort s p)) := by
  unfold plcaCycle
  simp only [h]
  exact if_neg (by simp [hplca, hmay])

theorem plcaCycle_punctual :
    CycleLeaves p s (plcaCycle p false s) ∧ ∀ i, 8 ≤ i → tgetD (fldPort (plcaCycle p false s) p).ctr i 0 = tgetD (fldPort s p).ctr i 0 := by
  have hport := (fldPort_cycleBegun (s := s) (p := p) p).trans (fldPort_modFld_self ..)
  rw [plcaCycle_of_opportunity h hplca hmay]
  obtain ⟨-, -, hleg, hctr, hothers⟩ := keptByGo (offFld_offGo (fldSendAll_offSend (cycleBegun p s) p (cycleFrames (fldPort s p))))
  obtain ⟨l, hl, hnil⟩ := fldSendAll_queue p (cycleFrames (fldPort s p)) (cycleBegun p s)
  refine ⟨⟨?_, ⟨l, ?_, fun hall => hnil (.inr fun x hx => hall x (mem_waiting_of_mem_cycleFrames hx))⟩, fun q hq => ?_⟩, fun i hi => ?_⟩
  · rw [hleg, hport]
  · rw [hl, hport]
  · rw [hothers q hq, fldPort_cycleBegun, fldPort_modFld_ne _ _ hq]
  · rw [hctr i hi, hport]

theorem plcaCycle_port (overran : Bool) : CycleLeaves p s (plcaCycle p overran s) ∧
    (overran = true → tgetD (fldPort (plcaCycle p overran s) p).ctr 11 0 = inc48 (tgetD (fldPort s p).ctr 11 0) 1) := by
  cases overran with
  | false => exact ⟨(plcaCycle_punctual h hplca hmay).1, fun hno => absurd hno (by decide)⟩
  | true =>
    obtain ⟨hleaves, hctr⟩ := plcaCycle_punctual (s := fldCount s p 11 1) (p := p) (by simpa using h) (by simpa using hplca) (by simpa using hmay)
    rw [plcaCycle_overran h]
    exact ⟨cycleLeaves_of_fldCount hleaves, fun _ => (hctr 11 (by decide)).trans (ctr_fldCount_self ..)⟩

end

theorem fldDeadline_of_none (h : (fldPort s p).legPkts = []) : fldDeadline p s = s := if_pos (by simp [h])

theorem fldDeadline_of_some (h : (fldPort s p).legPkts ≠ []) :
    fldDeadline p s = fldCount (modFld s p (fun f => { f with legPkts := f.legPkts.drop 1 })) p 12 1 := if_neg (by simpa using h)

end

/-! ### Collisions and back-off (11 R232) -/

theorem fldUncount_offSend (s : State) (p : Nat) (h : TxHeld) : (fldUncount s p h).offFld FldPort.offSend p = s.offFld FldPort.offSend p :=
  (fldCount_offFld _ p _ (offSend_dropsSent 7 (by decide))).trans (fldCount_offFld s p _ (offSend_dropsSent 6 (by decide)))

/-- Port `p` with the collision of `h` counted, the frames on the medium no longer counted as sent, and the jam sent. -/
def jammed (p : Nat) (h : TxHeld) (s : State) : State :=
  emit ((h :: (fldPort s p).behind).foldl (fun s h => fldUncount s p h) (fldCount s p 8 1)) (.fldSignal p 1)

theorem jammed_offSend (s : State) (p : Nat) (h : TxHeld) : (jammed p h s).offFld FldPort.offSend p = (fldCount s p 8 1).offFld FldPort.offSend p := by
  rw [jammed, emit_offFld]
  exact foldl_keeps (State.offFld FldPort.offSend p) (fun s h => fldUncount_offSend s p h) _ _

/-- The frames that waited behind the one that met the collision, but for those to be made anew. -/
abbrev behindLeft (x : FldPort) : List TxHeld := x.behind.filter (!·.follow)

/-- Port `p` with the frame on the medium dropped: those behind it follow. -/
def dropped (p : Nat) (h : TxHeld) (s : State) : State :=
  fldGo (modFld (jammed p h s) p (fun f => { f with cur := none, backing := false, behind := [] })) p (behindLeft (fldPort s p))

/-- The frames that are sent behind the one whose back-off ends: under PLCA they wait for an opportunity of their own (R233). -/
def resent (x : FldPort) : List TxHeld := if x.plca then [] else x.queue

/-- Port `p` as a back-off ends, with `rest` to be sent behind the frame on the medium. -/
def backoffBegun (p : Nat) (rest : List TxHeld) (s : State) : State :=
  modFld s p (fun f => { f with backing := false, behind := rest, queue := f.queue.drop rest.length })

theorem queue_drop_resent (x : FldPort) : x.queue.drop (resent x).length = if x.plca then x.queue else [] := by
  unfold resent
  split <;> simp

section
variable {s : State} {p : Nat}

theorem collide_of_idle (h : (fldPort s p).cur = none ∨ fldMaySend s p = false) (late : Bool) : collide p late s = s := by
  unfold collide
  dsimp only
  split
  · rfl
  · next x hcur =>
    rcases h with h | h
    · simp [h] at hcur
    · exact if_pos (by simp [h])

theorem backoffEnd_of_idle (h : (fldPort s p).cur = none ∨ fldMaySend s p = false ∨ (fldPort s p).backing = false) : backoffEnd p s = s := by
  unfold backoffEnd
  dsimp only
  split
  · next x hcur =>
    rcases h with h | h | h
    · simp [h] at hcur
    · exact if_neg (by simp [h])
    · exact if_neg (by simp [h])
  · rfl

section
variable {b : TxHeld} (hcur : (fldPort s p).cur = some b) (hmay : fldMaySend s p = true)
include hcur hmay

theorem collide_of_late : collide p true s = fldCount (dropped p b s) p 10 1 := by
  unfold collide
  simp only [hcur]
  rw [if_neg (by simp [hmay]), if_pos trivial]
  rfl

theorem collide_of_sixteenth (hlast : 15 ≤ (fldPort s p).attempts) : collide p false s = fldCount (dropped p b s) p 9 1 := by
  unfold collide
  simp only [hcur]
  rw [if_neg (by simp [hmay]), if_neg (by decide), if_pos hlast]
  rfl

/-- The number of slots is drawn; the frame keeps its place and those behind it wait. -/
theorem collide_of_early (hmore : (fldPort s p).attempts < 15) :
    collide p false s = modFld (drawBelow (jammed p b s) (2 ^ min ((fldPort s p).attempts + 1) 10)).2 p (fun f => { f with
      attempts := f.attempts + 1, backing := true, queue := behindLeft (fldPort s p) ++ f.queue, behind := [] }) := by
  unfold collide
  simp only [hcur]
  rw [if_neg (by simp [hmay]), if_neg (by decide), if_neg (Nat.not_le.mpr hmore)]
  rfl

theorem backoffEnd_of_backing (hback : (fldPort s p).backing = true) :
    backoffEnd p s = fldSendAll (backoffBegun p (resent (fldPort s p)) s) p (b :: resent (fldPort s p)) := by
  unfold backoffEnd
  simp only [hcur]
  rw [if_pos ⟨hback, hmay⟩]
  rfl

end
end

theorem jammed_kept (s : State) (p : Nat) (h : TxHeld) : KeptByGo p (fldCount s p 8 1) (jammed p h s) := keptByGo (offFld_offGo (jammed_offSend s p h))

/-- What a drop leaves of the port and of the others. -/
theorem dropped_port (s : State) (p : Nat) (h : TxHeld) :
    (fldPort (dropped p h s) p).cur = (behindLeft (fldPort s p)).head? ∧ tgetD (fldPort (dropped p h s) p).ctr 8 0 = inc48 (tgetD (fldPort s p).ctr 8 0) 1
      ∧ (∀ i, 8 < i → tgetD (fldPort (dropped p h s) p).ctr i 0 = tgetD (fldPort s p).ctr i 0) ∧ ∀ q, q ≠ p → fldPort (dropped p h s) q = fldPort s q := by
  obtain ⟨-, -, -, hctr, hothers⟩ := keptByGo ((fldGo_offGo _ p (behindLeft (fldPort s p))).trans
    (modFld_offFld (s := jammed p h s) (p := p) (f := fun f => { f with cur := none, backing := false, behind := [] }) rfl))
  obtain ⟨-, -, -, hctr', hothers'⟩ := jammed_kept s p h
  refine ⟨fldGo_cur p (by simp) _, ?_, fun i hi => ?_, fun q hq => ?_⟩
  · exact (hctr 8 (by decide)).trans ((hctr' 8 (by decide)).trans (ctr_fldCount_self ..))
  · exact (hctr i hi.le).trans ((hctr' i hi.le).trans (ctr_fldCount_ne _ _ _ _ hi.ne'))
  · exact (hothers q hq).trans ((hothers' q hq).trans (fldPort_fldCount_ne _ _ _ _ hq))

section
variable {s : State} {p : Nat} {b : TxHeld} (hcur : (fldPort s p).cur = some b) (hmay : fldMaySend s p = true)
include hcur hmay

/-- What a collision that is neither late nor the sixteenth leaves of the port and of the others. -/
theorem collide_early_port (hmore : (fldPort s p).attempts < 15) :
    (fldPort (collide p false s) p).cur = some b ∧ (fldPort (collide p false s) p).attempts = (fldPort s p).attempts + 1
      ∧ (fldPort (collide p false s) p).backing = true ∧ tgetD (fldPort (collide p false s) p).ctr 8 0 = inc48 (tgetD (fldPort s p).ctr 8 0) 1
      ∧ ∀ q, q ≠ p → fldPort (collide p false s) q = fldPort s q := by
  have hjam := fldPort_of_offFld (jammed_offSend s p b)
  have hcount := fldPort_fldCount s p 8 1
  have hcur' : (fldPort (jammed p b s) p).cur = some b := (congrArg FldPort.cur hjam :).trans ((congrArg FldPort.cur hcount :).trans hcur)
  have hattempts : (fldPort (jammed p b s) p).attempts = (fldPort s p).attempts :=
    (congrArg FldPort.attempts hjam :).trans (congrArg FldPort.attempts hcount :)
  obtain ⟨-, -, -, hctr, hothers⟩ := jammed_kept s p b
  rw [collide_of_early hcur hmay hmore]
  refine ⟨?_, ?_, ?_, ?_, fun q hq => ?_⟩
  · rw [fldPort_modFld_self, fldPort_drawBelow]; exact hcur'
  · rw [fldPort_modFld_self, fldPort_drawBelow]; exact congrArg (· + 1) hattempts
  · rw [fldPort_modFld_self]
  · rw [fldPort_modFld_self, fldPort_drawBelow]; exact (hctr 8 (by decide)).trans (ctr_fldCount_self ..)
  · rw [fldPort_modFld_ne _ _ hq, fldPort_drawBelow]; exact (hothers q hq).trans (fldPort_fldCount_ne _ _ _ _ hq)

/-- What the end of a back-off leaves of the port and of the others: under CSMA/CD no frame waits any more. -/
theorem backoffEnd_port (hback : (fldPort s p).backing = true) :
    (fldPort (backoffEnd p s) p).backing = false ∧ (fldPort (backoffEnd p s) p).cur = some b ∧ (fldPort (backoffEnd p s) p).attempts = (fldPort s p).attempts
      ∧ (∃ l, (fldPort (backoffEnd p s) p).queue = (if (fldPort s p).plca then (fldPort s p).queue else []) ++ l
          ∧ ((fldPort s p).plca = false ∨ b.ptp = none → l = []))
      ∧ ∀ q, q ≠ p → fldPort (backoffEnd p s) q = fldPort s q := by
  rw [backoffEnd_of_backing hcur hmay hback]
  have hbegun : fldPort (backoffBegun p (resent (fldPort s p)) s) p = _ := fldPort_modFld_self ..
  have hsent := fldPort_of_offFld (fldSendAll_offSend (backoffBegun p (resent (fldPort s p)) s) p (b :: resent (fldPort s p)))
  obtain ⟨l, hl, hnil⟩ := fldSendAll_queue p (b :: resent (fldPort s p)) (backoffBegun p (resent (fldPort s p)) s)
  rw [hbegun] at hsent hl hnil
  refine ⟨(congrArg FldPort.backing hsent :), (congrArg FldPort.cur hsent :).trans hcur, (congrArg FldPort.attempts hsent :),
    ⟨l, by rw [hl, queue_drop_resent], fun hno => hnil ?_⟩, fun q hq => ?_⟩
  · cases hplca : (fldPort s p).plca with
    | false => exact .inl rfl
    | true => exact .inr (by simpa [resent, hplca] using hno)
  · exact (fldPort_ne_of_offFld (fldSendAll_offSend ..) hq).trans (fldPort_modFld_ne _ _ hq _)

end

/-- Settles O41: a received frame is read off the first step of `fldFrame` that takes it, an event of PLCA or CSMA/CD off its own change of the
port, of which sending keeps all that the statement speaks of. The limits of a frame's length and the count of bad key frames are the model's
choice (log entry 75), and so are the receive buffer (21) and the frames behind a collision (24). -/
theorem fieldFramesAndAccess : Obligations.FieldFramesAndAccess := by
  unfold Obligations.FieldFramesAndAccess
  intro p s hp hrun x ctr up alone
  refine ⟨fun f opp => ?frames, fun h => ?fallBack, fun h => ?stays, fun h => ?resumed, fun h => ?unresumed, fun hrole hplca => ?beacon,
    fun hrole hplca => ?foreign, fun hstaged hplca hmay overran => ?cycle, fun hstaged hno => ?silent, fun hleg => ?late, fun hleg => ?noLeg,
    fun hno late => ?idle, fun b hcur hmay => ?access⟩
  case frames =>
    intro len fill e a d n k
    refine ⟨fun hbad => ?_, fun hfcs hmin hmax hfull => ?_, fun hfcs hmin hmax hroom => ⟨fun hunready => ?_, fun hstage hconf => ⟨fun hasleep hkey => ?_,
      fun hawake hptp hkey hstream hring => ?_, fun hptp hkey => ?_⟩⟩⟩
    · exact exec_frame hp hrun (fldFrame_of_bad hbad)
    · exact exec_frame hp hrun (fldFrame_of_full hfcs hmin hmax hfull)
    · exact exec_frame hp hrun (fldFrame_of_unready hfcs hmin hmax hroom hunready)
    · exact exec_frame hp hrun (fldFrame_of_asleep hfcs hmin hmax hroom hstage hconf hasleep hkey)
    · exact exec_frame hp hrun (fldFrame_of_unmatched hfcs hmin hmax hroom hstage hconf hptp hawake hkey hstream hring)
    · have htaken : fldFrame p f opp (begun s) = keyFrame p opp f.bytes a := fldFrame_of_key hfcs hmin hmax hroom hstage hconf hptp hkey
      have hplca : (fldPort a p).plca = x.plca := fldPort_fldBuffered_plca ..
      refine ⟨fun hbad => ?_, fun hversion htype hzero => ⟨fun hon hopp => ?_, fun hown hknown hpresent hold => ?_, fun hown hfirst hnew => ?_⟩⟩
      · exact exec_frame hp hrun (htaken.trans (keyFrame_of_malformed hbad))
      · exact exec_frame hp hrun (htaken.trans (keyFrame_of_spoofed ⟨hversion, htype, hzero⟩ (hplca.trans hon) hopp))
      · exact exec_frame hp hrun (htaken.trans (keyFrame_of_stale ⟨hversion, htype, hzero⟩ (hown.imp_left hplca.trans) hknown hpresent hold))
      · obtain ⟨m, hm⟩ := keyFrame_of_first (s := a) ⟨hversion, htype, hzero⟩ (hown.imp_left hplca.trans) hfirst hnew
        refine ⟨_, exec_frame hp hrun htaken, ?_⟩
        rw [settled_keys]
        exact congrArg _ hm
  case fallBack =>
    have hexec := exec_plcaBeaconTimeout hrun p
    rw [beaconTimeout_of_plca (s := begun s) hp h] at hexec
    obtain ⟨hplca, hlost, hctr, -, hothers⟩ := fldFall_fellBack (begun s) p x.tenant 0x814 p 0 0
    refine ⟨_, hexec, ?_⟩
    simp only [up, ctr, alone, fldPort_settled]
    exact ⟨hplca, hlost, hctr, hothers⟩
  case stays => rw [exec_plcaBeaconTimeout hrun, beaconTimeout_of_not (s := begun s) h]
  case resumed =>
    have hexec := exec_beaconResume hrun p
    rw [beaconResume_of_lost (s := begun s) hp h] at hexec
    refine ⟨_, hexec, ?_⟩
    simp only [alone, fldPort_settled, fldPort_evT, fldPort_modFld_self]
    exact ⟨trivial, trivial, fun q hq => fldPort_modFld_ne _ _ hq _⟩
  case unresumed => rw [exec_beaconResume hrun, beaconResume_of_not (s := begun s) h]
  case beacon =>
    have hport := fldBeacon_of_follower (s := begun s) hrole hplca
    refine ⟨_, exec_fldRxFrame hp hrun .beacon, ?_⟩
    simp only [alone, fldReceive, fldPort_settled, hport, fldPort_modFld_self]
    exact ⟨trivial, fun q hq => fldPort_modFld_ne _ _ hq _⟩
  case foreign =>
    have hexec := exec_fldRxFrame hp hrun .beacon
    rw [fldReceive, fldBeacon_of_coordinator (s := begun s) hrole hplca] at hexec
    obtain ⟨hoff, hlost, hfell, hheard, hothers⟩ := fldFall_fellBack (fldCount (begun s) p 17 1) p x.tenant 0x814 p 0 1
    refine ⟨_, hexec, ?_⟩
    simp only [up, ctr, alone, fldPort_settled]
    exact ⟨hoff, hlost, hheard.trans (ctr_fldCount_self ..), hfell.trans (by rw [ctr_fldCount_ne _ _ _ _ (by decide), fldPort_begun]),
      fun q hq => (hothers q hq).trans (fldPort_fldCount_ne _ _ _ _ hq)⟩
  case cycle =>
    obtain ⟨⟨hleg, hqueue, hothers⟩, hctr⟩ := plcaCycle_port (s := begun s) hstaged hplca hmay overran
    refine ⟨_, exec_plcaCycle hrun hp overran, ?_⟩
    simp only [up, ctr, alone, fldPort_settled]
    exact ⟨hleg, hqueue, hctr, hothers⟩
  case silent => rw [exec_plcaCycle hrun hp, plcaCycle_of_silent (s := begun s) hstaged hno]
  case late =>
    have hexec := exec_fldPacketDeadline hrun p
    rw [fldDeadline_of_some (s := begun s) hleg] at hexec
    refine ⟨_, hexec, ?_⟩
    simp only [up, ctr, alone, fldPort_settled, fldCount_legPkts, ctr_fldCount_self, fldPort_modFld_self]
    exact ⟨rfl, rfl, fun q hq => (fldPort_fldCount_ne _ _ _ _ hq).trans (fldPort_modFld_ne _ _ hq _)⟩
  case noLeg => rw [exec_fldPacketDeadline hrun, fldDeadline_of_none (s := begun s) hleg]
  case idle =>
    rw [exec_collision hrun, collide_of_idle (s := begun s) hno, exec_backoffExpiry hrun,
      backoffEnd_of_idle (s := begun s) (hno.imp_right .inl)]
    exact ⟨rfl, rfl⟩
  case access =>
    obtain ⟨hnext, hmet, hctr, hothers⟩ := dropped_port (begun s) p b
    refine ⟨?lateCollision, fun hlast => ?sixteenth, fun hmore => ?backsOff, fun hback => ?again, fun hback => ?notBacking⟩
    case lateCollision =>
      have hexec := exec_collision hrun p true
      rw [collide_of_late (s := begun s) hcur hmay] at hexec
      refine ⟨_, hexec, ?_⟩
      simp only [up, ctr, alone, fldPort_settled, fldCount_cur, ctr_fldCount_self, hctr 10 (by decide)]
      exact ⟨hnext, (ctr_fldCount_ne _ _ _ _ (by decide)).trans hmet, rfl, fun q hq => (fldPort_fldCount_ne _ _ _ _ hq).trans (hothers q hq)⟩
    case sixteenth =>
      have hexec := exec_collision hrun p false
      rw [collide_of_sixteenth (s := begun s) hcur hmay hlast] at hexec
      refine ⟨_, hexec, ?_⟩
      simp only [up, ctr, alone, fldPort_settled, fldCount_cur, ctr_fldCount_self, hctr 9 (by decide)]
      exact ⟨hnext, (ctr_fldCount_ne _ _ _ _ (by decide)).trans hmet, rfl, fun q hq => (fldPort_fldCount_ne _ _ _ _ hq).trans (hothers q hq)⟩
    case backsOff =>
      refine ⟨_, exec_collision hrun p false, ?_⟩
      simp only [up, ctr, alone, fldPort_settled]
      exact collide_early_port (s := begun s) hcur hmay hmore
    case again =>
      refine ⟨_, exec_backoffExpiry hrun p, ?_⟩
      simp only [alone, fldPort_settled]
      exact backoffEnd_port (s := begun s) hcur hmay hback
    case notBacking => rw [exec_backoffExpiry hrun, backoffEnd_of_idle (s := begun s) (.inr (.inr hback))]

end Sys2Proof.Machine
end

section
/-! Station keys, the absence of a node (11 R240): which of its keys are released, and a delivered state that names more than the 16 keys of R239. -/
namespace Sys2Proof.Machine

/-- Bits set one after the other, those of mask `m` among `l`. -/
theorem bit_foldl_setBit (m : Nat) (on : Nat → Bool) (j : Nat) (l : List Nat) :
    ∀ d, bit (l.foldl (fun d i => if bit m i then setBit d i (on i) else d) d) j = if j ∈ l ∧ bit m j = true then on j else bit d j := by
  induction l with
  | nil => intro d; simp
  | cons i l ih =>
    intro d
    rw [List.foldl_cons, ih]
    by_cases hi : j = i
    · subst hi
      cases hm : bit m j <;> simp [bit_setBit]
    · cases hm : bit m i <;> simp [bit_setBit, hi]

theorem bit_deliveredBy (k : KeyNode) (m j : Nat) : bit (deliveredBy k m) j =
    if j < 16 ∧ bit m j = true then bit k.raw j && !bit k.blocked j && !bit k.latched j && !k.absent else bit k.delivered j := by
  simpa [deliveredBy] using bit_foldl_setBit m (fun i => bit k.raw i && !bit k.blocked i && !bit k.latched i && !k.absent) j (List.range 16) k.delivered

/-- A node as it becomes absent, its keys not yet released. -/
def goneNode (k : KeyNode) : KeyNode := { k with absent := true, first := true, latched := 0, blocked := 0, raw := 0 }

/-- The absence of a node releases its 16 keys; what else the delivered state names stays. -/
theorem bit_deliveredBy_goneNode (k : KeyNode) (j : Nat) : bit (deliveredBy (goneNode k) 0xFFFF) j = (decide (16 ≤ j) && bit k.delivered j) := by
  rw [bit_deliveredBy]
  by_cases hj : j < 16
  · have hmask : ∀ i, i < 16 → bit 0xFFFF i = true := by decide
    simp [goneNode, hj, hmask j hj]
  · simp [goneNode, hj, Nat.not_lt.mp hj]

section
variable {s : State} {p n : Nat} {k : KeyNode} (h : tget s.keys (256 * p + n) = some k) (hpresent : k.absent = false)
include h hpresent

theorem tget_nodeAbsent : tget (nodeAbsent p n s).keys (256 * p + n) = some { goneNode k with delivered := deliveredBy (goneNode k) 0xFFFF } := by
  unfold nodeAbsent
  simp only [h, hpresent]
  exact tget_deliverNode (tget_tset_self ..) 2

end

/-- A delivered state of the 16 keys alone becomes 0, as the statement has it. -/
theorem deliveredBy_goneNode_of_lt {k : KeyNode} (h : k.delivered < 2 ^ 16) : deliveredBy (goneNode k) 0xFFFF = 0 := by
  have hbit (n j : Nat) : n.testBit j = bit n j := by rw [Nat.testBit_eq_decide_div_mod_eq]; rfl
  refine Nat.eq_of_testBit_eq fun j => ?_
  rw [hbit, bit_deliveredBy_goneNode, Nat.zero_testBit, ← hbit]
  by_cases hj : 16 ≤ j
  · rw [Nat.testBit_lt_two_pow (h.trans_le (Nat.pow_le_pow_right (by decide) hj)), Bool.and_false]
  · simp [hj]

theorem exec_keyTimeout {s : State} {p n : Nat} (hrun : s.clk.running = true) (hp : p < 16) (hn : n < 256) :
    exec (.keyTimeout p n) s = .next (settled s (nodeAbsent p n (begun s))) :=
  (runMere_of_running hrun _).trans (by rw [if_pos ⟨hp, hn⟩]; rfl)

/-- A node whose delivered state names key 16, which no node has. -/
def strayNode : KeyNode := { delivered := 2 ^ 16 }

/-- A device that runs, with that node present on field port 0. -/
def strayHeld : State :=
  { State.reset with
    clk := { State.reset.clk with started := true, running := true }
    keys := [(0, strayNode)] }

/-- Refutes O42 at `strayHeld`, in the clause on KEY_TIMEOUT. The clause says of every state that the absent node's delivered state is 0; the
release goes over the 16 keys of a node, and a delivered state that names another one, as `bit_deliveredBy_goneNode` says, keeps it. The clause
wants the delivered state below 2^16, as `deliveredBy_goneNode_of_lt` has it. -/
theorem not_keysAbsentStuckAndDebounced : ¬ Obligations.KeysAbsentStuckAndDebounced := by
  unfold Obligations.KeysAbsentStuckAndDebounced
  intro h
  obtain ⟨hnodes, -, -⟩ := h strayHeld rfl rfl
  obtain ⟨htimeout, -, -⟩ := hnodes 0 0 (by decide) (by decide)
  obtain ⟨t, hexec, hnode, -⟩ := htimeout strayNode rfl rfl
  obtain rfl : settled strayHeld (nodeAbsent 0 0 (begun strayHeld)) = t :=
    Host.Outcome.next.inj ((exec_keyTimeout rfl (by decide) (by decide)).symm.trans hexec)
  have hzero : deliveredBy (goneNode strayNode) 0xFFFF = 0 := by
    rw [settled_keys, tget_nodeAbsent (k := strayNode) rfl rfl, Option.map_some, Option.some.injEq, Prod.mk.injEq] at hnode
    exact hnode.1
  have hstays := bit_deliveredBy_goneNode strayNode 16
  rw [hzero] at hstays
  exact absurd hstays (by decide)

end Sys2Proof.Machine
end

section
/-! One step of the device (95, 20 R376): it runs the front command, and it ends at rest. -/
namespace Sys2Proof.Machine

/-- Settles O3: every arm of `exec` ends in the one form of a step or in the one fault (`exec_ends`), and what every step ends with delivers
the events and drives the pins (`step_atRest`). -/
theorem everyStepEndsAtRest : Obligations.EveryStepEndsAtRest := by
  unfold Obligations.EveryStepEndsAtRest
  exact fun _ _ => step_atRest

/-- Settles O1, by unfolding `step` on a queue with a command at its front. -/
theorem stepRunsTheFrontCommand : Obligations.StepRunsTheFrontCommand := by
  unfold Obligations.StepRunsTheFrontCommand
  intros
  rfl

/-- Settles O4: the clocks of the device at reset have not started, so FAULT_N is low as it is driven. -/
theorem resetIsAtRest : Obligations.ResetIsAtRest := by
  unfold Obligations.ResetIsAtRest
  exact ⟨⟨rfl, rfl⟩, rfl, rfl⟩

end Sys2Proof.Machine
end

section
/-! Local ports (12 R252 to R257, R263 to R267): what each operation on a port leaves of it and of the others. -/
namespace Sys2Proof.Machine

/-! ### Completion records and free values change no table -/

theorem finish_tables (s : State) (p : PendCmd) (status aux : Nat) : (finish s p status aux).tables = s.tables := by
  unfold finish complete
  dsimp only
  split
  · rfl
  · split
    · exact laneOut_tables _ _ _ _
    · rfl

theorem finish_foldl_tables (st aux : Nat) (l : List PendCmd) (s : State) :
    (l.foldl (fun s p => finish s p st aux) s).tables = s.tables :=
  foldl_keeps State.tables (fun s p => finish_tables s p st aux) l s

theorem drawFrame_lps (w : Nat) : ∀ (n : Nat) (s : State), (drawFrame w n s).2.lps = s.lps := by
  intro n
  induction n with
  | zero => exact fun s => rfl
  | succ n ih => exact fun s => (ih _).trans (foldl_keeps (fun y : List F32 × State => y.2.lps) (by intros; rfl) _ _)

/-! ### One port changed -/

theorem lp_congr {s u : State} (h : u.lps = s.lps) (k : Nat) : lp u k = lp s k := by rw [lp, h, lp]

section
variable (s : State) (k j : Nat)

@[simp] theorem lp_settled (u : State) : lp (settled s u) k = lp u k := lp_congr (settled_lps s u) k
@[simp] theorem lp_begun : lp (begun s) k = lp s k := rfl
@[simp] theorem lp_emit (o : Out) : lp (emit s o) k = lp s k := rfl
@[simp] theorem lp_evD (typ obj status aux : Nat) : lp (evD s typ obj status aux) k = lp s k := rfl
@[simp] theorem lp_evT (t typ obj status aux : Nat) : lp (evT s t typ obj status aux) k = lp s k := rfl
@[simp] theorem lp_lpEv (typ aux : Nat) : lp (lpEv s j typ aux) k = lp s k := rfl
@[simp] theorem lp_modTwin (f : Twin → Twin) : lp (modTwin s f) k = lp s k := rfl
@[simp] theorem lp_modLp_self (f : LpPort → LpPort) : lp (modLp s k f) k = f (lp s k) := tgetD_tset_self _ _ _ _

@[simp] theorem lp_lpShow : lp (lpShow s j) k = lp s k := by
  unfold lpShow; split <;> rfl

@[simp] theorem lp_stopCheck : lp (stopCheck s) k = lp s k :=
  lp_congr (congrArg State.lps (finish_foldl_tables 0 0 _ s) :) k

end

/-- A port with bit `b` of LP_INT_STATUS set. -/
def LpPort.withInt (l : LpPort) (b : Nat) : LpPort := { l with int := if bit l.int b then l.int else setBit l.int b true }

/-- A port with counter `i` advanced by `n` (12 R270). -/
def LpPort.counted (l : LpPort) (i n : Nat) : LpPort := { l with ctr := tset l.ctr i (inc48 (tgetD l.ctr i 0) n) }

theorem LpPort.bit_withInt (l : LpPort) (b j : Nat) : bit (l.withInt b).int j = if j = b then true else bit l.int j := by
  unfold LpPort.withInt
  dsimp only
  split
  · rename_i h
    split
    · rename_i hj; rw [hj, h]
    · rfl
  · rw [bit_setBit]

@[simp] theorem LpPort.bit_withInt_self (l : LpPort) (b : Nat) : bit (l.withInt b).int b = true := by
  rw [l.bit_withInt, if_pos rfl]

/-- The fields of a clock fault (12 R255). -/
def LpPort.faulted (k cause : Nat) (l : LpPort) : LpPort :=
  ((LpPort.counted { l with state := 6, cnt := 0, fadeOut := if l.state = 3 then 0 else 16, settled := l.settled && !isAesOut k }
    (if cause = 0 then 1 else cause) 1).withInt 1)

section
variable (s : State) (k : Nat)

@[simp] theorem lp_lpCount_self (i n : Nat) : lp (lpCount s k i n) k = (lp s k).counted i n := lp_modLp_self _ _ _

@[simp] theorem lp_lpInt_self (b : Nat) : lp (lpInt s k b) k = (lp s k).withInt b := by
  unfold lpInt LpPort.withInt
  dsimp only
  split
  · rfl
  · split <;> simp

theorem lp_lpFault_self (cause : Nat) (h : (lp s k).state = 3 ∨ ((lp s k).state = 2 ∧ 0 < (lp s k).cnt)) :
    lp (lpFault s k cause) k = (lp s k).faulted k cause := by
  rw [lpFault, if_pos h]
  simp [LpPort.faulted]

/-- A port begins to run with its counters as they were, to fade its input in, and marks it in LP_INT_STATUS. -/
theorem lp_lpRun_self : ∃ conv est, lp (lpRun s k) k =
    LpPort.withInt { lp s k with
      state := 3, cnt := 0, fadeIn := 0, fadeOut := 16, fifo := [], inNext := none, edge := none, conv := conv, est := est } 2 := by
  unfold lpRun
  simp only [lp_lpEv, lp_lpInt_self, lp_modLp_self]
  exact ⟨_, _, rfl⟩

/-- A port is stopped, early or not. -/
theorem lp_lpStopped_self (early : Bool) (h : (lp s k).state = 4 ∨ (lp s k).stopReq = true) :
    lp (lpStopped k early s) k =
      LpPort.withInt { (if early then (lp s k).counted 6 1 else lp s k) with
        state := 5, cnt := 0, stopReq := false, start := none, startLive := false } 3 := by
  rw [lpStopped, if_pos h]
  cases early <;> simp

theorem lpStopped_of_not {early : Bool} (h4 : (lp s k).state ≠ 4) (hreq : (lp s k).stopReq = false) : lpStopped k early s = s :=
  if_neg (by simp [h4, hreq])

variable {j : Nat} (hj : j ≠ k)
include hj

theorem lp_modLp_ne (f : LpPort → LpPort) : lp (modLp s k f) j = lp s j := tgetD_tset_ne _ _ _ hj

theorem lp_lpCount_ne (i n : Nat) : lp (lpCount s k i n) j = lp s j := lp_modLp_ne s k hj _

theorem lp_lpInt_ne (b : Nat) : lp (lpInt s k b) j = lp s j := by
  unfold lpInt
  dsimp only
  split
  · rfl
  · split <;> simp [lp_modLp_ne s k hj]

theorem lp_lpFault_ne (cause : Nat) : lp (lpFault s k cause) j = lp s j := by
  unfold lpFault
  dsimp only
  split
  · simp [lp_lpInt_ne _ k hj, lp_lpCount_ne _ k hj, lp_modLp_ne _ k hj]
  · rfl

theorem lp_lpRun_ne : lp (lpRun s k) j = lp s j := by
  simp [lpRun, lp_lpInt_ne _ k hj, lp_modLp_ne _ k hj]

theorem lp_lpStopped_ne (early : Bool) : lp (lpStopped k early s) j = lp s j := by
  unfold lpStopped
  dsimp only
  split
  · cases early <;> simp [lp_lpInt_ne _ k hj, lp_lpCount_ne _ k hj, lp_modLp_ne _ k hj]
  · rfl

end

/-! ### What the samples of a frame change of a port -/

/-- A port without what its captured and driven samples change. -/
def LpPort.offData (l : LpPort) : LpPort :=
  { l with edge := none, est := {}, conv := {}, fifo := [], inNext := none, outPos := none, outSlip := none, outAcc := none, outWait := 0
           delay := 0, outc := {}, sent := [], before := [], proof := 0 }

section
variable {l m : LpPort} (h : l.offData = m.offData)
include h

theorem LpPort.state_of_offData : l.state = m.state := (congrArg LpPort.state h :)
theorem LpPort.cnt_of_offData : l.cnt = m.cnt := (congrArg LpPort.cnt h :)
theorem LpPort.mid_of_offData : l.mid = m.mid := (congrArg LpPort.mid h :)
theorem LpPort.int_of_offData : l.int = m.int := (congrArg LpPort.int h :)
theorem LpPort.ctr_of_offData : l.ctr = m.ctr := (congrArg LpPort.ctr h :)
theorem LpPort.frames_of_offData : l.frames = m.frames := (congrArg LpPort.frames h :)

end

/-- Two states whose ports differ in samples of port `k` alone. -/
def SameButData (k : Nat) (s u : State) : Prop := (lp u k).offData = (lp s k).offData ∧ ∀ j, j ≠ k → lp u j = lp s j

section
variable {k : Nat} {s u v : State}

theorem SameButData.trans (h : SameButData k s u) (h' : SameButData k u v) : SameButData k s v :=
  ⟨h'.1.trans h.1, fun j hj => (h'.2 j hj).trans (h.2 j hj)⟩

theorem SameButData.of_eq (h : ∀ j, lp u j = lp s j) : SameButData k s u := ⟨by rw [h], fun j _ => h j⟩

theorem SameButData.of_mod {f : LpPort → LpPort} (h : (f (lp s k)).offData = (lp s k).offData) : SameButData k s (modLp s k f) :=
  ⟨by rw [lp_modLp_self, h], fun _ hj => lp_modLp_ne s k hj f⟩

theorem LpPort.slips_offData (l : LpPort) (drop : Bool) : (l.slips drop).offData = l.offData := by
  unfold LpPort.slips; split <;> rfl

theorem drawFrame_sameButData (w n : Nat) : SameButData k s (drawFrame w n s).2 :=
  .of_eq (lp_congr (drawFrame_lps w n s))

/-- The samples an output sends change nothing but what samples change. -/
theorem lpOutNow_sameButData (k : Nat) (s : State) : SameButData k s (lpOutNow k s).2 := by
  unfold lpOutNow
  extract_lets l x w b fs acc ratio goal cv v follows l1 l2 p path wait
  by_cases hw : w = 0
  · rw [if_pos hw]; exact .of_eq fun _ => rfl
  rw [if_neg hw]
  by_cases hleg : l.legacy = true
  · rw [if_pos hleg]; exact drawFrame_sameButData _ _
  rw [if_neg hleg]
  have h2 : l2.offData = l1.offData := by
    show LpPort.offData (match l1.outSlip with | some (q, drop) => if q ≤ l1.outAt - l1.delay then l1.slips drop else l1 | none => l1) = _
    split
    · split
      · exact l1.slips_offData _
      · rfl
    · rfl
  split
  split
  exact .of_mod h2

/-- The samples port `k` drives in the pin frame that begins now: those of its source, or zeros, with which its sequence starts anew. -/
def pinSamples (k : Nat) (s : State) : List F32 × State :=
  let l := lp s k
  if l.state == 3 || (l.state == 2 && decide (lpUnmute k l.cfg ≤ l.cnt)) then lpOutNow k s
  else (zeroInstant (lpOuts k l.cfg), modLp s k (fun l => { l with
    outPos := none, outSlip := none, outAcc := none, delay := 0, outc := { l.outc with pos := none, pos2 := none, fade := 0, realign := false } }))

/-- The words of port `k` for the samples `xs`. -/
def pinWords (k : Nat) (l : LpPort) (xs : List F32) : List (BitVec 32) :=
  (if isSai k then slotsOf (fld l.cfg 16 4) else [0, 1]).mapIdx (fun i _ => pinWord (xs.getD i 0) (lpWidth k l.cfg))

theorem pinSamples_sameButData (k : Nat) (s : State) : SameButData k s (pinSamples k s).2 := by
  unfold pinSamples
  dsimp only
  split
  · exact lpOutNow_sameButData k s
  · exact .of_mod rfl

/-- What a port sends in a pin frame leaves the device; the port keeps the words and the proof pattern. -/
theorem lpEmit_lps {k : Nat} {s : State} (h : ¬ (isAesIn k || (lp s k).cfg.isEmpty) = true) :
    (lpEmit k s).lps = (modLp (pinSamples k s).2 k (fun l => { l with
      sent := pinWords k (lp s k) (pinSamples k s).1, before := l.sent, proof := proofWord (pinSamples k s).2 k })).lps := by
  unfold lpEmit
  dsimp only
  rw [if_neg h]
  simp only [apply_ite State.lps, emit_lps, ite_self]
  rfl

theorem lpEmit_sameButData (k : Nat) (s : State) : SameButData k s (lpEmit k s) := by
  by_cases h : (isAesIn k || (lp s k).cfg.isEmpty) = true
  · rw [lpEmit, if_pos h]
    exact .of_eq fun _ => rfl
  · have hlps := lp_congr (lpEmit_lps h)
    exact ((pinSamples_sameButData k s).trans (.of_mod rfl)).trans (.of_eq hlps)

/-- A data frame is counted; the rest of what it changes are samples and what is made of them. -/
theorem lpData_self (k : Nat) (y : Inst) (s : State) : (lp (lpData k y s) k).offData = ((lp s k).counted 0 1).offData := by
  unfold lpData
  dsimp only
  split
  · simp only [lp_modLp_self, lp_lpCount_self]; rfl
  · simp only [lp_modLp_self, lp_lpCount_self]; rfl

theorem lp_lpData_ne {k j : Nat} (hj : j ≠ k) (y : Inst) (s : State) : lp (lpData k y s) j = lp s j := by
  unfold lpData
  dsimp only
  split
  · rw [lp_modLp_ne _ _ hj, lp_lpCount_ne _ _ hj]
  · rw [lp_modLp_ne _ _ hj, lp_modLp_ne _ _ hj, lp_lpCount_ne _ _ hj]

@[simp] theorem lp_lpWatch (k : Nat) (f : PinFrame) (s : State) (j : Nat) : lp (lpWatch k f s) j = lp s j := by
  unfold lpWatch
  dsimp only
  split
  · rfl
  · split
    · rfl
    · split <;> rfl

end

/-! ### A pin frame of a SAI port (12 R252 to R255) -/

/-- The pin frame under way has ended and is counted among the port's pin frames. -/
def pinCounted (k : Nat) (f : PinFrame) (s : State) : State :=
  modLp s k (fun l => { l with frames := l.frames + 1, bpf := f.bclks % 2048, clk := true })

/-- The instant a SAI port captures in a pin frame. -/
def saiInstant (k : Nat) (f : PinFrame) (s : State) : Inst :=
  ⟨false, (slotsOf (fld (lp s k).cfg 12 4)).map (fun j => ofScaled (sext (lpWidth k (lp s k).cfg) (saiIn (lp s k).cfg f j)) (lpWidth k (lp s k).cfg - 1))⟩

/-- What a pin frame, good or not, does to the state of the port. -/
def pinState (k : Nat) (good : Bool) (cause : Nat) (y : Inst) (s : State) : State :=
  let l := lp s k
  if l.stopReq ∧ l.state ≠ 4 then modLp s k (fun l => { l with state := 4, cnt := 0, fadeOut := if l.state = 3 then 0 else 16 })
  else if l.state = 4 then (if lpUnmute k l.cfg ≤ l.cnt + 1 then lpStopped k false s else modLp s k (fun l => { l with cnt := l.cnt + 1 }))
  else if l.mid ∧ (l.state = 2 ∨ l.state = 6) then modLp s k (fun l => { l with mid := false })
  else if l.state = 2 then
    if !good then lpFault s k cause
    else if lpUnmute k l.cfg ≤ l.cnt then lpData k y (lpRun s k)
    else modLp s k (fun l => { l with cnt := l.cnt + 1 })
  else if l.state = 3 then (if good then lpData k y s else lpFault s k cause)
  else if l.state = 6 ∧ good then lpEv (modLp s k (fun l => { l with state := 2, cnt := 1 })) k 0x823 1
  else s

/-- The state as a pin frame of a SAI port finds it: the frame counted, the line watched. -/
def saiEdge (k : Nat) (f : PinFrame) (s : State) : State := lpWatch k f (pinCounted k f s)

theorem lp_saiEdge_self (k : Nat) (f : PinFrame) (s : State) :
    lp (saiEdge k f s) k = { lp s k with frames := (lp s k).frames + 1, bpf := f.bclks % 2048, clk := true } := by
  rw [saiEdge, lp_lpWatch, pinCounted, lp_modLp_self]

theorem lp_saiEdge_ne {k j : Nat} (hj : j ≠ k) (f : PinFrame) (s : State) : lp (saiEdge k f s) j = lp s j := by
  rw [saiEdge, lp_lpWatch, pinCounted, lp_modLp_ne _ _ hj]

theorem lpPinFrame_sai {k : Nat} (hk : k < 0x20) {f : PinFrame} (hf : f.classOk = true) {s : State} (hcfg : (lp s k).cfg ≠ []) :
    lpPinFrame k f s =
      lpEmit k (pinState k (decide (minFrame (lp s k).cfg ≤ f.bclks)) 3 (saiInstant k f (saiEdge k f s)) (saiEdge k f s)) := by
  have hsai : isSai k = true := decide_eq_true hk
  have hin : isAesIn k = false := by simp [isAesIn]; omega
  have hout : isAesOut k = false := by simp [isAesOut]; omega
  have hedge := lp_saiEdge_self k f s
  rw [saiEdge, pinCounted] at hedge
  unfold lpPinFrame lpBlock lpCapture
  simp only [if_neg (show ¬ 0x30 ≤ k by omega), hsai, hin, hout, hf, if_true, Bool.false_eq_true, if_false, hedge, lpGood, Bool.true_and,
    List.isEmpty_iff, hcfg]
  simp only [pinState, saiEdge, pinCounted, saiInstant, hedge]

theorem exec_lpPinFrame {s : State} (hrun : s.clk.running = true) (k : Nat) (f : PinFrame) :
    exec (.lpPinFrame k f) s = .next (settled s (lpPinFrame k f (begun s))) := runMere_of_running hrun _

end Sys2Proof.Machine
end

section
/-! Local ports: their states (12 R252 to R257). -/
namespace Sys2Proof.Machine

/-! ### The outcomes of a pin frame of a SAI port -/

section
variable {k : Nat} {f : PinFrame} {s : State} (hk : k < 0x20) (hf : f.classOk = true) (hcfg : (lp s k).cfg ≠ [])

/-- What a pin frame leaves of the other ports, and of its own port up to samples. -/
theorem pinState_ne {j : Nat} (hj : j ≠ k) (good : Bool) (cause : Nat) (y : Inst) (s : State) : lp (pinState k good cause y s) j = lp s j := by
  unfold pinState
  dsimp only
  repeat' split
  all_goals simp [lp_modLp_ne _ _ hj, lp_lpStopped_ne _ _ hj, lp_lpFault_ne _ _ hj, lp_lpData_ne hj, lp_lpRun_ne _ _ hj]

include hk hf hcfg

theorem lpPinFrame_ne {j : Nat} (hj : j ≠ k) : lp (lpPinFrame k f s) j = lp s j := by
  rw [lpPinFrame_sai hk hf hcfg, (lpEmit_sameButData k _).2 j hj, pinState_ne hj, lp_saiEdge_ne hj]

/-- If the state of the port after the edge is `l`, up to samples, then so it is after the frame. -/
theorem lpPinFrame_offData {l : LpPort} (h : (lp (pinState k (decide (minFrame (lp s k).cfg ≤ f.bclks)) 3
    (saiInstant k f (saiEdge k f s)) (saiEdge k f s)) k).offData = l.offData) : (lp (lpPinFrame k f s) k).offData = l.offData := by
  rw [lpPinFrame_sai hk hf hcfg, (lpEmit_sameButData k _).1, h]

end

theorem exec_lpPinFrame_port {k : Nat} {f : PinFrame} {s : State} (hrun : s.clk.running = true) (hk : k < 0x20)
    (hf : f.classOk = true) (hcfg : (lp s k).cfg ≠ []) :
    ∃ t, exec (.lpPinFrame k f) s = .next t ∧ lp t k = lp (lpPinFrame k f (begun s)) k ∧ ∀ j, j ≠ k → lp t j = lp s j :=
  ⟨_, exec_lpPinFrame hrun k f, by rw [lp_settled], fun j hj => by rw [lp_settled, lpPinFrame_ne (s := begun s) hk hf hcfg hj, lp_begun]⟩

section
variable {k : Nat} {f : PinFrame} {s : State} (hk : k < 0x20) (hf : f.classOk = true) (hcfg : (lp s k).cfg ≠ [])
include hk hf hcfg

/-- A stop takes effect at the next pin frame (12 R254). -/
theorem lpPinFrame_stops (hreq : (lp s k).stopReq = true) (h : (lp s k).state = 3) :
    (lp (lpPinFrame k f s) k).state = 4 ∧ (lp (lpPinFrame k f s) k).cnt = 0 := by
  have hport := lpPinFrame_offData hk hf hcfg (l := { lp (saiEdge k f s) k with state := 4, cnt := 0, fadeOut := 0 })
    (by simp [pinState, lp_saiEdge_self, hreq, h])
  exact ⟨LpPort.state_of_offData hport, LpPort.cnt_of_offData hport⟩

/-- UNMUTE pin frames of a stopping port are counted; with the last it is stopped. -/
theorem lpPinFrame_stopping (h : (lp s k).state = 4) :
    if lpUnmute k (lp s k).cfg ≤ (lp s k).cnt + 1 then (lp (lpPinFrame k f s) k).state = 5 ∧ bit (lp (lpPinFrame k f s) k).int 3 = true
    else (lp (lpPinFrame k f s) k).state = 4 ∧ (lp (lpPinFrame k f s) k).cnt = (lp s k).cnt + 1 := by
  have hedge : (lp (saiEdge k f s) k).state = 4 := by rw [lp_saiEdge_self, h]
  split
  · rename_i hlast
    have hport := lpPinFrame_offData hk hf hcfg (l := lp (lpStopped k false (saiEdge k f s)) k)
      (by simp [pinState, lp_saiEdge_self, h, hlast])
    rw [lp_lpStopped_self _ _ _ (.inl hedge)] at hport
    refine ⟨LpPort.state_of_offData hport, ?_⟩
    rw [LpPort.int_of_offData hport]
    exact LpPort.bit_withInt_self _ 3
  · rename_i hmore
    have hport := lpPinFrame_offData hk hf hcfg (l := { lp (saiEdge k f s) k with cnt := (lp s k).cnt + 1 })
      (by simp [pinState, lp_saiEdge_self, h, hmore])
    exact ⟨(LpPort.state_of_offData hport).trans hedge, LpPort.cnt_of_offData hport⟩

/-- The frame under way at the trigger is not counted (log entry 26). -/
theorem lpPinFrame_underWay (hreq : (lp s k).stopReq = false) (h : (lp s k).state = 2) (hmid : (lp s k).mid = true) :
    (lp (lpPinFrame k f s) k).state = 2 ∧ (lp (lpPinFrame k f s) k).cnt = (lp s k).cnt ∧ (lp (lpPinFrame k f s) k).mid = false := by
  have hport := lpPinFrame_offData hk hf hcfg (l := { lp (saiEdge k f s) k with mid := false })
    (by simp [pinState, lp_saiEdge_self, hreq, h, hmid])
  rw [lp_saiEdge_self] at hport
  exact ⟨(LpPort.state_of_offData hport).trans h, (LpPort.cnt_of_offData hport).trans rfl, LpPort.mid_of_offData hport⟩

/-- A short frame of a running port is a frame error (12 R255). -/
theorem lpPinFrame_short (hreq : (lp s k).stopReq = false) (hshort : f.bclks < minFrame (lp s k).cfg) (h : (lp s k).state = 3) :
    (lp (lpPinFrame k f s) k).state = 6 ∧ tgetD (lp (lpPinFrame k f s) k).ctr 3 0 = inc48 (tgetD (lp s k).ctr 3 0) 1
      ∧ bit (lp (lpPinFrame k f s) k).int 1 = true := by
  have hedge : (lp (saiEdge k f s) k).state = 3 := by rw [lp_saiEdge_self, h]
  have hport := lpPinFrame_offData hk hf hcfg (l := (lp (saiEdge k f s) k).faulted k 3)
    (by
      rw [← lp_lpFault_self _ _ _ (.inl hedge)]
      simp [pinState, lp_saiEdge_self, hreq, h, Nat.not_le.mpr hshort])
  rw [lp_saiEdge_self] at hport
  refine ⟨LpPort.state_of_offData hport, ?_, ?_⟩
  · rw [LpPort.ctr_of_offData hport]
    exact tgetD_tset_self _ _ _ _
  · rw [LpPort.int_of_offData hport]
    exact LpPort.bit_withInt_self _ 1

variable (hreq : (lp s k).stopReq = false) (hlong : minFrame (lp s k).cfg ≤ f.bclks)
include hreq hlong

/-- A good frame of a running port counts in LP_FRAMES. -/
theorem lpPinFrame_running (h : (lp s k).state = 3) :
    (lp (lpPinFrame k f s) k).state = 3 ∧ tgetD (lp (lpPinFrame k f s) k).ctr 0 0 = inc48 (tgetD (lp s k).ctr 0 0) 1
      ∧ (lp (lpPinFrame k f s) k).frames = (lp s k).frames + 1 := by
  have hport := lpPinFrame_offData hk hf hcfg (l := (lp (saiEdge k f s) k).counted 0 1)
    (by
      rw [← lpData_self k (saiInstant k f (saiEdge k f s))]
      simp [pinState, lp_saiEdge_self, hreq, h, hlong])
  rw [lp_saiEdge_self] at hport
  refine ⟨(LpPort.state_of_offData hport).trans h, ?_, LpPort.frames_of_offData hport⟩
  rw [LpPort.ctr_of_offData hport]
  exact tgetD_tset_self _ _ _ _

variable (hmid : (lp s k).mid = false)
include hmid

/-- A good frame of a counting port is counted. -/
theorem lpPinFrame_counting (h : (lp s k).state = 2) (hcnt : (lp s k).cnt < lpUnmute k (lp s k).cfg) :
    (lp (lpPinFrame k f s) k).state = 2 ∧ (lp (lpPinFrame k f s) k).cnt = (lp s k).cnt + 1 := by
  have hport := lpPinFrame_offData hk hf hcfg (l := { lp (saiEdge k f s) k with cnt := (lp s k).cnt + 1 })
    (by simp [pinState, lp_saiEdge_self, hreq, h, hmid, hlong, Nat.not_le.mpr hcnt])
  rw [lp_saiEdge_self] at hport
  exact ⟨(LpPort.state_of_offData hport).trans h, LpPort.cnt_of_offData hport⟩

/-- With UNMUTE frames counted the next carries data, and the port runs (12 R253). -/
theorem lpPinFrame_unmuted (h : (lp s k).state = 2) (hcnt : lpUnmute k (lp s k).cfg ≤ (lp s k).cnt) :
    (lp (lpPinFrame k f s) k).state = 3 ∧ tgetD (lp (lpPinFrame k f s) k).ctr 0 0 = inc48 (tgetD (lp s k).ctr 0 0) 1
      ∧ bit (lp (lpPinFrame k f s) k).int 2 = true := by
  obtain ⟨conv, est, hrun⟩ := lp_lpRun_self (saiEdge k f s) k
  have hport := lpPinFrame_offData hk hf hcfg (l := (lp (lpRun (saiEdge k f s) k) k).counted 0 1)
    (by
      rw [← lpData_self k (saiInstant k f (saiEdge k f s))]
      simp [pinState, lp_saiEdge_self, hreq, h, hmid, hlong, hcnt])
  rw [hrun, lp_saiEdge_self] at hport
  refine ⟨LpPort.state_of_offData hport, ?_, ?_⟩
  · rw [LpPort.ctr_of_offData hport]
    exact tgetD_tset_self _ _ _ _
  · rw [LpPort.int_of_offData hport]
    exact LpPort.bit_withInt_self _ 2

/-- A port in clock fault counts again at a good frame (12 R255). -/
theorem lpPinFrame_recovers (h : (lp s k).state = 6) : (lp (lpPinFrame k f s) k).state = 2 ∧ (lp (lpPinFrame k f s) k).cnt = 1 := by
  have hport := lpPinFrame_offData hk hf hcfg (l := { lp (saiEdge k f s) k with state := 2, cnt := 1 })
    (by simp [pinState, lp_saiEdge_self, hreq, h, hmid, hlong])
  exact ⟨LpPort.state_of_offData hport, LpPort.cnt_of_offData hport⟩

end

/-! ### Triggers (12 R256) -/

/-- A port as the trigger leaves it. -/
def LpPort.triggered (l : LpPort) : LpPort := { l with state := 2, cnt := 0, start := none, startLive := false, mid := l.clk }

theorem LpPort.triggered_triggered (l : LpPort) : l.triggered.triggered = l.triggered := rfl

theorem lp_lpGo (s : State) (k j : Nat) : lp (lpGo s k) j = if j = k then (lp s k).triggered else lp s j := by
  split
  · rename_i h; rw [h, lpGo, lp_modLp_self]; rfl
  · rename_i h; exact lp_modLp_ne s k h _

/-- The ports of a list are triggered, however often the list names them. -/
theorem lp_foldl_lpGo (es : List (Nat × LpPort)) (j : Nat) : ∀ s : State,
    lp (es.foldl (fun s e => lpGo s e.1) s) j = if j ∈ es.map (·.1) then (lp s j).triggered else lp s j := by
  induction es with
  | nil => exact fun s => rfl
  | cons e es ih =>
    intro s
    rw [List.foldl_cons, ih, lp_lpGo]
    by_cases he : j = e.1
    · subst he
      simp [LpPort.triggered_triggered]
    · rw [if_neg he, List.map_cons]
      simp only [List.mem_cons, he, false_or]

theorem mem_of_tget {α : Type} {t : Tbl α} {k : Nat} {v : α} (h : tget t k = some v) : (k, v) ∈ t := by
  induction t with
  | nil => cases h
  | cons p t ih =>
    obtain ⟨i, w⟩ := p
    unfold tget at h
    split at h
    · rename_i hi; cases h; subst hi; exact List.mem_cons_self
    · exact List.mem_cons_of_mem _ (ih h)

/-- A port that waits for a trigger is in the table. -/
theorem mem_lps_of_waiting {s : State} {j : Nat} (h : (lp s j).startLive = true) : (j, lp s j) ∈ s.lps := by
  cases hget : tget s.lps j with
  | none => rw [lp, tgetD, hget] at h; cases h
  | some l =>
    have hl : lp s j = l := by rw [lp, tgetD, hget]; rfl
    rw [hl]
    exact mem_of_tget hget

/-- A trigger reaches every port that waits for START_IN. -/
theorem lp_lpTrigger {s : State} {k : Nat} (hlive : (lp s k).startLive = true) (htrig : (lp s k).start.map (·.1) = some 1) {j : Nat}
    (hj : (lp s j).startLive = true) (hjt : (lp s j).start.map (·.1) = some 1) : lp (lpTrigger k s) j = (lp s j).triggered := by
  obtain ⟨⟨trig, b, time⟩, hstart, htrig⟩ := Option.map_eq_some_iff.mp htrig
  dsimp only at htrig
  subst htrig
  unfold lpTrigger
  simp only [hstart, hlive, Bool.not_true, Bool.false_eq_true, if_false, show (1 : Nat) ≠ 2 by decide]
  rw [lp_foldl_lpGo, if_pos]
  exact List.mem_map.mpr ⟨_, List.mem_filter.mpr ⟨mem_lps_of_waiting hj, by simp [hj, hjt]⟩, rfl⟩

theorem lpTrigger_of_not {s : State} {k : Nat} (h : (lp s k).start = none ∨ (lp s k).startLive = false) : lpTrigger k s = s := by
  unfold lpTrigger
  dsimp only
  split
  · rename_i hstart
    exact if_pos (by simpa [hstart] using h)
  · rfl

/-! ### Loss of clocks and measured rates (12 R255, R257) -/

/-- A port whose clocks are gone. -/
def LpPort.clockless (k : Nat) (l : LpPort) : LpPort := { l with clk := false, mid := false, sync := l.sync && !isAesIn k }

theorem lpClockLoss_ne (s : State) (k : Nat) {j : Nat} (hj : j ≠ k) : lp (lpClockLoss k s) j = lp s j := by
  unfold lpClockLoss
  dsimp only
  split <;> split <;> simp [lp_lpStopped_ne _ k hj, lp_lpFault_ne _ k hj, lp_modLp_ne _ k hj]

section
variable {s : State} {k : Nat} (hhas : thas s.lps k = true)
include hhas

/-- Loss of clocks faults a running port. -/
theorem lpClockLoss_running (hreq : (lp s k).stopReq = false) (h : (lp s k).state = 3) :
    lp (lpClockLoss k s) k = ((lp s k).clockless k).faulted k 0 := by
  unfold lpClockLoss
  dsimp only
  rw [if_pos hhas, if_neg (by simp [hreq, h]), lp_lpFault_self _ _ _ (.inl (by simp [h])), lp_modLp_self]
  rfl

/-- A stopping port stops at once. -/
theorem lpClockLoss_stopping (h : (lp s k).state = 4) :
    lp (lpClockLoss k s) k =
      LpPort.withInt { ((lp s k).clockless k).counted 6 1 with state := 5, cnt := 0, stopReq := false, start := none, startLive := false } 3 := by
  unfold lpClockLoss
  dsimp only
  rw [if_pos hhas, if_pos (by simp [h]), lp_lpStopped_self _ _ _ (.inl (by simp [h])), if_pos rfl, lp_modLp_self]
  rfl

end

/-- The rate of a port, measured. -/
def LpPort.measured (meas : Nat) (l : LpPort) : LpPort := { l with meas := meas % 2 ^ 22, cls := rateClass meas }

/-- A measurement taken, with RATE_CHG where the class of the rate is another. -/
def rateTaken (k meas : Nat) (s : State) : State :=
  if (lp s k).cls = rateClass meas then modLp s k (LpPort.measured meas) else lpInt (modLp s k (LpPort.measured meas)) k 0

theorem lp_rateTaken_self (s : State) (k meas : Nat) : lp (rateTaken k meas s) k =
    if (lp s k).cls = rateClass meas then (lp s k).measured meas else ((lp s k).measured meas).withInt 0 := by
  unfold rateTaken
  split <;> simp

theorem lp_rateTaken_ne (s : State) {k j : Nat} (hj : j ≠ k) (meas : Nat) : lp (rateTaken k meas s) j = lp s j := by
  unfold rateTaken
  split <;> simp [lp_lpInt_ne _ k hj, lp_modLp_ne _ k hj]

/-- The estimator of a running port ends a window with the measurement. -/
def rateWindow (k : Nat) (s : State) : State :=
  if (lp s k).state = 3 then
    modLp s k (fun l => { l with est := (estLoop (l.est.rebase (rateHz (lpRate k l.cfg)) (tb s (tenant s l.tenant).mclk.bind.rateTb).now) 10).1 })
  else s

theorem lp_rateWindow_self (s : State) (k : Nat) : ∃ est, lp (rateWindow k s) k = { lp s k with est := est } := by
  unfold rateWindow
  split
  · exact ⟨_, lp_modLp_self _ _ _⟩
  · exact ⟨_, rfl⟩

theorem lp_rateWindow_ne (s : State) {k j : Nat} (hj : j ≠ k) : lp (rateWindow k s) j = lp s j := by
  unfold rateWindow
  split
  · exact lp_modLp_ne _ _ hj _
  · rfl

theorem lpMeasure_eq {k : Nat} (hk : k < 0x30) (meas : Nat) (s : State) :
    lpMeasure k meas s =
      let u := rateWindow k (rateTaken k meas s)
      if (lp (rateTaken k meas s) k).cfg.isEmpty || rateClass meas == lpRate k (lp (rateTaken k meas s) k).cfg + 1 then u else lpFault u k 2 :=
  if_neg (Nat.not_le.mpr hk)

theorem lpMeasure_ne {k j : Nat} (hk : k < 0x30) (hj : j ≠ k) (meas : Nat) (s : State) : lp (lpMeasure k meas s) j = lp s j := by
  rw [lpMeasure_eq hk]
  dsimp only
  split <;> simp [lp_lpFault_ne _ k hj, lp_rateWindow_ne _ hj, lp_rateTaken_ne _ hj]

/-- The measured rate and its class are taken, and RATE_CHG marks a change. -/
theorem lpMeasure_takes {k : Nat} (hk : k < 0x30) (meas : Nat) (s : State) :
    (lp (lpMeasure k meas s) k).meas = meas % 2 ^ 22 ∧ (lp (lpMeasure k meas s) k).cls = rateClass meas
      ∧ ((lp s k).cls ≠ rateClass meas → bit (lp (lpMeasure k meas s) k).int 0 = true) := by
  obtain ⟨est, hwin⟩ := lp_rateWindow_self (rateTaken k meas s) k
  have hfault : ∀ u : State, (lp (lpFault u k 2) k).meas = (lp u k).meas ∧ (lp (lpFault u k 2) k).cls = (lp u k).cls
      ∧ (bit (lp u k).int 0 = true → bit (lp (lpFault u k 2) k).int 0 = true) := by
    intro u
    by_cases h : (lp u k).state = 3 ∨ ((lp u k).state = 2 ∧ 0 < (lp u k).cnt)
    · rw [lp_lpFault_self _ _ _ h]
      refine ⟨rfl, rfl, fun hb => ?_⟩
      rw [LpPort.faulted, LpPort.bit_withInt]
      exact hb
    · rw [lpFault, if_neg h]
      exact ⟨rfl, rfl, id⟩
  have hu : ∀ u, lp u k = lp (rateWindow k (rateTaken k meas s)) k →
      (lp u k).meas = meas % 2 ^ 22 ∧ (lp u k).cls = rateClass meas ∧ ((lp s k).cls ≠ rateClass meas → bit (lp u k).int 0 = true) := by
    intro u hu
    rw [hu, hwin, lp_rateTaken_self]
    split
    · rename_i hcls
      exact ⟨rfl, rfl, fun h => absurd hcls h⟩
    · exact ⟨rfl, rfl, fun _ => LpPort.bit_withInt_self _ 0⟩
  obtain ⟨hmeas, hcls, hint⟩ := hu _ rfl
  obtain ⟨fmeas, fcls, fint⟩ := hfault (rateWindow k (rateTaken k meas s))
  rw [lpMeasure_eq hk]
  dsimp only
  split
  · exact ⟨hmeas, hcls, hint⟩
  · exact ⟨fmeas.trans hmeas, fcls.trans hcls, fun h => fint (hint h)⟩

/-- A wrong class faults a running port. -/
theorem lpMeasure_faults {k : Nat} (hk : k < 0x30) {meas : Nat} {s : State} (h : (lp s k).state = 3) (hcfg : (lp s k).cfg ≠ [])
    (hcls : rateClass meas ≠ lpRate k (lp s k).cfg + 1) :
    (lp (lpMeasure k meas s) k).state = 6 ∧ tgetD (lp (lpMeasure k meas s) k).ctr 2 0 = inc48 (tgetD (lp s k).ctr 2 0) 1 := by
  obtain ⟨est, hwin⟩ := lp_rateWindow_self (rateTaken k meas s) k
  have htaken : (lp (rateTaken k meas s) k).cfg = (lp s k).cfg ∧ (lp (rateTaken k meas s) k).state = 3
      ∧ (lp (rateTaken k meas s) k).ctr = (lp s k).ctr := by
    rw [lp_rateTaken_self]
    split <;> exact ⟨rfl, h, rfl⟩
  obtain ⟨tcfg, tstate, tctr⟩ := htaken
  rw [lpMeasure_eq hk]
  dsimp only
  rw [if_neg (by simp [tcfg, hcfg, hcls]), lp_lpFault_self _ _ _ (.inl (by rw [hwin]; exact tstate)), hwin, ← tctr]
  exact ⟨rfl, tgetD_tset_self _ _ _ _⟩

/-! ### The states of a port -/

theorem exec_unmuteCountDone {s : State} (hrun : s.clk.running = true) (k : Nat) :
    exec (.unmuteCountDone k) s = .next (settled s (unmuteDone k (begun s))) := runMere_of_running hrun _

theorem exec_lpStopDone {s : State} (hrun : s.clk.running = true) (k : Nat) (early : Bool) :
    exec (.lpStopDone k early) s = .next (settled s (lpStopped k early (begun s))) := runMere_of_running hrun _

theorem exec_lpClockLoss {s : State} (hrun : s.clk.running = true) (k : Nat) :
    exec (.lpClockLoss k) s = .next (settled s (lpClockLoss k (begun s))) := runMere_of_running hrun _

theorem exec_lpTrigger {s : State} (hrun : s.clk.running = true) (k : Nat) :
    exec (.lpTrigger k) s = .next (settled s (lpTrigger k (begun s))) := runMere_of_running hrun _

theorem exec_rateMeasure {s : State} (hrun : s.clk.running = true) (k meas : Nat) :
    exec (.rateMeasure k meas) s = .next (settled s (lpMeasure k meas (begun s))) := runMere_of_running hrun _

theorem unmuteDone_of_counted {s : State} {k : Nat} (h : (lp s k).state = 2) (hcnt : lpUnmute k (lp s k).cfg ≤ (lp s k).cnt)
    (hcfg : (lp s k).cfg ≠ []) : unmuteDone k s = lpRun s k := if_pos ⟨h, hcnt, by simpa using hcfg⟩

theorem unmuteDone_of_not {s : State} {k : Nat} (h : (lp s k).state ≠ 2 ∨ (lp s k).cnt < lpUnmute k (lp s k).cfg) : unmuteDone k s = s :=
  if_neg (fun ⟨h2, hcnt, _⟩ => h.elim (fun hne => hne h2) (fun hlt => Nat.not_le.mpr hlt hcnt))

/-- Settles O43: one lemma per outcome of a pin frame, of a trigger, of a loss of clocks and of a measurement. That the frame under way at the
trigger is not counted is the model's choice (log entry 26), as is what an edge does first (log entry 87). -/
theorem localPortStates : Obligations.LocalPortStates := by
  unfold Obligations.LocalPortStates
  intro k s hrun
  dsimp only
  refine ⟨fun hk hcfg f hf => ?_, fun hk f => ?_, fun h hcnt hcfg => ?_, fun h => ?_, fun h early => ?_, fun h hreq early => ?_,
    fun hhas hreq h => ?_, fun hhas h => ?_, fun hlive htrig => ?_, fun h => ?_, fun hk meas => ?_, fun hk meas => ?_⟩
  · obtain ⟨t, ht, hport, halone⟩ := exec_lpPinFrame_port hrun hk hf hcfg
    refine ⟨fun hreq hlong => ⟨fun h => ⟨t, ht, ?_⟩, fun h hmid hcnt => ⟨t, ht, ?_⟩, fun h hmid => ⟨t, ht, ?_⟩, fun h hmid hcnt => ⟨t, ht, ?_⟩,
      fun h hmid => ⟨t, ht, ?_⟩⟩, fun hreq hshort h => ⟨t, ht, ?_⟩, fun hreq h => ⟨t, ht, ?_⟩, fun h => ⟨t, ht, halone, ?_⟩⟩
    all_goals rw [hport]
    · obtain ⟨hstate, hctr, hframes⟩ := lpPinFrame_running (s := begun s) hk hf hcfg hreq hlong h
      exact ⟨hstate, hctr, hframes, halone⟩
    · obtain ⟨hstate, hcnt⟩ := lpPinFrame_counting (s := begun s) hk hf hcfg hreq hlong hmid h hcnt
      exact ⟨hstate, hcnt, halone⟩
    · obtain ⟨hstate, hcnt, hmid⟩ := lpPinFrame_underWay (s := begun s) hk hf hcfg hreq h hmid
      exact ⟨hstate, hcnt, hmid, halone⟩
    · obtain ⟨hstate, hctr, hint⟩ := lpPinFrame_unmuted (s := begun s) hk hf hcfg hreq hlong hmid h hcnt
      exact ⟨hstate, hctr, hint, halone⟩
    · obtain ⟨hstate, hcnt⟩ := lpPinFrame_recovers (s := begun s) hk hf hcfg hreq hlong hmid h
      exact ⟨hstate, hcnt, halone⟩
    · obtain ⟨hstate, hctr, hint⟩ := lpPinFrame_short (s := begun s) hk hf hcfg hreq hshort h
      exact ⟨hstate, hctr, hint, halone⟩
    · obtain ⟨hstate, hcnt⟩ := lpPinFrame_stops (s := begun s) hk hf hcfg hreq h
      exact ⟨hstate, hcnt, halone⟩
    · exact lpPinFrame_stopping (s := begun s) hk hf hcfg h
  · rw [exec_lpPinFrame hrun, lpPinFrame, if_pos hk]
  · obtain ⟨conv, est, hport⟩ := lp_lpRun_self (begun s) k
    refine ⟨_, exec_unmuteCountDone hrun k, ?_⟩
    rw [unmuteDone_of_counted (s := begun s) h hcnt hcfg]
    simp only [lp_settled]
    rw [hport]
    exact ⟨rfl, rfl, fun j hj => by rw [lp_lpRun_ne _ _ hj, lp_begun]⟩
  · rw [exec_unmuteCountDone hrun, unmuteDone_of_not (s := begun s) h]
  · refine ⟨_, exec_lpStopDone hrun k early, ?_⟩
    simp only [lp_settled]
    rw [lp_lpStopped_self (begun s) k early h]
    refine ⟨rfl, rfl, fun he => ?_, LpPort.bit_withInt_self _ 3, fun j hj => by rw [lp_lpStopped_ne _ _ hj, lp_begun]⟩
    subst he
    exact tgetD_tset_self _ _ _ _
  · rw [exec_lpStopDone hrun, lpStopped_of_not (begun s) k h hreq]
  · refine ⟨_, exec_lpClockLoss hrun k, ?_⟩
    simp only [lp_settled]
    rw [lpClockLoss_running (s := begun s) hhas hreq h]
    exact ⟨rfl, rfl, tgetD_tset_self _ _ _ _, fun j hj => lpClockLoss_ne (begun s) k hj⟩
  · refine ⟨_, exec_lpClockLoss hrun k, ?_⟩
    simp only [lp_settled]
    rw [lpClockLoss_stopping (s := begun s) hhas h]
    exact ⟨rfl, tgetD_tset_self _ _ _ _, fun j hj => lpClockLoss_ne (begun s) k hj⟩
  · refine ⟨_, exec_lpTrigger hrun k, fun j hj hjt => ?_⟩
    rw [lp_settled, lp_lpTrigger (s := begun s) hlive htrig hj hjt]
    exact ⟨rfl, rfl, rfl, rfl⟩
  · rw [exec_lpTrigger hrun, lpTrigger_of_not (s := begun s) h]
  · obtain ⟨hmeas, hcls, hint⟩ := lpMeasure_takes hk meas (begun s)
    refine ⟨_, exec_rateMeasure hrun k meas, ?_⟩
    simp only [lp_settled]
    exact ⟨hmeas, hcls, hint, fun h hcfg hne => lpMeasure_faults (s := begun s) hk h hcfg hne, fun j hj => lpMeasure_ne hk hj meas (begun s)⟩
  · rw [exec_rateMeasure hrun, lpMeasure, if_pos hk]

end Sys2Proof.Machine
end

section
/-! Local ports: AES3 (12 R263 to R267, R270). -/
namespace Sys2Proof.Machine

theorem exec_aesLock {s : State} {n : Nat} (hn : n < 8) (hrun : s.clk.running = true) : exec (.aesLock n) s =
    .next (settled s { begun s with lps := tset s.lps (0x20 + n) { lp s (0x20 + n) with clk := true, sync := false } }) := by
  refine (runMere_of_running hrun _).trans ?_
  rw [if_pos hn]
  rfl

theorem exec_aesLockLoss {s : State} (hrun : s.clk.running = true) (n : Nat) :
    exec (.aesLockLoss n) s = .next (settled s (aesLockLoss n (begun s))) := runMere_of_running hrun _

theorem exec_aesBlockEnd {s : State} (hrun : s.clk.running = true) (n : Nat) (a b : List Byte) (missing : Bool) :
    exec (.aesBlockEnd n a b missing) s = .next (settled s (aesBlockEnd n a b missing (begun s))) := runMere_of_running hrun _

theorem exec_aesSettleExpiry {s : State} (hrun : s.clk.running = true) (n : Nat) :
    exec (.aesSettleExpiry n) s = .next (settled s (aesSettle n (begun s))) := runMere_of_running hrun _

/-! ### Loss of lock -/

theorem thas_lpCount (s : State) (k i n : Nat) : thas (lpCount s k i n).lps k = true := by
  unfold thas lpCount modLp
  rw [tget_tset_self]
  rfl

section
variable {s : State} {n : Nat} (hn : n < 8)
include hn

theorem aesLockLoss_locked (hclk : (lp s (0x20 + n)).clk = true) :
    aesLockLoss n s = lpClockLoss (0x20 + n) (lpCount s (0x20 + n) 11 1) := if_pos ⟨hn, hclk⟩

omit hn in
theorem aesLockLoss_unlocked (hclk : (lp s (0x20 + n)).clk = false) : aesLockLoss n s = s := if_neg (by simp [hclk])

/-- Loss of lock of a running input is counted, and is a clock fault. -/
theorem lp_aesLockLoss_running (hclk : (lp s (0x20 + n)).clk = true) (h : (lp s (0x20 + n)).state = 3) (hreq : (lp s (0x20 + n)).stopReq = false) :
    lp (aesLockLoss n s) (0x20 + n) = (((lp s (0x20 + n)).counted 11 1).clockless (0x20 + n)).faulted (0x20 + n) 0 := by
  rw [aesLockLoss_locked hn hclk,
    lpClockLoss_running (thas_lpCount _ _ _ _) (by rw [lp_lpCount_self]; exact hreq) (by rw [lp_lpCount_self]; exact h), lp_lpCount_self]

theorem isAesIn_input : isAesIn (0x20 + n) = true := decide_eq_true (by omega)

end

theorem aesLockLoss_ne (s : State) (n : Nat) {j : Nat} (hj : j ≠ 0x20 + n) : lp (aesLockLoss n s) j = lp s j := by
  unfold aesLockLoss
  split
  · rw [lpClockLoss_ne _ _ hj, lp_lpCount_ne _ _ hj]
  · rfl

/-! ### The end of a block (12 R265) -/

/-- The channel status after a block: what was received, where it is good. -/
def csTaken (old new : List Byte) : List Byte := if csGood (fit 24 new) then fit 24 new else old

/-- An input whose block has ended with the channel status `a` and `b`. -/
def csEnded (k : Nat) (a b : List Byte) (s : State) : State :=
  modLp (lpCount s k 8 (b2n (!csGood (fit 24 a)) + b2n (!csGood (fit 24 b)))) k
    (fun l => { l with csA := csTaken (lp s k).csA a, csB := csTaken (lp s k).csB b })

/-- The change of channel status, marked. -/
def csMarked (k : Nat) (a b : List Byte) (s : State) : State :=
  if csTaken (lp s k).csA a = (lp s k).csA ∧ csTaken (lp s k).csB b = (lp s k).csB then csEnded k a b s else lpInt (csEnded k a b s) k 5

theorem aesBlockEnd_of_sync {n : Nat} (hn : n < 8) {s : State} (hsync : (lp s (0x20 + n)).sync = true) (a b : List Byte) (missing : Bool) :
    aesBlockEnd n a b missing s =
      let u := csMarked (0x20 + n) a b s
      if missing then lpCount (modLp u (0x20 + n) (fun l => { l with sync := false })) (0x20 + n) 10 1 else u := by
  unfold aesBlockEnd
  simp only [hsync, decide_eq_true hn, Bool.and_true, Bool.not_true, Bool.false_eq_true, if_false]
  rfl

theorem aesBlockEnd_of_no_sync {n : Nat} {s : State} (hsync : (lp s (0x20 + n)).sync = false) (a b : List Byte) (missing : Bool) :
    aesBlockEnd n a b missing s = s := if_pos (by simp [hsync])

theorem lp_csEnded_self (k : Nat) (a b : List Byte) (s : State) : lp (csEnded k a b s) k =
    { (lp s k).counted 8 (b2n (!csGood (fit 24 a)) + b2n (!csGood (fit 24 b))) with csA := csTaken (lp s k).csA a, csB := csTaken (lp s k).csB b } := by
  rw [csEnded, lp_modLp_self, lp_lpCount_self]

theorem lp_csMarked_self (k : Nat) (a b : List Byte) (s : State) : lp (csMarked k a b s) k =
    if csTaken (lp s k).csA a = (lp s k).csA ∧ csTaken (lp s k).csB b = (lp s k).csB then lp (csEnded k a b s) k
    else (lp (csEnded k a b s) k).withInt 5 := by
  unfold csMarked
  split
  · rfl
  · rw [lp_lpInt_self]

theorem lp_csMarked_ne {k j : Nat} (hj : j ≠ k) (a b : List Byte) (s : State) : lp (csMarked k a b s) j = lp s j := by
  unfold csMarked csEnded
  split <;> simp [lp_lpInt_ne _ _ hj, lp_modLp_ne _ _ hj, lp_lpCount_ne _ _ hj]

/-- What the end of a block leaves of a synchronised input, whether a Z was missing or not. -/
theorem lp_csMarked_fields (k : Nat) (a b : List Byte) (s : State) :
    (lp (csMarked k a b s) k).csA = csTaken (lp s k).csA a ∧ (lp (csMarked k a b s) k).csB = csTaken (lp s k).csB b
      ∧ (csTaken (lp s k).csA a ≠ (lp s k).csA ∨ csTaken (lp s k).csB b ≠ (lp s k).csB → bit (lp (csMarked k a b s) k).int 5 = true)
      ∧ (lp (csMarked k a b s) k).sync = (lp s k).sync ∧ tgetD (lp (csMarked k a b s) k).ctr 10 0 = tgetD (lp s k).ctr 10 0 := by
  rw [lp_csMarked_self, lp_csEnded_self]
  split
  · rename_i h
    exact ⟨rfl, rfl, fun hne => absurd h (by tauto), rfl, tgetD_tset_ne _ _ _ (by decide)⟩
  · exact ⟨rfl, rfl, fun _ => LpPort.bit_withInt_self _ 5, rfl, tgetD_tset_ne _ _ _ (by decide)⟩

theorem aesBlockEnd_ne (n : Nat) (a b : List Byte) (missing : Bool) (s : State) {j : Nat} (hj : j ≠ 0x20 + n) :
    lp (aesBlockEnd n a b missing s) j = lp s j := by
  by_cases hn : (decide (n < 8) && (lp s (0x20 + n)).sync) = true
  · obtain ⟨hlt, hsync⟩ := Bool.and_eq_true_iff.mp hn
    rw [aesBlockEnd_of_sync (of_decide_eq_true hlt) hsync]
    cases missing <;> simp [lp_lpCount_ne _ _ hj, lp_modLp_ne _ _ hj, lp_csMarked_ne hj]
  · rw [Bool.not_eq_true] at hn
    rw [aesBlockEnd, if_pos (by rw [hn]; rfl)]

/-! ### Outputs (12 R267) -/

/-- Settles O44. That t_AES_SETTLE counts from the mid-point it ends at is log entry 26, the CRCC polynomial log entry 27. -/
theorem aesInputsAndOutputs : Obligations.AesInputsAndOutputs := by
  unfold Obligations.AesInputsAndOutputs
  intro n s hn hrun
  dsimp only
  refine ⟨exec_aesLock hn hrun, fun hclk h hreq => ?_, fun hclk => ?_, fun hsync a b missing => ?_, fun hsync a b missing => ?_,
    fun hcfg hserves => ?_, fun h => ?_⟩
  · refine ⟨_, exec_aesLockLoss hrun n, ?_⟩
    simp only [lp_settled]
    rw [lp_aesLockLoss_running (s := begun s) hn hclk h hreq]
    refine ⟨rfl, rfl, ?_, ?_, fun j hj => aesLockLoss_ne (begun s) n hj⟩
    · show ((lp s (0x20 + n)).sync && !isAesIn (0x20 + n)) = false
      rw [isAesIn_input hn, Bool.not_true, Bool.and_false]
    · exact (tgetD_tset_ne _ _ _ (by decide)).trans (tgetD_tset_self _ _ _ _)
  · rw [exec_aesLockLoss hrun, aesLockLoss_unlocked (s := begun s) hclk]
  · obtain ⟨hcsA, hcsB, hint, hkeep, hctr⟩ := lp_csMarked_fields (0x20 + n) a b (begun s)
    refine ⟨_, exec_aesBlockEnd hrun n a b missing, ?_⟩
    have hne : ∀ j, j ≠ 0x20 + n → lp (aesBlockEnd n a b missing (begun s)) j = lp s j := fun j hj => aesBlockEnd_ne n a b missing (begun s) hj
    simp only [lp_settled]
    rw [aesBlockEnd_of_sync (s := begun s) hn hsync] at hne ⊢
    cases missing with
    | true =>
      simp only [if_true, lp_lpCount_self, lp_modLp_self] at hne ⊢
      refine ⟨hcsA, hcsB, fun h => hint ?_, fun _ => ⟨rfl, ?_⟩, fun h => absurd h (by decide), hne⟩
      · rw [← hcsA, ← hcsB]; exact h
      · exact (tgetD_tset_self _ _ _ _).trans (by rw [hctr]; rfl)
    | false =>
      simp only [Bool.false_eq_true, if_false] at hne ⊢
      refine ⟨hcsA, hcsB, fun h => hint ?_, fun h => absurd h (by decide), fun _ => hkeep.trans hsync, hne⟩
      rw [← hcsA, ← hcsB]; exact h
  · rw [exec_aesBlockEnd hrun, aesBlockEnd_of_no_sync (s := begun s) hsync]
  · rw [exec_aesSettleExpiry hrun, aesSettle, if_pos]
    · rfl
    · obtain ⟨hlock, hsyn⟩ := Bool.and_eq_true_iff.mp hserves
      exact ⟨hn, by simpa using hcfg, hlock, hsyn⟩
  · rw [exec_aesSettleExpiry hrun, aesSettle, if_neg]
    rintro ⟨-, hne, hlock, hsyn⟩
    rcases h with h | h
    · simp [h] at hne
    · rw [Bool.and_eq_false_iff] at h
      exact h.elim (fun h => absurd (hlock.symm.trans h) (by decide)) (fun h => absurd (hsyn.symm.trans h) (by decide))

end Sys2Proof.Machine
end

section
/-! The calendar and its schedule (13 R282 to R284). -/
namespace Sys2Proof.Machine

/-! ### The Gregorian calendar (13 R282) -/

theorem monthDay_succ (y : Nat) {m : Nat} (h : 1 ≤ m) : monthDay y (m + 1) = monthDay y m + monthDays y m := by
  obtain ⟨k, rfl⟩ := Nat.exists_eq_add_of_le h
  simp [monthDay, range, List.range_succ, Nat.add_comm 1 k]

/-- The last day of December ends the year. -/
theorem monthDay_december (y : Nat) : monthDay y 12 + 31 = if leap y then 366 else 365 := by
  cases h : leap y <;> simp [monthDay, range, List.range_succ, monthDays, h]

/-- Of the years before `y + 1` one more than of those before `y` is a multiple of `d`, if `y` is. -/
theorem multiples_succ (y : Nat) {d : Nat} (hd : 0 < d) : (y + d) / d = (y + (d - 1)) / d + if y % d = 0 then 1 else 0 := by
  have hdiv := Nat.div_add_mod y d
  have hlt := Nat.mod_lt y hd
  generalize y / d = q at hdiv
  split
  · rename_i h
    rw [← hdiv, h, Nat.add_zero, Nat.mul_add_div hd, Nat.mul_add_div hd, Nat.div_self hd, Nat.div_eq_of_lt (show d - 1 < d by omega)]
  · have hlow : (y % d + d) / d = 1 := by rw [Nat.add_div_right _ hd, Nat.div_eq_of_lt hlt]
    have hhigh : (y % d + (d - 1)) / d = 1 := by
      rw [show y % d + (d - 1) = y % d - 1 + d by omega, Nat.add_div_right _ hd, Nat.div_eq_of_lt (by omega)]
    rw [← hdiv, Nat.add_assoc, Nat.add_assoc, Nat.mul_add_div hd, Nat.mul_add_div hd, hlow, hhigh]

theorem yearDay_succ (y : Nat) : yearDay (y + 1) = yearDay y + if leap y then 366 else 365 := by
  have h4 := multiples_succ y (d := 4) (by decide)
  have h100 := multiples_succ y (d := 100) (by decide)
  have h400 := multiples_succ y (d := 400) (by decide)
  have hsome : (y + 99) / 100 ≤ 365 * y + (y + 3) / 4 := by omega
  unfold yearDay
  rw [show y + 1 + 3 = y + 4 by omega, show y + 1 + 99 = y + 100 by omega, show y + 1 + 399 = y + 400 by omega, h4, h100, h400]
  generalize (y + 3) / 4 = a at hsome
  generalize (y + 99) / 100 = b at hsome
  generalize (y + 399) / 400 = c
  by_cases hy4 : y % 4 = 0
  · by_cases hy100 : y % 100 = 0
    · by_cases hy400 : y % 400 = 0
      · simp [leap, hy4, hy100, hy400]; omega
      · simp [leap, hy4, hy100, hy400]; omega
    · have hy400 : y % 400 ≠ 0 := by omega
      simp [leap, hy4, hy100, hy400]; omega
  · have hy100 : y % 100 ≠ 0 := by omega
    have hy400 : y % 400 ≠ 0 := by omega
    simp [leap, hy4, hy100, hy400]; omega

/-- The fields of a possible time. -/
theorem CalTime.ok_iff (c : CalTime) : c.ok = true ↔
    c.sec ≤ 59 ∧ c.min ≤ 59 ∧ c.hour ≤ 23 ∧ 1 ≤ c.month ∧ c.month ≤ 12 ∧ 1 ≤ c.day ∧ c.day ≤ monthDays c.year c.month ∧ c.year ≤ 999 := by
  simp [CalTime.ok, and_assoc]

theorem monthDays_pos (y m : Nat) : 1 ≤ monthDays y m := by
  unfold monthDays; split
  · split <;> decide
  · split <;> decide

/-- The successor of a possible time other than the last of 2999 is possible and one second later. -/
theorem CalTime.next_of_ok {c : CalTime} (hok : c.ok = true) (hlast : c ≠ ⟨59, 59, 23, 31, 12, 999⟩) :
    c.next.ok = true ∧ c.next.secs = c.secs + 1 := by
  obtain ⟨sec, min, hour, day, month, year⟩ := c
  obtain ⟨hsec, hmin, hhour, hm1, hm12, hd1, hday, hyear⟩ := (CalTime.ok_iff _).mp hok
  simp only at hsec hmin hhour hm1 hm12 hd1 hday hyear
  have hpos := monthDays_pos
  unfold CalTime.next
  simp only
  split
  · exact ⟨(CalTime.ok_iff _).mpr (by simp only; omega), by simp only [CalTime.secs]; omega⟩
  split
  · exact ⟨(CalTime.ok_iff _).mpr (by simp only; omega), by simp only [CalTime.secs]; omega⟩
  split
  · exact ⟨(CalTime.ok_iff _).mpr (by simp only; omega), by simp only [CalTime.secs]; omega⟩
  split
  · exact ⟨(CalTime.ok_iff _).mpr (by simp only; omega), by simp only [CalTime.secs]; omega⟩
  split
  · have hmonth := monthDay_succ year hm1
    have hfirst := hpos year (month + 1)
    exact ⟨(CalTime.ok_iff _).mpr (by simp only; omega), by simp only [CalTime.secs]; omega⟩
  · obtain rfl : month = 12 := by omega
    have hdec : monthDays year 12 = 31 := rfl
    have hyr : year < 999 := by
      by_contra hge
      exact hlast (CalTime.mk.injEq .. ▸ ⟨by omega, by omega, by omega, by omega, rfl, by omega⟩)
    have hmonth := monthDay_december year
    have hnext := yearDay_succ year
    have hjan : monthDay (year + 1) 1 = 0 := rfl
    rw [Nat.mod_eq_of_lt (by omega)]
    exact ⟨(CalTime.ok_iff _).mpr (by simp only; exact ⟨by omega, by omega, by omega, by omega, by omega, by omega, hpos _ _, by omega⟩),
      by simp only [CalTime.secs]; omega⟩

/-! ### Cycles of XB -/

/-- The calendar `n` seconds on. -/
def CalTime.after (n : Nat) (c : CalTime) : CalTime := (List.range n).foldl (fun c _ => c.next) c

theorem CalTime.after_succ (n : Nat) (c : CalTime) : c.after (n + 1) = (c.after n).next := by
  rw [CalTime.after, List.range_succ, List.foldl_append]; rfl

/-- `n` seconds of the calendar. -/
def xbSeconds (n : Nat) (s : State) : State := (List.range n).foldl (fun s _ => xbSecond s) s

theorem xbSeconds_succ (n : Nat) (s : State) : xbSeconds (n + 1) s = xbSecond (xbSeconds n s) := by
  rw [xbSeconds, List.range_succ, List.foldl_append]; rfl

theorem xbPass_eq (n : Nat) (s : State) : xbPass n s = xbSeconds (s.cal.counted n / 32768)
    { s with cal := { s.cal with sub := s.cal.counted n % 32768, trimAcc := (s.cal.trimAcc + n * s.cal.trimBy) % (2 ^ 20 : Nat) } } := rfl

theorem xbSecond_cal (s : State) : (xbSecond s).cal =
    { s.cal with now := s.cal.now.next, wday := weekday s.cal.now.next.secs, wrap := s.cal.wrap || s.cal.now.next.secs == 0 } := by
  unfold xbSecond
  dsimp only
  split <;> rfl

/-- What seconds change of the calendar: the time, its weekday, and the mark of a new millennium. -/
theorem xbSeconds_cal (n : Nat) (s : State) : ∃ wday wrap, (xbSeconds n s).cal = { s.cal with now := s.cal.now.after n, wday := wday, wrap := wrap }
    ∧ (0 < n → wday = weekday (s.cal.now.after n).secs) ∧ (n = 1 → (s.cal.now.after n).secs = 0 → wrap = true) := by
  induction n with
  | zero => exact ⟨s.cal.wday, s.cal.wrap, rfl, fun h => absurd h (by decide), fun h => absurd h (by decide)⟩
  | succ n ih =>
    obtain ⟨wday, wrap, hcal, -, -⟩ := ih
    refine ⟨_, _, by rw [xbSeconds_succ, xbSecond_cal, hcal, CalTime.after_succ], fun _ => by rw [CalTime.after_succ], fun _ h => ?_⟩
    rw [CalTime.after_succ] at h
    simp [h]

theorem xbPass_cal (n : Nat) (s : State) : ∃ wday wrap, (xbPass n s).cal = { s.cal with
      sub := s.cal.counted n % 32768, trimAcc := (s.cal.trimAcc + n * s.cal.trimBy) % (2 ^ 20 : Nat)
      now := s.cal.now.after (s.cal.counted n / 32768), wday := wday, wrap := wrap }
    ∧ (0 < s.cal.counted n / 32768 → wday = weekday (s.cal.now.after (s.cal.counted n / 32768)).secs)
    ∧ (s.cal.counted n / 32768 = 1 → (s.cal.now.after (s.cal.counted n / 32768)).secs = 0 → wrap = true) := by
  rw [xbPass_eq]
  exact xbSeconds_cal _ _

/-- Without trim every cycle counts. -/
theorem counted_of_no_trim {c : Cal} (htrim : c.trim = 0) (h0 : 0 ≤ c.trimAcc) (h1 : c.trimAcc < 2 ^ 20) (n : Nat) : c.counted n = c.sub + n := by
  have hby : c.trimBy = 0 := by rw [Cal.trimBy, htrim]; rfl
  rw [Cal.counted, hby]
  omega

/-! ### The schedule leaves the calendar alone (13 R284) -/

@[simp] theorem askWeir_offPwr (s : State) (c n : Nat) (w : WeirWhat) : ({ askWeir s c n w with pwr := {} } : State) = { s with pwr := {} } := by
  unfold askWeir; split <;> rfl

theorem wake_offPwr (s : State) : ({ wake s with pwr := {} } : State) = { s with pwr := {} } := by
  unfold wake
  dsimp only
  split
  · split
    · exact askWeir_offPwr _ _ _ _
    · rfl
  · rfl

/-- The state without what scheduled actions, wakes and events change. -/
def State.offAct (s : State) : State := { s with pwr := {}, tenants := [], evs := [], gpio := {} }

@[simp] theorem evT_offAct (s : State) (t typ obj status aux : Nat) : (evT s t typ obj status aux).offAct = s.offAct := rfl
@[simp] theorem modTenant_offAct (s : State) (t : Nat) (f : Tenant → Tenant) : (modTenant s t f).offAct = s.offAct := rfl
@[simp] theorem modBus_offAct (s : State) (t lq : Nat) (f : Bus → Bus) : (modBus s t lq f).offAct = s.offAct := rfl

theorem wake_offAct (s : State) : (wake s).offAct = s.offAct :=
  congrArg (fun u : State => ({ u with tenants := [], evs := [], gpio := {} } : State)) (wake_offPwr s)

theorem schedAct_offAct (s : State) (e : Sched) : (schedAct s e).1.offAct = s.offAct := by
  unfold schedAct
  split
  · dsimp only
    split
    · rfl
    · split <;> rfl
  · dsimp only
    split <;> rfl
  · rfl

/-- Everything that fires, by the entries and by what they act on. -/
theorem schedShoot_offAct (s : State) (a : SchedShot) : ({ (schedShoot s a).offAct with sched := [] } : State) = { s.offAct with sched := [] } := by
  unfold schedShoot
  split
  · rfl
  · rename_i e _
    have hact : ({ (if a.idle then (s, 0x0401) else schedAct s e).1.offAct with sched := [] } : State) = { s.offAct with sched := [] } := by
      split
      · rfl
      · rw [schedAct_offAct]
    generalize (if a.idle then (s, 0x0401) else schedAct s e) = x at hact
    obtain ⟨u, st⟩ := x
    dsimp only at hact ⊢
    rw [evT_offAct, ← hact]
    split <;> rfl

/-- An entry that fires is named in the values of its tenant's frame, and wakes the device. -/
def schedNamed (s : State) (e : Sched) (a : SchedShot) : State :=
  let t := if e.owner = 0xFFFF then 0 else e.owner
  wake (if thas s.tenants t then modTenant s t (fun x => { x with acted := x.acted ++ [a] }) else s)

theorem schedNamed_offAct (s : State) (e : Sched) (a : SchedShot) : (schedNamed s e a).offAct = s.offAct := by
  unfold schedNamed
  rw [wake_offAct]
  split <;> split <;> rfl

theorem schedFire_eq {s : State} {i : Nat} {e : Sched} (hget : tget s.sched i = some e) (hrole : follows s = false) (aux : Nat) (idle : Bool) (at_ : Option Nat) :
    schedFire s i aux idle at_ = schedShoot (schedNamed s e ⟨i, aux, idle, at_⟩) ⟨i, aux, idle, at_⟩ := by
  rw [schedFire, hget]
  simp only [hrole, Bool.false_eq_true, if_false]
  rfl

theorem schedFire_of_none {s : State} {i : Nat} (hget : tget s.sched i = none) (aux : Nat) (idle : Bool) (at_ : Option Nat) :
    schedFire s i aux idle at_ = s := by
  rw [schedFire, hget]

theorem schedFire_of_follows {s : State} (hrole : follows s = true) (i aux : Nat) (idle : Bool) (at_ : Option Nat) : schedFire s i aux idle at_ = s := by
  unfold schedFire
  split
  · rfl
  · rw [if_pos hrole]

theorem schedFire_offAct (s : State) (i aux : Nat) (idle : Bool) (at_ : Option Nat) :
    ({ (schedFire s i aux idle at_).offAct with sched := [] } : State) = { s.offAct with sched := [] } := by
  cases hget : tget s.sched i with
  | none => rw [schedFire_of_none hget]
  | some e =>
    cases hrole : follows s with
    | true => rw [schedFire_of_follows hrole]
    | false => rw [schedFire_eq hget hrole, schedShoot_offAct, schedNamed_offAct]

@[simp] theorem schedFire_cal (s : State) (i aux : Nat) (idle : Bool) (at_ : Option Nat) : (schedFire s i aux idle at_).cal = s.cal :=
  (congrArg State.cal (schedFire_offAct s i aux idle at_) :)

/-! ### A commit (13 R283, R284) -/

/-- The calendar after a possible date has been loaded. -/
def Cal.loaded (c : Cal) : Cal :=
  { c with pending := false, syncAt := none, now := calOf c.set, sub := 0, valid := true, wday := weekday (calOf c.set).secs }

theorem calLoad_of_ok {s : State} (hpend : s.cal.pending = true) (hsync : s.cal.syncAt = none) (hok : (calOf s.cal.set).ok = true) :
    (calLoad s).cal = s.cal.loaded := by
  unfold calLoad
  simp only [hpend, hsync, hok, Bool.not_true, Bool.false_eq_true, if_false]
  split
  · rfl
  · exact foldl_keeps State.cal (fun s e => by split <;> rw [schedFire_cal]) _ _

theorem calLoad_of_bad {s : State} (hpend : s.cal.pending = true) (hsync : s.cal.syncAt = none) (hbad : (calOf s.cal.set).ok = false) :
    calLoad s = xbPass 1 { s with cal := { s.cal with pending := false, syncAt := none, dateErr := true } } := by
  unfold calLoad
  simp only [hpend, hsync, hbad, Bool.not_true, Bool.not_false, Bool.false_eq_true, if_false, if_true]

theorem calLoad_of_none {s : State} (hpend : s.cal.pending = false) : calLoad s = s := if_pos (by simp [hpend])

theorem exec_calLoad (s : State) : exec .calLoad s = .next (settled s (calLoad (begun s))) := rfl

theorem exec_xbTick (n : Nat) (s : State) : exec (.xbTick n) s = .next (settled s (xbTick n (begun s))) := rfl

theorem exec_calCommitWrite {s : State} (hst : s.clk.started = true) {v : BitVec 32} (hlow : v.toNat / 2 % 2 ^ 15 = 0) (hhigh : v.toNat / 2 ^ 26 = 0) :
    exec (.calCommitWrite v) s = .next (settled s { begun s with cal := { s.cal with
      trim := v.toNat / 2 ^ 16 % 2 ^ 10, pending := s.cal.pending || bit v.toNat 0, syncAt := if bit v.toNat 0 then none else s.cal.syncAt } }) := by
  have hrsv : ¬ (bits v.toNat 15 1 ≠ 0 ∨ bits v.toNat 31 26 ≠ 0) := by
    have h1 : bits v.toNat 15 1 = 0 := by simpa [bits] using hlow
    have h2 : bits v.toNat 31 26 = 0 := by rw [bits, hhigh]; rfl
    simp [h1, h2]
  refine (if_neg hrsv).trans ?_
  rw [runBase_of_started hst]
  rfl

theorem bit_toNat {w : Nat} (v : BitVec w) (i : Nat) : bit v.toNat i = v.getLsbD i := by
  rw [bit, BitVec.getLsbD, Nat.testBit_eq_decide_div_mod_eq]
  rfl

/-! ### An entry that is due fires (13 R284, 20 R387) -/

theorem exec_schedEntryFire {s : State} (hst : s.clk.started = true) (i : Nat) :
    exec (.schedEntryFire i) s = .next (settled s (schedArrive i (begun s))) := runBase_of_started hst _

section
variable {s : State} {i : Nat} {e : Sched} (hget : tget s.sched i = some e) (htrig : e.trigger = 0)
include hget

theorem schedShoot_of_entry (aux : Nat) (at_ : Option Nat) : schedShoot s ⟨i, aux, false, at_⟩ =
    evT (if e.rep = 0 ∨ e.trigger = 1 then { (schedAct s e).1 with sched := tdel (schedAct s e).1.sched i }
      else { (schedAct s e).1 with sched := tset (schedAct s e).1.sched i { e with due := false, last := at_ } }) e.owner 0x903 i (schedAct s e).2 aux := by
  rw [schedShoot, hget]
  rfl

include htrig

theorem schedArrive_of_due (hdue : e.due = true) : schedArrive i s = schedFire s i 0 false (some s.cal.now.secs) := by
  rw [schedArrive, hget]
  simp only [htrig, hdue, if_true]

theorem schedArrive_of_not (h : e.due = false ∨ follows s = true) : schedArrive i s = s := by
  rw [schedArrive, hget]
  simp only [htrig, if_true]
  split
  · rename_i hdue
    rw [schedFire_of_follows (h.resolve_left (by simp [hdue]))]
  · rfl

/-- A one-shot entry is freed, a repeating one keeps the instant. -/
theorem tget_schedShoot (hsorted : Rising s.sched) (aux : Nat) (at_ : Option Nat) : tget (schedShoot s ⟨i, aux, false, at_⟩).sched i =
    if e.rep = 0 then none else some { e with due := false, last := at_ } := by
  have hsched : (schedAct s e).1.sched = s.sched := (congrArg State.sched (schedAct_offAct s e) :)
  rw [schedShoot_of_entry hget, hsched]
  by_cases hrep : e.rep = 0
  · rw [if_pos (.inl hrep), if_pos hrep]
    exact tget_tdel_self i hsorted
  · rw [if_neg (by simp [hrep, htrig]), if_neg hrep]
    exact tget_tset_self _ _ _

omit htrig in
theorem schedShoot_gpio (aux : Nat) (at_ : Option Nat) : (schedShoot s ⟨i, aux, false, at_⟩).gpio = (schedAct s e).1.gpio := by
  rw [schedShoot_of_entry hget]
  split <;> rfl

end

/-- A GPIO action sets the pin (20 R387). -/
theorem schedAct_gpio {s : State} {e : Sched} (hact : e.action = 2) (hkey : thas s.gpioKeys (fld e.p 17 1 % 32) = false) :
    bit (schedAct s e).1.gpio.out (fld e.p 17 1 % 32) = bit (fld e.p 17 1) 7 := by
  unfold schedAct
  rw [hact]
  dsimp only
  rw [if_neg (by simp [hkey])]
  exact (bit_setBit _ _ _ _).trans (if_pos rfl)

/-- Settles O45: the successor by the branches of `CalTime.next`, a pass of cycles by induction on the seconds it completes, and a firing by the
lemmas about `schedShoot`. What the cycles of XB_TICK count and do with a refused load is log entry 29, their spread under CAL_TRIM and what a
standby fires log entry 117, the check of a date at its load log entry 66. -/
theorem calendarAndSchedule : Obligations.CalendarAndSchedule := by
  unfold Obligations.CalendarAndSchedule
  refine ⟨fun c hok => ⟨CalTime.next_of_ok hok, fun h => by subst h; rfl⟩, fun s => ?_⟩
  dsimp only
  refine ⟨fun n hwait => ?_, fun n hn hpend hsync hok => ?_, fun htrim h0 h1 => counted_of_no_trim htrim h0 h1 _, rfl, fun hst v hlow hhigh => ?_,
    fun hpend => ?_, fun hpend hsync => ⟨fun hok => ?_, fun hbad => ?_⟩, fun i e hst hsorted hget htrig hdue hrole => ?_, fun i h => ?_⟩
  · obtain ⟨wday, wrap, hcal, hwday, hwrap⟩ := xbPass_cal n (begun s)
    have htick : xbTick n (begun s) = xbPass n (begun s) := by
      rw [xbTick, if_neg]
      rcases hwait with h | h
      · simp [begun, h]
      · simp [begun, Option.isNone_iff_eq_none, h]
    refine ⟨_, exec_xbTick n s, ?_⟩
    rw [htick, settled_cal]
    rw [hcal]
    exact ⟨rfl, rfl, fun hk => hwday (Nat.div_pos hk (by decide)), rfl, fun hk hz => hwrap hk hz⟩
  · have hload := calLoad_of_ok (s := begun s) hpend hsync hok
    obtain ⟨wday, wrap, hcal, -, -⟩ := xbPass_cal (n - 1) (calLoad (begun s))
    have htick : xbTick n (begun s) = xbPass (n - 1) (calLoad (begun s)) := by
      rw [xbTick, if_pos]
      simp [begun, hpend, hsync]
    refine ⟨_, exec_xbTick n s, ?_⟩
    rw [htick, settled_cal]
    rw [hcal, hload]
    exact ⟨rfl, rfl, rfl, rfl⟩
  · refine ⟨_, exec_calCommitWrite hst hlow hhigh, ?_⟩
    rw [settled_cal, bit_toNat]
    exact ⟨rfl, rfl, rfl, rfl⟩
  · rw [exec_calLoad, calLoad_of_none (s := begun s) hpend]
  · refine ⟨_, exec_calLoad s, ?_⟩
    rw [settled_cal, calLoad_of_ok (s := begun s) hpend hsync hok]
    exact ⟨rfl, rfl, rfl, rfl, rfl⟩
  · rw [exec_calLoad, calLoad_of_bad (s := begun s) hpend hsync hbad]
    rfl
  · obtain ⟨hnsched, hnkeys⟩ : (schedNamed (begun s) e ⟨i, 0, false, some (begun s).cal.now.secs⟩).sched = s.sched
        ∧ (schedNamed (begun s) e ⟨i, 0, false, some (begun s).cal.now.secs⟩).gpioKeys = s.gpioKeys :=
      ⟨(congrArg State.sched (schedNamed_offAct (begun s) e _) :), (congrArg State.gpioKeys (schedNamed_offAct (begun s) e _) :)⟩
    refine ⟨_, exec_schedEntryFire hst i, ?_⟩
    rw [settled_sched, settled_gpio, schedArrive_of_due (s := begun s) hget htrig hdue, schedFire_eq (s := begun s) hget hrole,
      tget_schedShoot (by rw [hnsched]; exact hget) htrig (by rw [hnsched]; exact hsorted), schedShoot_gpio (by rw [hnsched]; exact hget)]
    exact ⟨fun hrep => if_pos hrep, fun hrep => if_neg hrep, fun hact hkey => schedAct_gpio hact (by rw [hnkeys]; exact hkey)⟩
  · have hidle : schedArrive i (begun s) = begun s := by
      rcases h with hnone | ⟨e, hget, htrig, h⟩
      · rw [schedArrive, show tget (begun s).sched i = none from hnone]
      · exact schedArrive_of_not (s := begun s) hget htrig h
    show run s (fun s => if s.clk.started then schedArrive i s else s) = _
    rw [run_eq, hidle, ite_self]

end Sys2Proof.Machine
end

section
/-! Time bases: slews, steps, anchors, the loss of a master and time transfer (13 R271 to R280, 15 R310). -/
namespace Sys2Proof.Machine

/-! ### One time base changed -/

theorem tb_congr {s u : State} (h : u.tbs = s.tbs) (k : Nat) : tb u k = tb s k := by rw [tb, h, tb]

section
variable (s : State) (k : Nat)

@[simp] theorem tb_settled (u : State) : tb (settled s u) k = tb u k := tb_congr (settled_tbs s u) k
@[simp] theorem tb_begun : tb (begun s) k = tb s k := rfl
@[simp] theorem tb_evD (typ obj status aux : Nat) : tb (evD s typ obj status aux) k = tb s k := rfl
@[simp] theorem tb_drawBelow (n : Nat) : tb (drawBelow s n).2 k = tb s k := rfl
@[simp] theorem tb_drawInt (lo hi : Int) : tb (drawInt s lo hi).2 k = tb s k := rfl
@[simp] theorem tb_modTb_self (f : TimeBase → TimeBase) : tb (modTb s k f) k = f (tb s k) := tgetD_tset_self _ _ _ _

theorem tb_modTb_ne {j : Nat} (hj : j ≠ k) (f : TimeBase → TimeBase) : tb (modTb s k f) j = tb s j := tgetD_tset_ne _ _ _ hj

@[simp] theorem tb_schedFire (i aux : Nat) (idle : Bool) (at_ : Option Nat) : tb (schedFire s i aux idle at_) k = tb s k :=
  tb_congr (congrArg State.tbs (schedFire_offAct s i aux idle at_) :) k

@[simp] theorem tb_schedStep (t old : Nat) (off : Int) : tb (schedStep s t old off) k = tb s k :=
  foldl_keeps (fun u => tb u k) (fun u (e : Nat × Sched) => tb_schedFire u k e.1 1 false none) _ s

end

/-! ### A slew comes to its end (13 R279) -/

/-- `n` Mere cycles of a time base of the device. -/
theorem tb_advance {s : State} (h : mereRuns s = true) {k : Nat} (hslew : (tb s k).slew ≠ 0) (n : Nat) : tb (advance n s) k = (tb s k).advance n := by
  rw [advance, if_pos h]
  cases hget : tget s.tbs k with
  | none => rw [tb, tgetD, hget] at hslew; exact absurd rfl hslew
  | some b => simp [tb, tgetD, tget_map, hget]

/-- The cycles until a slew has been applied, as TB_SLEW_DONE waits for them. -/
def TimeBase.slewCycles (b : TimeBase) : Nat := (b.slew.natAbs + ((b.inc : Int) - effInc b.adj).natAbs - 1) / ((b.inc : Int) - effInc b.adj).natAbs

section
variable {b : TimeBase} (hslew : b.slew ≠ 0) (hrate : b.inc ≠ effInc b.adj)
include hslew hrate

theorem TimeBase.slewCycles_spec : 0 < b.slewCycles ∧ b.slew.natAbs ≤ b.slewCycles * ((b.inc : Int) - effInc b.adj).natAbs := by
  have hper : 0 < ((b.inc : Int) - effInc b.adj).natAbs := by omega
  have hoff : 0 < b.slew.natAbs := by omega
  unfold TimeBase.slewCycles
  generalize ((b.inc : Int) - effInc b.adj).natAbs = per at hper
  have hdiv := Nat.div_add_mod' (b.slew.natAbs + per - 1) per
  have hmod := Nat.mod_lt (b.slew.natAbs + per - 1) hper
  refine ⟨Nat.div_pos (by omega) hper, by omega⟩

/-- After these cycles the whole offset is applied, exactly. -/
theorem TimeBase.advance_slewCycles : b.advance b.slewCycles =
    { b with slew := 0, val := ((b.val + b.slewCycles * effInc b.adj : Nat) + b.slew).toNat % 2 ^ 80 } := by
  obtain ⟨-, hle⟩ := TimeBase.slewCycles_spec hslew hrate
  have hwant : b.slew.natAbs ≤ ((b.slewCycles : Int) * ((effInc (b.adj + slewAdj b) : Int) - effInc b.adj)).natAbs := by
    rw [Int.natAbs_mul, Int.natAbs_natCast]
    exact hle
  unfold TimeBase.advance
  dsimp only
  rw [if_pos hwant, Int.sub_self]

end

theorem exec_tbSlewDone (k : Nat) (s : State) : exec (.tbSlewDone k) s = .next (settled s (slewDone k (begun s))) := rfl

theorem slewDone_of_none {s : State} {k : Nat} (h : (tb s k).slew = 0) : slewDone k s = s := if_pos (.inl h)

theorem slewDone_of_slew {s : State} {k : Nat} (hslew : (tb s k).slew ≠ 0) (hrate : (tb s k).inc ≠ effInc (tb s k).adj) :
    slewDone k s = advance (tb s k).slewCycles s := if_neg (by omega)

theorem mere_advance {s : State} (h : mereRuns s = true) (n : Nat) : (advance n s).mere = s.mere + n := by rw [advance, if_pos h]

/-! ### A step (13 R280) -/

theorem tb_tbStep_self (s : State) (k : Nat) (off : Int) : tb (tbStep s k off) k =
    { tb s k with
      val := ((((tb s k).val : Int) + off * (2 ^ 32 : Nat)) % (2 ^ 80 : Nat)).toNat, slew := 0, stepped := true, valid := true
      ptp := tmap (tb s k).ptp (fun _ q => { q with pend := none, sync := none, request := none, answer := none }) } := by
  unfold tbStep
  dsimp only
  split <;> simp

theorem tb_tbStep_ne (s : State) {k j : Nat} (hj : j ≠ k) (off : Int) : tb (tbStep s k off) j = tb s j := by
  unfold tbStep
  dsimp only
  split <;> simp [tb_modTb_ne _ _ hj]

/-! ### An anchor, and the loss of a master (13 R274, R276) -/

theorem exec_tbAnchorWrite {s : State} (hst : s.clk.started = true) {k : Nat} (hk : k < 16) (sec ns : Nat) :
    exec (.tbAnchorWrite k sec ns) s = .next (settled s { begun s with tbs := tset s.tbs k { tb s k with
      sec := sec % 2 ^ 48, ns := ns % 1000000000, gen := ((tb s k).gen + 1) % 256, low := (tb s k).val / 2 ^ 48, anchorAt := some s.mere } }) := by
  refine (runBase_of_started hst _).trans ?_
  rw [tbAnchor, if_neg (by omega)]
  rfl

theorem exec_ptpMasterLoss {s : State} (hst : s.clk.started = true) (k : Nat) :
    exec (.ptpMasterLoss k) s = .next (settled s (masterLoss k (begun s))) := runBase_of_started hst _

/-- A time base whose PTP clock has lost its master. -/
def TimeBase.masterless (b : TimeBase) (avg : Nat) : TimeBase :=
  { b with holdover := true, locked := false, slew := 0, adj := meanAdj b.hist avg b.adj
           ptp := tmap b.ptp (fun _ q => if q.state = 3 then { q with best := none } else q) }

theorem masterLoss_of_slave {s : State} {k : Nat} (hmode : (tb s k).mode = 1) :
    masterLoss k s = ptpDecide (modTb s k (fun b => b.masterless s.refs.hoAvg)) k := by
  rw [masterLoss, if_pos hmode]
  dsimp only
  simp only [modTb, tb, tgetD_tset_self, tset_tset_self]
  rfl

theorem masterLoss_of_other {s : State} {k : Nat} (hmode : (tb s k).mode ≠ 1) : masterLoss k s = s := if_neg hmode

/-- The PTP ports of a time base take new states; nothing but their traffic state is changed with it. -/
theorem tb_ptpDecide_self (s : State) (k : Nat) : ∃ f : Nat → PtpPort → PtpPort, (∀ p q, (f p q).best = q.best)
    ∧ tb (ptpDecide s k) k = { tb s k with ptp := tmap (tb s k).ptp f } := by
  refine ⟨_, fun p q => ?_, tb_modTb_self _ _ _⟩
  dsimp only
  split <;> rfl

theorem tb_ptpDecide_ne (s : State) {k j : Nat} (hj : j ≠ k) : tb (ptpDecide s k) j = tb s j := tb_modTb_ne _ _ hj _

/-- The slave port forgets its master. -/
theorem masterless_best {b : TimeBase} {avg : Nat} {f : Nat → PtpPort → PtpPort} (hf : ∀ p q, (f p q).best = q.best) {p : Nat} {q : PtpPort}
    (hget : tget b.ptp p = some q) (hq : q.state = 3) : (tget (tmap (b.masterless avg).ptp f) p).map (·.best) = some none := by
  rw [tget_tmap, TimeBase.masterless]
  dsimp only
  rw [tget_tmap, hget]
  simp [hf, hq]

/-! ### The servo (13 R276 to R280) -/

@[simp] theorem tb_tbSlew_ne (s : State) {k j : Nat} (hj : j ≠ k) (rate : Nat) (off : Int) : tb (tbSlew s k rate off) j = tb s j := tb_modTb_ne _ _ hj _

/-- What a servo may do to a time base: it keeps VALID where it does not step. -/
def Steers (k : Nat) (s u : State) : Prop := ((tb s k).valid = true → (tb u k).valid = true) ∧ ∀ j, j ≠ k → tb u j = tb s j

section
variable {k : Nat} {s u v : State}

theorem Steers.refl (h : ∀ j, tb u j = tb s j) : Steers k s u := ⟨fun hv => by rw [h]; exact hv, fun j _ => h j⟩

theorem Steers.trans (h : Steers k s u) (h' : Steers k u v) : Steers k s v :=
  ⟨fun hv => h'.1 (h.1 hv), fun j hj => (h'.2 j hj).trans (h.2 j hj)⟩

theorem Steers.of_mod {f : TimeBase → TimeBase} (hf : (tb s k).valid = true → (f (tb s k)).valid = true) : Steers k s (modTb s k f) :=
  ⟨fun hv => by rw [tb_modTb_self]; exact hf hv, fun _ hj => tb_modTb_ne s k hj f⟩

theorem Steers.of_step (off : Int) : Steers k s (tbStep s k off) :=
  ⟨fun _ => by rw [tb_tbStep_self], fun _ hj => tb_tbStep_ne s hj off⟩

theorem Steers.of_slew (rate : Nat) (off : Int) : Steers k s (tbSlew s k rate off) := .of_mod id

end

/-- What a servo called upon does before it marks the time base: `k` what is called for, `f` a frequency, `r` the rate of a slew. -/
def servoActs (s : State) (t c : Nat) (f r off : Int) : State :=
  let b := tb s t
  if c == 3 || b.forced then
    if stepRefused b off && !b.forced then
      let s := tbSlew (modTb s t (fun b => { b with stepRef := true, refused := true })) t r.toNat (-off)
      if b.refused then s else evD s 0x902 t 0 0
    else modTb (tbStep s t (-off)) t (fun b => { b with forced := false, refused := false })
  else if c = 1 then modTb s t (fun b => { b with adj := f })
  else if c = 2 then tbSlew s t r.toNat (-off)
  else s

theorem servo_eq (s : State) (t : Nat) (off : Int) : ∃ n c f r, ∃ lk : Bool, servo s t off =
    modTb (servoActs { s with free := n } t c f r off) t (fun b => { b with holdover := false, locked := lk, valid := b.valid || lk }) :=
  ⟨_, _, _, _, _, rfl⟩

theorem servoActs_steers (s : State) (t c : Nat) (f r off : Int) : Steers t s (servoActs s t c f r off) := by
  unfold servoActs
  dsimp only
  split
  · split
    · have hslew := (Steers.of_mod (s := s) (k := t) (f := fun b => { b with stepRef := true, refused := true }) id).trans (.of_slew r.toNat (-off))
      split
      · exact hslew
      · exact hslew.trans (.refl fun _ => rfl)
    · exact (Steers.of_step (-off)).trans (.of_mod id)
  · split
    · exact .of_mod id
    · split
      · exact .of_slew _ _
      · exact .refl fun _ => rfl

/-- The servo ends holdover. -/
theorem servo_steers (s : State) (t : Nat) (off : Int) : Steers t s (servo s t off) ∧ (tb (servo s t off) t).holdover = false := by
  obtain ⟨n, c, f, r, lk, h⟩ := servo_eq s t off
  rw [h]
  exact ⟨((Steers.refl (u := { s with free := n }) fun _ => rfl).trans (servoActs_steers _ t c f r off)).trans (.of_mod fun hv => by simp [hv]),
    by rw [tb_modTb_self]⟩

theorem exec_timeTransferRx {s : State} (hrun : s.clk.running = true) (k : Nat) (off : Int) :
    exec (.timeTransferRx k off) s = .next (settled s (timeTransfer k off (begun s))) := runMere_of_running hrun _

theorem timeTransfer_of_worker {s : State} {k : Nat} (hk : k < 16) (hmode : (tb s k).mode = 1) (hnum : s.cway.numbered = true)
    (hman : s.cway.manager = false) (off : Int) : timeTransfer k off s = servo s k off :=
  if_pos ⟨hk, .inl ⟨by simp [hnum, hman], hmode⟩⟩

theorem timeTransfer_of_standby {s : State} {k : Nat} (hk : k < 16) (hrole : follows s = true) (off : Int) : timeTransfer k off s = servo s k off :=
  if_pos ⟨hk, .inr hrole⟩

theorem timeTransfer_of_other {s : State} {k : Nat}
    (h : 16 ≤ k ∨ (follows s = false ∧ ((tb s k).mode ≠ 1 ∨ s.cway.numbered = false ∨ s.cway.manager = true))) (off : Int) :
    timeTransfer k off s = s := by
  refine if_neg ?_
  rintro ⟨hk, hw⟩
  rcases h with h | ⟨hrole, h⟩
  · omega
  · rcases hw with ⟨hworker, hmode⟩ | hf
    · obtain ⟨hnum, hman⟩ := Bool.and_eq_true_iff.mp hworker
      rcases h with h | h | h
      · exact h hmode
      · rw [h] at hnum; exact absurd hnum (by decide)
      · rw [h] at hman; exact absurd hman (by decide)
    · rw [hrole] at hf; exact absurd hf (by decide)

/-- Settles O46. That the end of a slew moves Mere time to it is the model's choice (log entry 6), which time bases a transferred value steers
log entry 99, what a servo calls for log entry 30. -/
theorem timeBasesAreSteered : Obligations.TimeBasesAreSteered := by
  unfold Obligations.TimeBasesAreSteered
  intro k s
  dsimp only
  refine ⟨fun hslew => ?_, fun hslew hrate hrun => ?_, fun off => ?_, fun hk hst sec ns => exec_tbAnchorWrite hst hk sec ns, fun hmode hst => ?_, fun hmode => ?_,
    fun hrun off => ⟨fun hk hmode hnum hman => ?_, fun hk hrole => ?_, fun h => ?_⟩⟩
  · rw [exec_tbSlewDone, slewDone_of_none (s := begun s) hslew]
  · obtain ⟨hpos, -⟩ := TimeBase.slewCycles_spec hslew hrate
    refine ⟨_, exec_tbSlewDone k s, ?_⟩
    rw [slewDone_of_slew (s := begun s) hslew hrate, settled_mere, mere_advance (s := begun s) hrun, tb_settled, tb_advance (s := begun s) hrun hslew, tb_begun,
      TimeBase.advance_slewCycles hslew hrate]
    have hpass : (begun s).mere + (tb s k).slewCycles - s.mere = (tb s k).slewCycles := Nat.add_sub_cancel_left _ _
    rw [hpass]
    exact ⟨Nat.lt_add_of_pos_right hpos, rfl⟩
  · rw [tb_tbStep_self]
    exact ⟨rfl, rfl, rfl, rfl, fun j hj => tb_tbStep_ne s hj off⟩
  · obtain ⟨f, hf, hdecide⟩ := tb_ptpDecide_self (modTb (begun s) k (fun b => b.masterless s.refs.hoAvg)) k
    rw [tb_modTb_self, tb_begun] at hdecide
    refine ⟨_, exec_ptpMasterLoss hst k, ?_⟩
    rw [masterLoss_of_slave (s := begun s) hmode]
    simp only [tb_settled]
    rw [show (begun s).refs = s.refs from rfl, hdecide]
    exact ⟨rfl, rfl, rfl, rfl, rfl, rfl, fun j hj => by rw [tb_ptpDecide_ne _ hj, tb_modTb_ne _ _ hj, tb_begun],
      fun p q hget hq => masterless_best hf hget hq⟩
  · show run s (fun s => if s.clk.started then masterLoss k s else s) = _
    rw [run_eq, masterLoss_of_other (s := begun s) hmode, ite_self]
  · obtain ⟨⟨hvalid, hne⟩, hhold⟩ := servo_steers (begun s) k off
    refine ⟨_, exec_timeTransferRx hrun k off, ?_⟩
    rw [timeTransfer_of_worker (s := begun s) hk hmode hnum hman]
    simp only [tb_settled]
    exact ⟨hhold, hvalid, hne⟩
  · obtain ⟨⟨-, hne⟩, hhold⟩ := servo_steers (begun s) k off
    refine ⟨_, exec_timeTransferRx hrun k off, ?_⟩
    rw [timeTransfer_of_standby (s := begun s) hk hrole]
    simp only [tb_settled]
    exact ⟨hhold, hne⟩
  · rw [exec_timeTransferRx hrun, timeTransfer_of_other (s := begun s) h]

end Sys2Proof.Machine
end

section
/-! The clocks of chapter 14: what failures, the safe state and recovery leave of them (14 R290 to R297). -/
namespace Sys2Proof.Machine

/-! ### What the loss of lanes, ports and the role leaves of the clocks -/

/-- What chapter 14 rests on: the clock record, the device record and the two clock selectors. -/
def State.clocks (s : State) : Clk × Dev × Nat × Nat := (s.clk, s.dev, tripGet s .coreSrc, tripGet s .foscSel)

section
variable (s : State)

@[simp] theorem tripGet_settled (u : State) (f : TripField) : tripGet (settled s u) f = tripGet u f := by
  rw [tripGet, settled_votes, tripGet]

@[simp] theorem evD_clocks (typ obj status aux : Nat) : (evD s typ obj status aux).clocks = s.clocks := rfl
@[simp] theorem modCway_clocks (f : Cway → Cway) : (modCway s f).clocks = s.clocks := rfl
@[simp] theorem modNet_clocks (p : Nat) (f : NetPort → NetPort) : (modNet s p f).clocks = s.clocks := rfl

@[simp] theorem netInt_clocks (p b : Nat) : (netInt s p b).clocks = s.clocks := by
  unfold netInt; dsimp only; split
  · rfl
  · split <;> rfl

@[simp] theorem netCount_clocks (p i k : Nat) : (netCount s p i k).clocks = s.clocks := by
  unfold netCount; dsimp only; split <;> simp

@[simp] theorem askWeir_clocks (c n : Nat) (w : WeirWhat) : (askWeir s c n w).clocks = s.clocks := by
  unfold askWeir; split <;> rfl

@[simp] theorem linkDrop_clocks (p : Nat) : (linkDrop s p).clocks = s.clocks := by
  unfold linkDrop; dsimp only; split <;> simp

@[simp] theorem linkDown_clocks (p : Nat) : (linkDown s p).clocks = s.clocks := by
  unfold linkDown askAdapt
  split
  · exact (foldl_keeps State.clocks (fun s g => askWeir_clocks s 2 2 (.serdes g)) _ _).trans (linkDrop_clocks s p)
  · rfl

@[simp] theorem finish_clocks (p : PendCmd) (status aux : Nat) : (finish s p status aux).clocks = s.clocks := by
  unfold finish complete laneOut
  dsimp only
  split
  · rfl
  · split
    · split <;> rfl
    · rfl

/-- Forwarded requests that leave change only the list of them. -/
theorem sendFwds_clocks : ∀ (todo sent : List Fwd) (left : List Nat) (s : State), (sendFwds sent todo left s).clocks = s.clocks := by
  intro todo
  induction todo with
  | nil => exact fun _ _ _ => rfl
  | cons f fs ih =>
    intro sent left s
    unfold sendFwds
    split
    · split
      · exact ih ..
      · exact ih ..
    · exact ih ..

@[simp] theorem loseDevice_clocks (d : Nat) : (loseDevice s d).clocks = s.clocks := by
  unfold loseDevice vcSend
  dsimp only
  split
  · rw [sendFwds_clocks, evD_clocks]
    exact foldl_keeps State.clocks (fun s p => finish_clocks s p 0x0402 0) _ _
  · rfl

@[simp] theorem cwAllDown_clocks : (cwAllDown s).clocks = s.clocks := by
  unfold cwAllDown
  dsimp only
  split
  · exact foldl_keeps State.clocks (fun s (d : Nat × CwDev) => loseDevice_clocks s d.1) _ _
  · split <;> rfl

@[simp] theorem lpInt_clocks (k b : Nat) : (lpInt s k b).clocks = s.clocks := by
  unfold lpInt; dsimp only; split
  · rfl
  · split <;> rfl

@[simp] theorem lpShow_clocks (k : Nat) : (lpShow s k).clocks = s.clocks := by
  unfold lpShow; split <;> rfl

@[simp] theorem lpFault_clocks (k cause : Nat) : (lpFault s k cause).clocks = s.clocks := by
  unfold lpFault; dsimp only; split
  · rw [lpShow_clocks, lpEv]
    exact (lpInt_clocks _ k 1).trans rfl
  · rfl

@[simp] theorem tripSet_own_clocks (r : Nat) : (tripSet s .own r).clocks = s.clocks := by
  simp [State.clocks, tripGet_tripSet]
@[simp] theorem tripSet_role_clocks (r : Nat) : (tripSet s .role r).clocks = s.clocks := by
  simp [State.clocks, tripGet_tripSet]
@[simp] theorem modTwin_clocks (f : Twin → Twin) : (modTwin s f).clocks = s.clocks := rfl

@[simp] theorem setRole_clocks (r : Nat) : (setRole s r).clocks = s.clocks := by
  unfold setRole
  dsimp only
  split
  · rfl
  · split <;> simp

/-- The safe state sets SAFE and changes nothing else of the clocks (14 R292). -/
theorem enterSafe_clocks : (enterSafe s).clocks = ({ s with dev := { s.dev with safe := true } } : State).clocks := by
  unfold enterSafe
  cases hsafe : s.dev.safe with
  | true =>
    rw [if_pos rfl, ← hsafe]
  | false =>
    rw [if_neg (by simp)]
    dsimp only
    have hlines : ∀ u : State, ((cwAllDown ((List.range 8).foldl linkDown u)).lps.foldl (fun s e => lpFault s e.1 0) (cwAllDown ((List.range 8).foldl linkDown u))).clocks
        = u.clocks := fun u => by
      refine (foldl_keeps State.clocks (fun s (e : Nat × LpPort) => lpFault_clocks s e.1 0) _ _).trans ?_
      rw [cwAllDown_clocks]
      exact foldl_keeps State.clocks linkDown_clocks _ _
    split
    · exact hlines _
    · rw [displace, setRole_clocks, modTwin_clocks]
      exact hlines _

theorem clocks_of_offLakebed {u : State} (h : u.offLakebed = s.offLakebed) : u.clocks = s.clocks := (congrArg State.clocks h :)

end

/-! ### One source, oscillator or set of domains -/

section
variable (s : State) (b : Bool)

@[simp] theorem modClk_clk (f : Clk → Clk) : (modClk s f).clk = f s.clk := rfl
@[simp] theorem modClk_dev (f : Clk → Clk) : (modClk s f).dev = s.dev := rfl
@[simp] theorem tripGet_modClk (f : Clk → Clk) (g : TripField) : tripGet (modClk s f) g = tripGet s g := rfl

@[simp] theorem setSrc_sosc : (setSrc s 0 b).clk = { s.clk with sosc := b } := rfl
@[simp] theorem setSrc_foscA : (setSrc s 1 b).clk = { s.clk with foscA := b } := rfl
@[simp] theorem setSrc_foscB : (setSrc s 2 b).clk = { s.clk with foscB := b } := rfl
@[simp] theorem setSrc_xa : (setSrc s 3 b).clk = { s.clk with xa := b } := rfl
@[simp] theorem setSrc_root : (setSrc s 4 b).clk = { s.clk with root := b } := rfl
@[simp] theorem setSrc_dev (k : Nat) : (setSrc s k b).dev = s.dev := rfl
@[simp] theorem tripGet_setSrc (k : Nat) (g : TripField) : tripGet (setSrc s k b) g = tripGet s g := rfl

@[simp] theorem foscEnable_clk (o : Nat) : (foscEnable s o b).clk =
    { s.clk with enA := if o = 0 then b else s.clk.enA, enB := if o = 0 then s.clk.enB else b, tries := tdel s.clk.tries (1 + o) } := rfl
@[simp] theorem foscEnable_dev (o : Nat) : (foscEnable s o b).dev = s.dev := rfl
@[simp] theorem tripGet_foscEnable (o : Nat) (g : TripField) : tripGet (foscEnable s o b) g = tripGet s g := rfl

@[simp] theorem stopMere_clk : (stopMere s).clk = { s.clk with running := false } := rfl
@[simp] theorem stopMere_dev : (stopMere s).dev = s.dev := rfl
@[simp] theorem tripGet_stopMere_coreSrc : tripGet (stopMere s) .coreSrc = 0 := by
  rw [stopMere, tripGet_tripSet, if_pos rfl]

end

/-! ### A failure (14 R292, R293) -/

/-- A device-wide failure enters the list of those that last and forces the safe state. -/
theorem deviceWide_clocks (s : State) (k : Nat) : (deviceWide s k).clocks =
    ({ s.clk with failed := s.clk.failed ++ [k], tried := if s.clk.failed.isEmpty then 0 else s.clk.tried }, { s.dev with safe := true },
      tripGet s .coreSrc, tripGet s .foscSel) := by
  unfold deviceWide
  dsimp only
  split
  · exact (clocks_of_offLakebed _ (faultLog_offLakebed _ _)).trans (enterSafe_clocks _)
  · exact enterSafe_clocks _

section
variable (s : State) (k : Nat)

@[simp] theorem deviceWide_clk : (deviceWide s k).clk =
    { s.clk with failed := s.clk.failed ++ [k], tried := if s.clk.failed.isEmpty then 0 else s.clk.tried } := (congrArg (·.1) (deviceWide_clocks s k) :)
@[simp] theorem deviceWide_dev : (deviceWide s k).dev = { s.dev with safe := true } := (congrArg (·.2.1) (deviceWide_clocks s k) :)
@[simp] theorem tripGet_deviceWide_coreSrc : tripGet (deviceWide s k) .coreSrc = tripGet s .coreSrc := (congrArg (·.2.2.1) (deviceWide_clocks s k) :)

/-- CLK_FAULT takes the bit; the report waits, or has become an event. -/
theorem clkFault_clk : ∃ r, (clkFault s k).clk = { s.clk with fault := setBit s.clk.fault k true, report := r } := by
  unfold clkFault
  dsimp only
  split
  · exact ⟨_, rfl⟩
  · exact ⟨_, rfl⟩

@[simp] theorem clkFault_dev : (clkFault s k).dev = s.dev := by unfold clkFault; dsimp only; split <;> rfl
@[simp] theorem clkFault_netPorts : (clkFault s k).netPorts = s.netPorts := by unfold clkFault; dsimp only; split <;> rfl
@[simp] theorem clkFault_netGroups : (clkFault s k).netGroups = s.netGroups := by unfold clkFault; dsimp only; split <;> rfl
@[simp] theorem tripGet_clkFault (f : TripField) : tripGet (clkFault s k) f = tripGet s f := by unfold clkFault; dsimp only; split <;> rfl

end

theorem newFail_xa (s : State) : newFail 3 s = deviceWide (stopMere (setSrc (clkFault (setSrc s 3 false) 3) 4 false)) 3 := rfl
theorem newFail_root (s : State) : newFail 4 s = deviceWide (stopMere (clkFault (setSrc s 4 false) 4)) 4 := rfl

theorem srcFail_of_new {s : State} {k : Nat} (h : k ∉ s.clk.failed) : srcFail k s = newFail k s := by
  unfold srcFail
  rw [if_pos (by simpa using h)]

/-- A failure of XA or of the root's lock: the root and every synchronous domain but the fallback set stop. -/
theorem srcFail_root {s : State} {k : Nat} (hk : k = 3 ∨ k = 4) (hnew : k ∉ s.clk.failed) :
    (srcFail k s).clk.root = false ∧ (srcFail k s).clk.running = false ∧ tripGet (srcFail k s) .coreSrc = 0 ∧ (srcFail k s).dev.safe = true
      ∧ (srcFail k s).clk.failed = s.clk.failed ++ [k] ∧ bit (srcFail k s).clk.fault k = true ∧ (k = 3 → (srcFail k s).clk.xa = false) := by
  rw [srcFail_of_new hnew]
  obtain ⟨r, hr⟩ := clkFault_clk (setSrc s k false) k
  rcases hk with rfl | rfl
  · rw [newFail_xa]
    simp [hr, bit_setBit]
  · rw [newFail_root]
    simp [hr, bit_setBit]

/-! ### Recovery (14 R292, R294) -/

/-- What a source that is over reports are events only. -/
theorem foldl_reported_eq (ks : List Nat) (s : State) :
    ∃ es, ks.foldl (fun s k => if s.ctl.stage = 4 ∧ s.clk.started then evD s 0xD12 k 0 (min 0xFFFF s.clk.tried) else s) s = { s with evs := es } := by
  induction ks generalizing s with
  | nil => exact ⟨s.evs, rfl⟩
  | cons k ks ih =>
    rw [List.foldl_cons]
    split
    · exact ih (evD s 0xD12 k 0 (min 0xFFFF s.clk.tried))
    · exact ih s

/-- The failures that last. -/
def stillFailed (s : State) : List Nat := s.clk.failed.filter (fun k => !srcBack s k)

/-- Adaptation of the lanes only asks for its credits. -/
theorem cwAdapt_if_eq (s : State) (b : Bool) : ∃ p, (if b then cwAdapt s else s) = { s with pwr := p } := by
  cases b with
  | false => exact ⟨_, rfl⟩
  | true =>
    rw [if_pos rfl, cwAdapt, askWeir]
    split
    · exact ⟨_, rfl⟩
    · exact ⟨_, rfl⟩

/-- What the end of failures leaves: the events that report it, the credits that adaptation asks for, and the clocks. -/
theorem clkSettle_eq (s : State) : ∃ es p, clkSettle s =
    if (stillFailed s).isEmpty ∧ s.clk.started then
      { s with evs := es, pwr := p, clk := { s.clk with failed := [], tried := 0 }, dev := { s.dev with safe := false } }
    else { s with evs := es, clk := { s.clk with failed := stillFailed s } } := by
  unfold clkSettle
  extract_lets over_ s1 s2
  obtain ⟨es, he⟩ := foldl_reported_eq over_ s1
  have hs2 : s2 = { s1 with evs := es } := he
  obtain ⟨p, hp⟩ := cwAdapt_if_eq s2 s2.dev.safe
  refine ⟨es, p, ?_⟩
  by_cases h : (stillFailed s).isEmpty ∧ s.clk.started
  · rw [if_pos h]
    refine (if_pos (by rw [hs2]; exact h)).trans ?_
    refine (congrArg (fun u : State => modClk { u with dev := { s2.dev with safe := false } } (fun c => { c with tried := 0 })) hp).trans ?_
    rw [hs2, ← List.isEmpty_iff.mp h.1]
    rfl
  · rw [if_neg h]
    exact (if_neg (by rw [hs2]; exact h)).trans hs2

theorem clkSettle_tbs (s : State) : (clkSettle s).tbs = s.tbs := by
  obtain ⟨es, p, h⟩ := clkSettle_eq s
  rw [h]
  split <;> rfl

section
variable {s : State}

/-- A failure whose source is back is over. -/
theorem clkSettle_over {k : Nat} (h : srcBack s k = true) : k ∉ (clkSettle s).clk.failed := by
  obtain ⟨es, p, he⟩ := clkSettle_eq s
  rw [he]
  split
  · simp
  · simp [stillFailed, h]

/-- With the last failure the safe state ends. -/
theorem clkSettle_last (hstart : s.clk.started = true) (h : ∀ k ∈ s.clk.failed, srcBack s k = true) :
    (clkSettle s).dev.safe = false ∧ (clkSettle s).clk.failed = [] := by
  obtain ⟨es, p, he⟩ := clkSettle_eq s
  rw [he, if_pos ⟨by simpa [stillFailed] using h, hstart⟩]
  exact ⟨rfl, rfl⟩

/-- The end of failures starts and stops no clock. -/
theorem clkSettle_kept (s : State) : ∃ fl n, (clkSettle s).clk = { s.clk with failed := fl, tried := n } := by
  obtain ⟨es, p, he⟩ := clkSettle_eq s
  rw [he]
  split
  · exact ⟨_, _, rfl⟩
  · exact ⟨_, _, rfl⟩

@[simp] theorem tripGet_clkSettle (s : State) (f : TripField) : tripGet (clkSettle s) f = tripGet s f := by
  obtain ⟨es, p, he⟩ := clkSettle_eq s
  rw [he]
  split <;> rfl

end

end Sys2Proof.Machine
end

section
/-! Start-up and qualification of the clocks (14 R290, R294, R296, R297). -/
namespace Sys2Proof.Machine

/-! ### Mere has stood still (14 R294) -/

section
variable (s : State)

/-- Selection leaves the DPLL alone, holds over, or takes a candidate (15 R305, R306, R309). -/
theorem reselect_cases (wtr : Bool) : reselect s wtr = s ∨ reselect s wtr = holdover s ∨ ∃ n, reselect s wtr = takeCand s n := by
  unfold reselect
  dsimp only
  split
  · exact .inl rfl
  · split
    · split
      · exact .inl rfl
      · exact .inr (.inl rfl)
    · split
      · exact .inr (.inr ⟨_, rfl⟩)
      · split
        · exact .inl rfl
        · split
          · exact .inr (.inr ⟨_, rfl⟩)
          · split
            · split
              · exact .inr (.inr ⟨_, rfl⟩)
              · exact .inl rfl
            · exact .inl rfl

@[simp] theorem setSel_clocks (n : Nat) : (setSel s n).clocks = s.clocks := by simp [setSel, State.clocks, tripGet_tripSet]

theorem takeCand_clocks (n : Nat) : (takeCand s n).clocks = s.clocks := by
  unfold takeCand
  dsimp only
  split
  · rfl
  · split
    · exact setSel_clocks s n
    · exact setSel_clocks s n

theorem holdover_clocks : (holdover s).clocks = s.clocks := by
  unfold holdover
  dsimp only
  split
  · exact setSel_clocks s 0x7F
  · exact setSel_clocks s 0x7F

@[simp] theorem reselect_clocks (wtr : Bool) : (reselect s wtr).clocks = s.clocks := by
  obtain h | h | ⟨n, h⟩ := reselect_cases s wtr
  · rw [h]
  · rw [h, holdover_clocks]
  · rw [h, takeCand_clocks]

theorem takeCand_tbs (n : Nat) : (takeCand s n).tbs = s.tbs := by
  unfold takeCand
  dsimp only
  split
  · rfl
  · split <;> rfl

theorem holdover_tbs : (holdover s).tbs = s.tbs := by
  unfold holdover
  dsimp only
  split <;> rfl

theorem reselect_tbs (wtr : Bool) : (reselect s wtr).tbs = s.tbs := by
  obtain h | h | ⟨n, h⟩ := reselect_cases s wtr
  · rw [h]
  · rw [h, holdover_tbs]
  · rw [h, takeCand_tbs]

theorem mereBack_clocks : (mereBack s).clocks = s.clocks := by
  rw [mereBack, reselect_clocks, setSel_clocks]
  rfl

/-- Every time base has lost VALID. -/
theorem mereBack_invalid {k : Nat} {b : TimeBase} (h : tget (mereBack s).tbs k = some b) : b.valid = false := by
  rw [mereBack, reselect_tbs] at h
  have h' : (tget s.tbs k).map (fun b => { b with valid := false }) = some b := by
    rw [← tget_map]
    exact h
  obtain ⟨c, -, rfl⟩ := Option.map_eq_some_iff.mp h'
  rfl

end

/-! ### The rows (14 R296, R297) -/

theorem exec_soscRunning (s : State) : exec .soscRunning s = .next (settled s (soscRunning (begun s))) := rfl
theorem exec_foscQualWindow (o : Nat) (dev : Int) (s : State) : exec (.foscQualWindow o dev) s = .next (settled s (foscWindow o dev (begun s))) := rfl
theorem exec_xaQualWindow (dev : Int) (s : State) : exec (.xaQualWindow dev) s = .next (settled s (xaWindow dev (begun s))) := rfl
theorem exec_rootPllLock (s : State) : exec .rootPllLock s = .next (settled s (rootLock (begun s))) := rfl

section
variable {s : State}

/-- SOSC runs, and without the root the crystal and FOSC_A are started (14 R296). -/
def soscSeen (s : State) : State :=
  if s.clk.root then setSrc s 0 true else foscEnable (modClk (setSrc s 0 true) (fun c => { c with enX := true })) 0 true

theorem soscSeen_sosc (s : State) : (soscSeen s).clk.sosc = true := by
  unfold soscSeen; split <;> rfl

theorem soscRunning_of_held (h : s.dev.held = true ∨ s.clk.sosc = true) : soscRunning s = s := if_pos h

theorem soscRunning_of_still (hheld : s.dev.held = false) (hsosc : s.clk.sosc = false) : soscRunning s = clkSettle (soscSeen s) :=
  if_neg (by simp [hheld, hsosc])

/-- The deviation that a window of fast oscillator `o` has found is taken. -/
def foscMeasured (o : Nat) (dev : Int) (s : State) : State :=
  modClk s (fun c => { c with
    devA := if o = 0 ∧ s.clk.xa then toBits 16 (clampI (-32768) 32767 dev) else c.devA
    devB := if o = 1 then toBits 16 (clampI (-32768) 32767 dev) else c.devB })

@[simp] theorem foscMeasured_failed (o : Nat) (dev : Int) (s : State) : (foscMeasured o dev s).clk.failed = s.clk.failed := rfl

theorem foscWindow_idle {o : Nat} {dev : Int} (h : 2 ≤ o ∨ foscEnabled s.clk o = false ∨ (s.clk.sosc = false ∧ s.clk.xa = false)) : foscWindow o dev s = s := by
  unfold foscWindow
  rw [if_pos]
  simpa using h

section
variable {o : Nat} {dev : Int} (ho : o < 2) (hen : foscEnabled s.clk o = true) (hsosc : s.clk.sosc = true) (hxa : s.clk.xa = false)
include ho hen hsosc hxa

theorem foscWindow_good (hstart : s.clk.started = false) (hdev : dev.natAbs ≤ 8000) :
    foscWindow o dev s = stepThree o (setSrc (foscMeasured o dev s) (1 + o) true) := by
  unfold foscWindow
  rw [if_neg (by simp [hen, hsosc]; omega)]
  refine (if_neg ?_).trans ((if_neg ?_).trans (if_pos ?_))
  · simp [hxa]; omega
  · simp [hxa, hdev]
  · simp [setSrc, modClk]
    split <;> simp [hstart]

theorem foscWindow_bad (hdev : 12000 < dev.natAbs) : foscWindow o dev s = srcFail (1 + o) (foscMeasured o dev s) := by
  unfold foscWindow
  rw [if_neg (by simp [hen, hsosc]; omega)]
  exact if_pos (by simp [hxa, hdev])

end

/-- Where the fallback set starts: every source runs that SOSC and the oscillators in service are. -/
def fallbackStarted (o : Nat) (s : State) : State := tripSet (modClk s (fun c => { c with started := true, sds := 7 })) .foscSel o

/-- Step 3 starts the fallback set and ends the failures that are over; what was not reported may become events. -/
theorem stepThree_eq (o : Nat) (s : State) :
    ∃ r es, stepThree o s = { clkSettle (fallbackStarted o s) with evs := es, clk := { (clkSettle (fallbackStarted o s)).clk with report := r } } := by
  unfold stepThree
  dsimp only
  split
  · obtain ⟨es, he⟩ := foldl_evD_eq (clkSettle (fallbackStarted o s)).clk.report (clkSettle (fallbackStarted o s))
    exact ⟨[], es, congrArg (fun u => modClk u (fun c => { c with report := [] })) he⟩
  · exact ⟨_, _, rfl⟩

section
variable {o : Nat} (hsrc : srcOk s.clk (1 + o) = true) (hsosc : s.clk.sosc = true)
include hsrc hsosc

/-- With the fallback set started, no failure of SOSC or a fast oscillator lasts. -/
theorem srcBack_fallbackStarted {k : Nat} (hk : k < 3) : srcBack (fallbackStarted o s) k = true := by
  have hsel : foscSel (fallbackStarted o s) = o := by rw [foscSel, fallbackStarted, tripGet_tripSet, if_pos rfl]
  have hfast : ((fallbackStarted o s).clk.started && srcOk (fallbackStarted o s).clk (1 + foscSel (fallbackStarted o s))) = true := by
    rw [hsel]
    exact hsrc
  match k, hk with
  | 0, _ => exact hsosc
  | 1, _ => exact hfast
  | 2, _ => exact hfast

theorem stepThree_clocks : (stepThree o s).clk.started = true ∧ tripGet (stepThree o s) .foscSel = o ∧ srcOk (stepThree o s).clk (1 + o) = true
    ∧ (stepThree o s).clk.sds = 7 ∧ ((∀ k ∈ s.clk.failed, k < 3) → (stepThree o s).dev.safe = false ∧ (stepThree o s).clk.failed = []) := by
  obtain ⟨r, es, he⟩ := stepThree_eq o s
  obtain ⟨fl, n, hclk⟩ := clkSettle_kept (fallbackStarted o s)
  have hclk' : (stepThree o s).clk = { s.clk with started := true, sds := 7, failed := fl, tried := n, report := r } := by
    rw [he]
    dsimp only
    rw [hclk]
    rfl
  refine ⟨by rw [hclk'], ?_, ?_, by rw [hclk'], fun hlow => ?_⟩
  · have hsel := tripGet_clkSettle (fallbackStarted o s) .foscSel
    rw [fallbackStarted, tripGet_tripSet, if_pos rfl] at hsel
    rw [he]
    exact hsel
  · rw [hclk']
    exact hsrc
  · rw [he]
    exact clkSettle_last rfl (fun k hk => srcBack_fallbackStarted hsrc hsosc (hlow k hk))

end

/-- What a failure before step 3 leaves: the start-up goes on with FOSC_B, and with neither oscillator left waits for a retry (14 R297). -/
theorem srcFail_foscA (hstart : s.clk.started = false) :
    (srcFail 1 s).clk.started = false ∧ (srcFail 1 s).clk.enA = false ∧ (srcFail 1 s).clk.enB = true
      ∧ (1 ∉ s.clk.failed → bit (srcFail 1 s).clk.fault 1 = true) := by
  by_cases hnew : 1 ∈ s.clk.failed
  · have h : srcFail 1 s = foscEnable (foscEnable (setSrc s 1 false) 0 false) 1 true := by
      unfold srcFail
      rw [if_neg (by simpa using hnew)]
      exact if_pos (by simp [hstart])
    rw [h]
    exact ⟨hstart, rfl, rfl, fun hn => absurd hnew hn⟩
  · obtain ⟨r, hr⟩ := clkFault_clk (setSrc s 1 false) 1
    have h : srcFail 1 s = foscEnable (foscEnable (clkFault (setSrc s 1 false) 1) 0 false) 1 true := by
      rw [srcFail_of_new hnew]
      exact if_pos (by simp [hr, hstart])
    rw [h]
    simp [hr, hstart, bit_setBit]

theorem srcFail_foscB (hstart : s.clk.started = false) :
    (srcFail 2 s).clk.started = false ∧ (srcFail 2 s).clk.enB = false ∧ 2 ∈ (srcFail 2 s).clk.failed
      ∧ (2 ∉ s.clk.failed → bit (srcFail 2 s).clk.fault 2 = true ∧ (srcFail 2 s).dev.safe = true) := by
  by_cases hnew : 2 ∈ s.clk.failed
  · have h : srcFail 2 s = foscEnable (setSrc s 2 false) 1 false := by
      unfold srcFail
      rw [if_neg (by simpa using hnew)]
      exact (if_neg (by simp)).trans (if_pos (by simp [hstart]))
    rw [h]
    exact ⟨hstart, rfl, hnew, fun hn => absurd hnew hn⟩
  · obtain ⟨r, hr⟩ := clkFault_clk (setSrc s 2 false) 2
    have h : srcFail 2 s = deviceWide (foscEnable (clkFault (setSrc s 2 false) 2) 1 false) 2 := by
      rw [srcFail_of_new hnew]
      exact if_pos (by simp [hr, hstart])
    rw [h]
    simp [hr, hstart, bit_setBit]

theorem xaWindow_idle {dev : Int} (h : s.clk.started = false ∨ s.clk.enX = false ∨ srcOk s.clk (1 + foscSel s) = false) : xaWindow dev s = s :=
  if_pos (by simpa using h)

section
variable {dev : Int} (hstart : s.clk.started = true) (hen : s.clk.enX = true) (hsrc : srcOk s.clk (1 + foscSel s) = true)
include hstart hen hsrc

theorem xaWindow_good (hdev : dev.natAbs ≤ 5000) : xaWindow dev s = modClk (setSrc s 3 true) (fun c => { c with tries := tdel c.tries 3 }) := by
  unfold xaWindow
  rw [if_neg (by simp [hstart, hen, hsrc])]
  exact (if_neg (by omega)).trans (if_neg (by omega))

theorem xaWindow_bad (hdev : 8000 < dev.natAbs) : xaWindow dev s = srcFail 3 s := by
  unfold xaWindow
  rw [if_neg (by simp [hstart, hen, hsrc])]
  exact if_pos (.inl hdev)

end

/-- The root runs, and the fallback set with every synchronous domain on it. -/
def onRoot (s : State) : State := tripSet (modClk s (fun c => { c with root := true, running := true })) .coreSrc 1

theorem rootLock_idle (h : s.clk.xa = false ∨ s.clk.started = false ∨ s.clk.root = true) : rootLock s = s := by
  refine if_neg ?_
  rintro ⟨hxa, hstart, hroot⟩
  simp [hxa, hstart] at h hroot
  simp [h] at hroot

section
variable (hxa : s.clk.xa = true) (hstart : s.clk.started = true) (hroot : s.clk.root = false)
include hxa hstart hroot

theorem rootLock_eq : rootLock s = clkSettle (if s.clk.failed.contains 3 || s.clk.failed.contains 4 then mereBack (onRoot s) else onRoot s) :=
  if_pos ⟨hxa, hstart, by simp [hroot]⟩

/-- Root lock: every domain runs on the root, and failures of XA and of the root are over. -/
theorem rootLock_clocks : (rootLock s).clk.root = true ∧ (rootLock s).clk.running = true ∧ tripGet (rootLock s) .coreSrc = 1
    ∧ 3 ∉ (rootLock s).clk.failed ∧ 4 ∉ (rootLock s).clk.failed
    ∧ ((∀ k ∈ s.clk.failed, k = 3 ∨ k = 4) → (rootLock s).clk.failed = [] ∧ (rootLock s).dev.safe = false) := by
  rw [rootLock_eq hxa hstart hroot]
  generalize hu : (if s.clk.failed.contains 3 || s.clk.failed.contains 4 then mereBack (onRoot s) else onRoot s) = u
  have hclocks : u.clocks = (onRoot s).clocks := by
    rw [← hu]
    split
    · exact mereBack_clocks _
    · rfl
  simp only [State.clocks, Prod.mk.injEq] at hclocks
  obtain ⟨hclk, -, hcore, -⟩ := hclocks
  have hclk' : u.clk = { s.clk with root := true, running := true } := hclk
  obtain ⟨fl, n, hkept⟩ := clkSettle_kept u
  have hback : ∀ k, k = 3 ∨ k = 4 → srcBack u k = true := by
    rintro k (rfl | rfl)
    · show (u.clk.xa && u.clk.root) = true
      simp [hclk', hxa]
    · show u.clk.root = true
      simp [hclk']
  refine ⟨by rw [hkept, hclk'], by rw [hkept, hclk'], ?_, clkSettle_over (hback 3 (.inl rfl)), clkSettle_over (hback 4 (.inr rfl)), fun hall => ?_⟩
  · rw [tripGet_clkSettle, hcore, onRoot, tripGet_tripSet, if_pos rfl]
  · have hend := clkSettle_last (s := u) (by rw [hclk']; exact hstart) (fun k hk => hback k (hall k (by rwa [hclk'] at hk)))
    exact ⟨hend.2, hend.1⟩

theorem rootLock_invalid (hstood : 3 ∈ s.clk.failed ∨ 4 ∈ s.clk.failed) {k : Nat} {b : TimeBase} (h : tget (rootLock s).tbs k = some b) :
    b.valid = false := by
  rw [rootLock_eq hxa hstart hroot, if_pos (by simpa using hstood), clkSettle_tbs] at h
  exact mereBack_invalid _ h

end

end

/-- Settles O47, source by source: what an event leaves of the clocks, and which failures end with it (the choices of log entry 83). -/
theorem clocksStartAndQualify : Obligations.ClocksStartAndQualify := by
  unfold Obligations.ClocksStartAndQualify
  intro s
  dsimp only
  refine ⟨fun h => ?_, fun hheld hsosc => ?_, fun o dev => ⟨fun h => ?_, fun ho hen hsosc hstart hxa => ⟨fun hdev => ?_, fun hdev ho => ?_, fun hdev ho => ?_⟩⟩,
    fun dev => ⟨fun h => ?_, fun hstart hen hsrc => ⟨fun hdev => ?_, fun hdev hnew => ?_⟩⟩, fun hxa hstart hroot => ?_, fun h => ?_⟩
  · rw [exec_soscRunning, soscRunning_of_held (by exact h)]
  · refine ⟨_, exec_soscRunning s, ?_⟩
    rw [soscRunning_of_still (by exact hheld) (by exact hsosc)]
    obtain ⟨fl, n, hclk⟩ := clkSettle_kept (soscSeen (begun s))
    have hsosc' := soscSeen_sosc (begun s)
    refine ⟨by rw [settled_clk, hclk]; exact hsosc', ?_, fun hroot => ?_⟩
    · rw [settled_clk]
      exact clkSettle_over (k := 0) hsosc'
    · rw [settled_clk, hclk, soscSeen, if_neg (by simp [begun, hroot])]
      exact ⟨rfl, rfl⟩
  · rw [exec_foscQualWindow, foscWindow_idle (by exact h)]
  · refine ⟨_, exec_foscQualWindow o dev s, ?_⟩
    rw [foscWindow_good ho (by exact hen) (by exact hsosc) (by exact hxa) (by exact hstart) hdev]
    have hsrc : srcOk (setSrc (foscMeasured o dev (begun s)) (1 + o) true).clk (1 + o) = true := by
      match o, ho with
      | 0, _ => rfl
      | 1, _ => rfl
    have hclk : (setSrc (foscMeasured o dev (begun s)) (1 + o) true).clk.sosc = true
        ∧ (setSrc (foscMeasured o dev (begun s)) (1 + o) true).clk.failed = s.clk.failed := by
      match o, ho with
      | 0, _ => exact ⟨hsosc, rfl⟩
      | 1, _ => exact ⟨hsosc, rfl⟩
    simpa [hclk.2] using stepThree_clocks hsrc hclk.1
  · subst ho
    refine ⟨_, exec_foscQualWindow 0 dev s, ?_⟩
    rw [foscWindow_bad (by decide) (by exact hen) (by exact hsosc) (by exact hxa) hdev]
    simpa [begun] using srcFail_foscA (s := foscMeasured 0 dev (begun s)) hstart
  · subst ho
    refine ⟨_, exec_foscQualWindow 1 dev s, ?_⟩
    rw [foscWindow_bad (by decide) (by exact hen) (by exact hsosc) (by exact hxa) hdev]
    simpa [begun] using srcFail_foscB (s := foscMeasured 1 dev (begun s)) hstart
  · rw [exec_xaQualWindow, xaWindow_idle (by exact h)]
  · rw [exec_xaQualWindow, xaWindow_good (by exact hstart) (by exact hen) (by exact hsrc) hdev]
    rfl
  · refine ⟨_, exec_xaQualWindow dev s, ?_⟩
    rw [xaWindow_bad (by exact hstart) (by exact hen) (by exact hsrc) hdev]
    obtain ⟨hroot, hrun, hcore, hsafe, hfailed, hfault, hxa⟩ := srcFail_root (s := begun s) (.inl rfl) hnew
    simp only [settled_clk, settled_dev_safe, tripGet_settled]
    exact ⟨hxa rfl, hroot, hrun, hcore, hsafe, hfailed, hfault⟩
  · refine ⟨_, exec_rootPllLock s, ?_⟩
    simp only [settled_clk, settled_dev_safe, settled_tbs, tripGet_settled]
    obtain ⟨hroot', hrun, hcore, h3, h4, hlast⟩ := rootLock_clocks (s := begun s) hxa hstart hroot
    exact ⟨hroot', hrun, hcore, h3, h4, hlast, fun hstood k b hb => rootLock_invalid (s := begun s) hxa hstart hroot hstood hb⟩
  · rw [exec_rootPllLock, rootLock_idle (by exact h)]

end Sys2Proof.Machine
end

section
/-! Failures of clock sources, retries, switches that time out, the spare check and the LC PLLs (14 R290 to R298). -/
namespace Sys2Proof.Machine

theorem exec_missingEdgeTrip (k : Nat) (s : State) : exec (.missingEdgeTrip k) s = .next (settled s (missingEdge k (begun s))) := rfl
theorem exec_clkRetry (s : State) : exec .clkRetry s = .next (settled s (clkRetry (begun s))) := rfl
theorem exec_swTimeout (d : Nat) (s : State) : exec (.swTimeout d) s = .next (settled s (swTimeout d (begun s))) := rfl
theorem exec_foscSpareCheck (dev : Int) (s : State) : exec (.foscSpareCheck dev) s = .next (settled s (spareCheck dev (begun s))) := rfl
theorem exec_lcPllFail (k : Nat) (x : Option Int) (s : State) : exec (.lcPllFail k x) s = .next (settled s (lcPllFail k x (begun s))) := rfl
theorem exec_lcPllRequalify (k : Nat) (dev : Int) (s : State) : exec (.lcPllRequalify k dev) s = .next (settled s (lcPllRequalify k dev (begun s))) := rfl

/-! ### Trips and retries (14 R293, R294) -/

section
variable {s : State}

/-- SOSC fails: what runs on the root goes on, and without the root nothing runs. -/
theorem srcFail_sosc (hnew : 0 ∉ s.clk.failed) :
    (srcFail 0 s).clk.sosc = false ∧ (srcFail 0 s).clk.root = s.clk.root ∧ (srcFail 0 s).dev.safe = true ∧ (srcFail 0 s).clk.failed = s.clk.failed ++ [0]
      ∧ (s.clk.root = true → (srcFail 0 s).clk.running = s.clk.running ∧ (srcFail 0 s).clk.started = s.clk.started)
      ∧ (s.clk.root = false → (srcFail 0 s).clk.running = false ∧ (srcFail 0 s).clk.started = false ∧ (srcFail 0 s).clk.enA = false
          ∧ (srcFail 0 s).clk.enB = false ∧ (srcFail 0 s).clk.enX = false) := by
  obtain ⟨r, hr⟩ := clkFault_clk (setSrc s 0 false) 0
  cases hroot : s.clk.root with
  | true =>
    have h : srcFail 0 s = deviceWide (clkFault (setSrc s 0 false) 0) 0 := (srcFail_of_new hnew).trans (if_pos (by simp [hr, hroot]))
    simp [h, hr, hroot]
  | false =>
    have h : srcFail 0 s = deviceWide (modClk (stopAll (clkFault (setSrc s 0 false) 0)) (fun c =>
        { c with enA := false, enB := false, enX := false, foscA := false, foscB := false, xa := false })) 0 :=
      (srcFail_of_new hnew).trans (if_neg (by simp [hr, hroot]))
    simp [h, hr, hroot, stopAll]

/-- A retry restarts the sources that have failed; before step 3 it starts again from FOSC_A. -/
theorem clkRetry_clocks (hfailed : s.clk.failed ≠ []) (hsosc : s.clk.sosc = true) :
    (clkRetry s).clk.retries = inc48 s.clk.retries 1 ∧ (clkRetry s).clk.tried = s.clk.tried + 1 ∧ (clkRetry s).clk.enX = true
      ∧ (clkRetry s).clk.failed = s.clk.failed ∧ (clkRetry s).dev.safe = s.dev.safe
      ∧ (s.clk.started = false → (clkRetry s).clk.enA = true ∧ (clkRetry s).clk.enB = false) := by
  unfold clkRetry
  rw [if_neg (by simp [hfailed, hsosc])]
  cases hstart : s.clk.started with
  | true =>
    have hkeep := fun u : State => foldl_keeps (fun u : State => (u.clk.retries, u.clk.tried, u.clk.enX, u.clk.failed, u.dev.safe))
      (f := fun u k => if u.clk.failed.contains k then foscEnable u (k - 1) true else u) (fun u k => by split <;> rfl) [1, 2] u
    simp only [Prod.mk.injEq] at hkeep
    obtain ⟨hretries, htried, henX, hfail, hsafe⟩ := hkeep (modClk s (fun c =>
      { c with retries := inc48 c.retries 1, tried := c.tried + 1, enX := true, tries := c.tries.filter (fun e => !c.failed.contains e.1) }))
    rw [if_pos (by exact hstart)]
    exact ⟨hretries, htried, henX, hfail, hsafe, fun h => by cases h⟩
  | false =>
    simp [hstart]

/-! ### A switch that times out (14 R298) -/

theorem swTimeout_other {d : Nat} (h : ¬ ((319 ≤ d ∧ d ≤ 326) ∨ d = 337)) : swTimeout d s = modClk s (fun c => { c with fault := setBit c.fault 8 true }) :=
  if_pos (by simp only [h, decide_false, Bool.not_false])

theorem swTimeout_fallback {d : Nat} (h : (319 ≤ d ∧ d ≤ 326) ∨ d = 337) :
    swTimeout d s = if tripGet s .coreSrc = 1 then stopMere (modClk s (fun c => { c with fault := setBit c.fault 8 true }))
      else if s.clk.root then tripSet (modClk (modClk s (fun c => { c with fault := setBit c.fault 8 true })) (fun c => { c with running := true })) .coreSrc 1
      else modClk s (fun c => { c with fault := setBit c.fault 8 true }) := by
  refine (if_neg (fun hn => ?_)).trans ?_
  · rw [decide_eq_true h] at hn
    cases hn
  · rw [tripGet_modClk]
    rfl

/-! ### The daily check of FOSC_B (14 R291) -/

theorem spareInserted_clk (s : State) (kind unit cause : Nat) : (spareInserted s kind unit cause).clk = s.clk := rfl

theorem setSrc_devB (s : State) (k : Nat) (b : Bool) : (setSrc s k b).clk.devB = s.clk.devB := by
  unfold setSrc modClk
  dsimp only
  split <;> rfl

/-- The exchange of a worn oscillator keeps the deviations that have been found. -/
theorem foscExchange_devB (s : State) : (foscExchange s).clk.devB = s.clk.devB := by
  unfold foscExchange
  dsimp only
  split
  · rfl
  · split
    · simp [spareInserted_clk, setSrc_devB]
    · split <;> rfl

/-- A spare found beyond 3 % stays where it is, reported. -/
theorem foscExchange_reported {s : State} (hsel : foscSel s = 0) (hspare : s.clk.foscB = false) (hfault : bit s.clk.fault 2 = true) : foscExchange s = s := by
  unfold foscExchange
  rw [hsel]
  by_cases hworn : (!foscWorn s) = true
  · exact if_pos hworn
  · exact (if_neg hworn).trans ((if_neg (by simp [srcOk, hspare])).trans (if_pos hfault))

theorem spareCheck_eq (hxa : s.clk.xa = true) (hsel : foscSel s = 0) (dev : Int) : ∃ u, spareCheck dev s = foscExchange u
    ∧ u.clk.devB = toBits 16 (clampI (-32768) 32767 dev)
    ∧ (3000 < dev.natAbs → foscSel u = 0 ∧ u.clk.foscB = false ∧ bit u.clk.fault 2 = true) := by
  refine ⟨_, (if_neg (by simp [hxa])).trans (if_neg (by omega)), ?_, fun hdev => ?_⟩
  · split
    · rfl
    · split
      · obtain ⟨r, hr⟩ := clkFault_clk (setSrc (modClk s (fun c => { c with devB := toBits 16 (clampI (-32768) 32767 dev) })) 2 false) 2
        rw [hr]
        rfl
      · rfl
  · rw [if_neg (by omega), if_pos hdev]
    obtain ⟨r, hr⟩ := clkFault_clk (setSrc (modClk s (fun c => { c with devB := toBits 16 (clampI (-32768) 32767 dev) })) 2 false) 2
    exact ⟨(tripGet_clkFault _ 2 .foscSel).trans hsel, by rw [hr]; rfl, by simp [hr, bit_setBit]⟩

/-! ### LC PLLs (14 R290, R295) -/

theorem linkDown_netGroups (s : State) (p : Nat) : (linkDown s p).netGroups = s.netGroups := by
  unfold linkDown
  split
  · next hup =>
    obtain ⟨k, hk⟩ := linkDrop_of_up hup
    rw [hk, askAdapt]
    refine (foldl_keeps State.netGroups (fun u g => askWeir_netGroups u 2 2 (.serdes g)) _ _).trans ?_
    refine (netGroups_of_offPort (netInt_offCount _ p 0)).trans ((netGroups_of_offPort (netCount_offCount _ p 46 k)).trans ?_)
    exact (netGroups_of_offPort (netCount_offCount (linkless p s) p 53 1) :).trans rfl
  · rfl

theorem linkDown_self (s : State) (p : Nat) : (netPort (linkDown s p) p).link = false := by
  unfold linkDown
  split
  · next hup => rw [netPort_askAdapt]; exact (linkDrop_port hup).1
  · next hdown => simpa using hdown

theorem linkDown_ne (s : State) {p q : Nat} (hq : q ≠ p) : netPort (linkDown s p) q = netPort s q := by
  unfold linkDown
  split
  · next hup => rw [netPort_askAdapt]; exact (linkDrop_port hup).2.2.2 q hq
  · rfl

theorem linkDown_stays {s : State} {q : Nat} (h : (netPort s q).link = false) (p : Nat) : (netPort (linkDown s p) q).link = false := by
  by_cases hq : q = p
  · rw [hq]; exact linkDown_self s p
  · rw [linkDown_ne s hq]; exact h

/-- Ports whose lanes go idle lose their links, and the others are left as they are. -/
theorem linkDown_foldl (l : List Nat) (s : State) (q : Nat) :
    (q ∈ l ∨ (netPort s q).link = false → (netPort (l.foldl linkDown s) q).link = false) ∧ (q ∉ l → netPort (l.foldl linkDown s) q = netPort s q) := by
  induction l generalizing s with
  | nil => exact ⟨fun h => h.resolve_left (List.not_mem_nil), fun _ => rfl⟩
  | cons p l ih =>
    obtain ⟨hlink, hkeep⟩ := ih (linkDown s p)
    refine ⟨fun h => hlink ?_, fun hq => ?_⟩
    · rcases h with h | h
      · rcases List.mem_cons.mp h with rfl | h
        · exact .inr (linkDown_self s q)
        · exact .inl h
      · exact .inr (linkDown_stays h p)
    · rw [List.mem_cons, not_or] at hq
      rw [List.foldl_cons, hkeep hq.2, linkDown_ne s hq.1]

/-- An LC PLL that is lost, before its lanes go idle. -/
def lcPllDown (k : Nat) (s : State) : State := clkFault (modClk s (fun c => { c with sds := setBit c.sds k false })) (5 + k)

theorem lcPllDown_clk (s : State) (k : Nat) :
    ∃ r, (lcPllDown k s).clk = { s.clk with sds := setBit s.clk.sds k false, fault := setBit s.clk.fault (5 + k) true, report := r } := clkFault_clk _ _

theorem lcPllLost_eq {k : Nat} (h : bit s.clk.sds k = true) : lcPllLost s k = if k = 2 then cwAllDown (lcPllDown k s)
    else if groupMode ((range (4 * k) (4 * k + 4)).foldl linkDown (lcPllDown k s)) 0 = 1 then linkDown ((range (4 * k) (4 * k + 4)).foldl linkDown (lcPllDown k s)) 0
    else (range (4 * k) (4 * k + 4)).foldl linkDown (lcPllDown k s) := if_neg (by simp [h])

theorem lcPllLost_idle {k : Nat} (h : bit s.clk.sds k = false) : lcPllLost s k = s := if_pos (by simp [h])

/-- The clocks when an LC PLL is lost: its bit of CLK_FAULT sets, and nothing but its lanes is touched. -/
theorem lcPllLost_clocks {k : Nat} (h : bit s.clk.sds k = true) : (lcPllLost s k).clocks = (lcPllDown k s).clocks := by
  have hports := foldl_keeps State.clocks linkDown_clocks (range (4 * k) (4 * k + 4)) (lcPllDown k s)
  rw [lcPllLost_eq h]
  split
  · exact cwAllDown_clocks _
  · split
    · exact (linkDown_clocks _ 0).trans hports
    · exact hports

theorem lcPllLost_sds (s : State) (k j : Nat) : bit (lcPllLost s k).clk.sds j = if j = k then false else bit s.clk.sds j := by
  cases h : bit s.clk.sds k with
  | false =>
    rw [lcPllLost_idle h]
    split
    · next hj => rw [hj, h]
    · rfl
  | true =>
    obtain ⟨r, hr⟩ := lcPllDown_clk s k
    rw [show (lcPllLost s k).clk = (lcPllDown k s).clk from congrArg (·.1) (lcPllLost_clocks h), hr]
    simp [bit_setBit]

theorem lcPllLost_dev (s : State) (k : Nat) : (lcPllLost s k).dev = s.dev := by
  cases h : bit s.clk.sds k with
  | false => rw [lcPllLost_idle h]
  | true => exact (congrArg (·.2.1) (lcPllLost_clocks h) :).trans (clkFault_dev _ _)

/-! ### What an idle Causeway leaves (14 R295, 17 R336) -/

/-- What the loss of a device leaves of the lanes and of the network ports. -/
def State.lanes (s : State) : Nat × Tbl NetPort := (s.cway.link, s.netPorts)

theorem finish_lanes (s : State) (p : PendCmd) (status aux : Nat) : (finish s p status aux).lanes = s.lanes := by
  unfold finish complete laneOut
  dsimp only
  split
  · rfl
  · split
    · split <;> rfl
    · rfl

theorem sendFwds_lanes : ∀ (todo sent : List Fwd) (left : List Nat) (s : State), (sendFwds sent todo left s).lanes = s.lanes := by
  intro todo
  induction todo with
  | nil => exact fun _ _ _ => rfl
  | cons f fs ih =>
    intro sent left s
    unfold sendFwds
    split
    · split
      · exact ih ..
      · exact ih ..
    · exact ih ..

theorem loseDevice_lanes (s : State) (d : Nat) : (loseDevice s d).lanes = s.lanes := by
  unfold loseDevice vcSend
  dsimp only
  split
  · rw [sendFwds_lanes]
    exact foldl_keeps State.lanes (fun s p => finish_lanes s p 0x0402 0) _ _
  · rfl

theorem cwAllDown_lanes (s : State) : (cwAllDown s).lanes = (0, s.netPorts) := by
  unfold cwAllDown
  dsimp only
  split
  · exact foldl_keeps State.lanes (fun s (d : Nat × CwDev) => loseDevice_lanes s d.1) _ _
  · split <;> rfl

/-! ### The row of the LC PLLs -/

/-- Whether a loss of lock, or a window beyond 500 ppm, has been found. -/
def lcBad (x : Option Int) : Prop := ∀ d, x = some d → 500 < d.natAbs

theorem lcPllFail_good {k : Nat} {x : Option Int} (h : ¬ lcBad x) : lcPllFail k x s = s := by
  unfold lcBad at h
  push Not at h
  obtain ⟨d, rfl, hd⟩ := h
  exact if_pos (by simpa using hd)

theorem lcPllFail_bad {k : Nat} {x : Option Int} (h : lcBad x) : lcPllFail k x s = (lcPlls k).foldl lcPllLost s := by
  refine if_neg ?_
  cases x with
  | none => simp
  | some d => simpa using h d rfl

theorem lcPlls_of_one {k : Nat} (h : k < 3) : lcPlls k = [k] := by
  rw [lcPlls, if_neg (by omega), if_pos h]

theorem lcPlls_of_none {k : Nat} (h : 4 ≤ k) : lcPlls k = [] := by
  rw [lcPlls, if_neg (by omega), if_neg (by omega)]

end

section
variable {s : State} {k : Nat} (hk : k < 3) (hsds : bit s.clk.sds k = true)
include hk hsds

/-- An LC PLL that fails takes down its own lanes: the Causeway's, or those of its network ports. -/
theorem lcPllLost_one : bit (lcPllLost s k).clk.sds k = false ∧ bit (lcPllLost s k).clk.fault (5 + k) = true ∧ (lcPllLost s k).dev.safe = s.dev.safe
    ∧ (k = 2 → (lcPllLost s k).cway.link = 0 ∧ (lcPllLost s k).netPorts = s.netPorts)
    ∧ (k < 2 → ∀ p, (4 * k ≤ p ∧ p < 4 * k + 4 → (netPort (lcPllLost s k) p).link = false)
        ∧ (groupMode s 0 ≠ 1 → ¬ (4 * k ≤ p ∧ p < 4 * k + 4) → netPort (lcPllLost s k) p = netPort s p)) := by
  refine ⟨(lcPllLost_sds s k k).trans (if_pos rfl), ?_, by rw [lcPllLost_dev], fun h2 => ?_, fun hnet p => ?_⟩
  · obtain ⟨r, hr⟩ := lcPllDown_clk s k
    rw [show (lcPllLost s k).clk = (lcPllDown k s).clk from congrArg (·.1) (lcPllLost_clocks hsds), hr]
    simp [bit_setBit]
  · have hlanes := cwAllDown_lanes (lcPllDown k s)
    rw [lcPllLost_eq hsds, if_pos h2]
    simp only [State.lanes, Prod.mk.injEq] at hlanes
    exact ⟨hlanes.1, hlanes.2.trans (clkFault_netPorts _ _)⟩
  · rw [lcPllLost_eq hsds, if_neg (by omega)]
    have hmem : p ∈ range (4 * k) (4 * k + 4) ↔ 4 * k ≤ p ∧ p < 4 * k + 4 := by
      simp only [range, List.mem_map, List.mem_range]
      exact ⟨fun ⟨i, hi, he⟩ => by omega, fun h => ⟨p - 4 * k, by omega, by omega⟩⟩
    obtain ⟨hlink, hkeep⟩ := linkDown_foldl (range (4 * k) (4 * k + 4)) (lcPllDown k s) p
    have hmode : groupMode ((range (4 * k) (4 * k + 4)).foldl linkDown (lcPllDown k s)) 0 = groupMode s 0 := by
      rw [groupMode, foldl_keeps State.netGroups linkDown_netGroups, lcPllDown, clkFault_netGroups]
      rfl
    rw [hmode, ← hmem]
    refine ⟨fun hp => ?_, fun hgroup hp => ?_⟩
    · split
      · exact linkDown_stays (hlink (.inl hp)) 0
      · exact hlink (.inl hp)
    · rw [if_neg hgroup, hkeep hp]
      exact netPort_congr (clkFault_netPorts _ _) p

end

/-- SERDES_REFCLK takes down the lanes of all three LC PLLs. -/
theorem lcPllLost_all (s : State) : ((lcPlls 3).foldl lcPllLost s).dev = s.dev ∧ ∀ j, j < 3 → bit ((lcPlls 3).foldl lcPllLost s).clk.sds j = false := by
  refine ⟨foldl_keeps State.dev lcPllLost_dev _ s, fun j hj => ?_⟩
  change bit (lcPllLost (lcPllLost (lcPllLost s 0) 1) 2).clk.sds j = false
  simp only [lcPllLost_sds]
  split
  · rfl
  · split
    · rfl
    · rw [if_pos (by omega)]

/-- One LC PLL is accepted again. -/
def lcPllBack (s : State) (k : Nat) : State :=
  if bit s.clk.sds k then s
  else
    let s := modClk (if k = 2 then cwAdapt s else s) (fun c => { c with sds := setBit c.sds k true })
    if s.ctl.stage = 4 ∧ s.clk.started then evD s 0xD12 (5 + k) 0 0 else s

theorem lcPllBack_clk (s : State) (k : Nat) : (lcPllBack s k).clk.failed = s.clk.failed
    ∧ ∀ j, bit (lcPllBack s k).clk.sds j = if j = k then true else bit s.clk.sds j := by
  cases h : bit s.clk.sds k with
  | true =>
    rw [lcPllBack, if_pos h]
    refine ⟨rfl, fun j => ?_⟩
    split
    · next hj => rw [hj, h]
    · rfl
  | false =>
    obtain ⟨p, hp⟩ := cwAdapt_if_eq s (decide (k = 2))
    have hclk : (lcPllBack s k).clk = { s.clk with sds := setBit s.clk.sds k true } := by
      rw [lcPllBack, if_neg (by simp [h])]
      rw [show (if k = 2 then cwAdapt s else s) = { s with pwr := p } by simpa using hp]
      dsimp only
      split <;> rfl
    rw [hclk]
    exact ⟨rfl, fun j => by simp [bit_setBit]⟩

theorem lcPllRequalify_idle {s : State} {k : Nat} {dev : Int} (h : 4 ≤ k ∨ s.clk.xa = false ∨ (200 < dev.natAbs ∧ dev.natAbs ≤ 500)
    ∨ (k < 3 ∧ bit s.clk.sds k = true ∧ dev.natAbs ≤ 200)) : lcPllRequalify k dev s = s := by
  unfold lcPllRequalify
  split
  · rfl
  · next hxa =>
    split
    · next hfar =>
      rw [lcPllFail_bad (by rintro d ⟨⟩; exact hfar), lcPlls_of_none (by simp at hxa; simp [hxa] at h; omega)]
      rfl
    · split
      · rfl
      · next hfar hoff =>
        by_cases hk : 4 ≤ k
        · rw [lcPlls_of_none hk]
          rfl
        · have hin : k < 3 ∧ bit s.clk.sds k = true := by
            rcases h with h | h | h | h
            · exact absurd h hk
            · exact absurd h (by simpa using hxa)
            · omega
            · exact ⟨h.1, h.2.1⟩
          rw [lcPlls_of_one hin.1]
          exact if_pos hin.2

theorem lcPllRequalify_good {s : State} {dev : Int} (hxa : s.clk.xa = true) (hdev : dev.natAbs ≤ 200) (k : Nat) :
    lcPllRequalify k dev s = (lcPlls k).foldl lcPllBack s :=
  (if_neg (by simp [hxa])).trans ((if_neg (by omega)).trans (if_neg (by omega)))

theorem lcPllRequalify_far {s : State} {dev : Int} (hxa : s.clk.xa = true) (hdev : 500 < dev.natAbs) (k : Nat) :
    lcPllRequalify k dev s = lcPllFail k (some dev) s := (if_neg (by simp [hxa])).trans (if_pos hdev)

/-- Settles O48, source by source: what stops, what moves to the fast oscillator, and whether the safe state is forced (the choices of log
entry 83). -/
theorem clocksFailAndRetry : Obligations.ClocksFailAndRetry := by
  unfold Obligations.ClocksFailAndRetry
  intro s
  dsimp only
  refine ⟨fun k h => ?_, fun k hk hnew => ?_, fun hsosc hnew => ?_, fun h => ?_, fun hfailed hsosc => ?_, fun d h => ?_, fun d h => ?_,
    fun dev => ⟨fun h => ?_, fun hxa hsel => ?_⟩, fun k x => ⟨fun h => ?_, fun hbad hk => ?_, fun hbad hk hsds => ?_⟩,
    fun k dev => ⟨fun hk hdev hxa => ?_, fun h => ?_, fun hdev hxa => ?_⟩⟩
  · rw [exec_missingEdgeTrip]
    exact congrArg (fun u => Host.Outcome.next (settled s u)) (if_neg (by exact ne_true_of_eq_false h))
  · refine ⟨_, exec_missingEdgeTrip k s, ?_⟩
    have hlive : missingEdge k (begun s) = srcFail k (begun s) := by
      rcases hk with ⟨rfl, h⟩ | ⟨rfl, h⟩
      · exact if_pos h
      · exact if_pos h
    obtain ⟨hroot, hrun, hcore, hsafe, hfailed, hfault, -⟩ := srcFail_root (s := begun s) (by rcases hk with ⟨h, -⟩ | ⟨h, -⟩ <;> simp [h]) hnew
    rw [hlive]
    simp only [settled_clk, settled_dev_safe, tripGet_settled, settled_faultN]
    exact ⟨hroot, hrun, hcore, hsafe, hfailed, hfault, by simp [faultPin, hsafe]⟩
  · refine ⟨_, exec_missingEdgeTrip 0 s, ?_⟩
    rw [show missingEdge 0 (begun s) = srcFail 0 (begun s) from if_pos hsosc, settled_clk, settled_dev_safe]
    exact srcFail_sosc (s := begun s) hnew
  · rw [exec_clkRetry, clkRetry, if_pos (by simpa [begun] using h)]
  · refine ⟨_, exec_clkRetry s, ?_⟩
    rw [settled_clk, settled_dev_safe]
    exact clkRetry_clocks (s := begun s) hfailed hsosc
  · rw [exec_swTimeout, swTimeout_other h]
    rfl
  · refine ⟨_, exec_swTimeout d s, ?_⟩
    rw [swTimeout_fallback h]
    simp only [settled_clk, tripGet_settled]
    by_cases hcore : tripGet s .coreSrc = 1
    · rw [if_pos (by exact hcore)]
      exact ⟨by simp [bit_setBit], fun _ => ⟨tripGet_stopMere_coreSrc _, rfl⟩, fun hn => absurd hcore hn⟩
    · rw [if_neg (by exact hcore)]
      refine ⟨?_, fun h => absurd h hcore, fun _ hroot => ?_⟩
      · split <;> simp [bit_setBit]
      · rw [if_pos (by exact hroot)]
        exact ⟨(tripGet_tripSet ..).trans (if_pos rfl), rfl⟩
  · rw [exec_foscSpareCheck]
    exact congrArg (fun u => Host.Outcome.next (settled s u)) (if_pos (by simp [begun, h]))
  · obtain ⟨u, hu, hdev, hfar⟩ := spareCheck_eq (s := begun s) hxa hsel dev
    refine ⟨_, exec_foscSpareCheck dev s, ?_⟩
    rw [hu, settled_clk, foscExchange_devB]
    refine ⟨hdev, fun h => ?_⟩
    obtain ⟨hsel', hspare, hfault⟩ := hfar h
    rw [foscExchange_reported hsel' hspare hfault]
    exact ⟨hfault, hspare⟩
  · rw [exec_lcPllFail]
    by_cases hbad : lcBad x
    · rw [lcPllFail_bad hbad]
      rcases h with h | h | ⟨hk, hsds⟩
      · exact absurd hbad h
      · rw [lcPlls_of_none h]
        rfl
      · rw [lcPlls_of_one hk]
        exact congrArg (fun u => Host.Outcome.next (settled s u)) (lcPllLost_idle hsds)
    · rw [lcPllFail_good hbad]
  · subst hk
    obtain ⟨hdev, hsds⟩ := lcPllLost_all (begun s)
    refine ⟨_, exec_lcPllFail 3 x s, ?_⟩
    rw [lcPllFail_bad hbad, settled_clk, settled_dev_safe, hdev]
    exact ⟨hsds, rfl⟩
  · refine ⟨_, exec_lcPllFail k x s, ?_⟩
    rw [lcPllFail_bad hbad, lcPlls_of_one hk]
    simp only [settled_clk, settled_dev_safe, settled_cway, settled_netPorts, netPort_settled]
    exact lcPllLost_one (s := begun s) hk hsds
  · refine ⟨_, exec_lcPllRequalify k dev s, ?_⟩
    rw [lcPllRequalify_good (by exact hxa) hdev, settled_clk]
    refine ⟨fun j hj => ?_, foldl_keeps (fun u : State => u.clk.failed) (fun u k => (lcPllBack_clk u k).1) _ _⟩
    rcases hj with ⟨rfl, hj⟩ | ⟨rfl, hj⟩
    · change bit (lcPllBack (lcPllBack (lcPllBack (begun s) 0) 1) 2).clk.sds j = true
      simp only [(lcPllBack_clk _ _).2]
      split
      · rfl
      · split
        · rfl
        · rw [if_pos (by omega)]
    · rw [lcPlls_of_one hj]
      exact ((lcPllBack_clk _ _).2 _).trans (if_pos rfl)
  · rw [exec_lcPllRequalify, lcPllRequalify_idle (by exact h)]
  · rw [exec_lcPllRequalify, lcPllRequalify_far (by exact hxa) hdev, exec_lcPllFail]

end Sys2Proof.Machine
end

section
/-! Reference candidates: windows, qualification, failure and selection (15 R302 to R309). -/
namespace Sys2Proof.Machine

/-! ### One candidate changed -/

theorem cand_congr {s u : State} (h : u.refs.cands = s.refs.cands) (n : Nat) : cand u n = cand s n := by rw [cand, h, cand]

section
variable (s : State) (n : Nat)

@[simp] theorem cand_settled (u : State) : cand (settled s u) n = cand u n := cand_congr (congrArg Refs.cands (settled_refs s u)) n
@[simp] theorem cand_begun : cand (begun s) n = cand s n := rfl
@[simp] theorem cand_evD (typ obj status aux : Nat) : cand (evD s typ obj status aux) n = cand s n := rfl
@[simp] theorem cand_refFault (b : Nat) : cand (refFault s b) n = cand s n := rfl
@[simp] theorem cand_modCand_self (f : Cand → Cand) : cand (modCand s n f) n = f (cand s n) := tgetD_tset_self _ _ _ _
theorem cand_modCand_ne {m : Nat} (hm : m ≠ n) (f : Cand → Cand) : cand (modCand s n f) m = cand s m := tgetD_tset_ne _ _ _ hm

theorem takeCand_cands (m : Nat) : (takeCand s m).refs.cands = s.refs.cands := by
  unfold takeCand
  dsimp only
  split
  · rfl
  · split <;> rfl

theorem holdover_cands : (holdover s).refs.cands = s.refs.cands := by
  unfold holdover
  dsimp only
  split <;> rfl

@[simp] theorem cand_reselect (wtr : Bool) : cand (reselect s wtr) n = cand s n := by
  obtain h | h | ⟨m, h⟩ := reselect_cases s wtr
  · rw [h]
  · rw [h, cand_congr (holdover_cands s)]
  · rw [h, cand_congr (takeCand_cands s m)]

/-! ### A failure (15 R304) -/

/-- Selection clears no bit of REF_FAULT. -/
theorem reselect_fault {b : Nat} (h : bit s.refs.fault b = true) (wtr : Bool) : bit (reselect s wtr).refs.fault b = true := by
  have hset : ∀ k, bit (setBit s.refs.fault k true) b = true := fun k => by
    rw [bit_setBit]
    split
    · rfl
    · exact h
  obtain e | e | ⟨m, e⟩ := reselect_cases s wtr
  · rw [e]; exact h
  · rw [e]
    unfold holdover
    dsimp only
    split <;> exact hset 1
  · rw [e]
    unfold takeCand
    dsimp only
    split
    · exact h
    · split <;> exact hset 2

/-- A qualified candidate fails: CAND_FAIL sets, and the others are left as they are. -/
theorem candFail_spec : cand (candFail s n) n = { cand s n with state := 3, left := s.refs.qualTime } ∧ bit (candFail s n).refs.fault 0 = true
    ∧ ∀ m, m ≠ n → cand (candFail s n) m = cand s m := by
  unfold candFail
  extract_lets s1 s2 s3
  have hcand : ∀ m, cand s3 m = cand s1 m := fun m => by
    simp only [s3]
    split <;> rfl
  have hfault : bit s3.refs.fault 0 = true := by
    have h : bit s2.refs.fault 0 = true := (bit_setBit s1.refs.fault 0 true 0).trans (if_pos rfl)
    simp only [s3]
    split <;> exact h
  refine ⟨?_, reselect_fault s3 hfault false, fun m hm => ?_⟩
  · rw [cand_reselect, hcand]
    exact cand_modCand_self s n _
  · rw [cand_reselect, hcand]
    exact cand_modCand_ne s n hm _

end

/-! ### A window of 1 s (15 R303, R304) -/

theorem exec_refWindow {s : State} (hrun : s.clk.running = true) (n : Nat) (e : Bool) (m : Int) :
    exec (.refWindow n e m) s = .next (settled s (refWindow n e m (begun s))) := runMere_of_running hrun _
theorem exec_refActivityLoss (n : Nat) (s : State) : exec (.refActivityLoss n) s = .next (settled s (activityLoss n (begun s))) := rfl

section
variable {s : State} {n : Nat} {e : Bool} {m : Int}

theorem refWindow_none (h : 66 ≤ n) : refWindow n e m s = s := if_pos h

section
variable (hn : n < 66)
include hn

theorem refWindow_disabled (hen : candEnabled s n = false) : cand (refWindow n e m s) n =
    { cand (if (cand s n).state = 2 then candFail s n else s) n with state := 0, left := (if (cand s n).state = 2 then candFail s n else s).refs.qualTime }
      ∧ ∀ j, j ≠ n → cand (refWindow n e m s) j = cand s j := by
  have h : refWindow n e m s = reselect (modCand (if (cand s n).state = 2 then candFail s n else s) n
      (fun c => { c with state := 0, left := (if (cand s n).state = 2 then candFail s n else s).refs.qualTime })) true :=
    (if_neg (by omega)).trans (if_pos (by simp [hen]))
  rw [h]
  refine ⟨by rw [cand_reselect, cand_modCand_self], fun j hj => ?_⟩
  rw [cand_reselect, cand_modCand_ne _ _ hj]
  split
  · exact (candFail_spec s n).2.2 j hj
  · rfl

section
variable (hen : candEnabled s n = true)
include hen

theorem refWindow_still (hact : candActive s n e = false) (hst : (cand s n).state = 2) : refWindow n e m s = candFail s n :=
  (if_neg (by omega)).trans ((if_neg (by simp [hen])).trans ((if_pos (by simp [hact])).trans (if_pos hst)))

section
variable (hact : candActive s n e = true)
include hact

/-- A window of an enabled, active candidate: its offset is taken, and what follows from it. -/
theorem refWindow_active : refWindow n e m s =
    let f := candFreq s n m
    let u := modCand s n (fun c => { c with freq := f })
    if (cand s n).state = 2 then (if u.refs.reject * 100 < f.natAbs then candFail u n else reselect u true)
    else if 9200 < f.natAbs then modCand u n (fun c => { c with state := 1, left := s.refs.qualTime })
    else
      let left := (if (cand s n).state = 1 then min (cand s n).left s.refs.qualTime else s.refs.qualTime) - 1
      if left = 0 then reselect (evD (modCand u n (fun c => { c with state := 2, left := 0, qualAt := u.mere })) 0xA01 n 0 0) true
      else modCand u n (fun c => { c with state := 1, left := left }) :=
  (if_neg (by omega)).trans ((if_neg (by simp [hen])).trans (if_neg (by simp [hact])))

theorem refWindow_far (hst : (cand s n).state = 2) (hf : s.refs.reject * 100 < (candFreq s n m).natAbs) :
    refWindow n e m s = candFail (modCand s n (fun c => { c with freq := candFreq s n m })) n :=
  (refWindow_active hn hen hact).trans ((if_pos hst).trans (if_pos hf))

theorem refWindow_near (hst : (cand s n).state = 2) (hf : (candFreq s n m).natAbs ≤ s.refs.reject * 100) :
    refWindow n e m s = reselect (modCand s n (fun c => { c with freq := candFreq s n m })) true :=
  (refWindow_active hn hen hact).trans ((if_pos hst).trans (if_neg (by exact Nat.not_lt.mpr hf)))

theorem refWindow_wide (hst : (cand s n).state ≠ 2) (hf : 9200 < (candFreq s n m).natAbs) :
    refWindow n e m s = modCand (modCand s n (fun c => { c with freq := candFreq s n m })) n (fun c => { c with state := 1, left := s.refs.qualTime }) :=
  (refWindow_active hn hen hact).trans ((if_neg hst).trans (if_pos hf))

theorem refWindow_counts (hst : (cand s n).state = 1) (hle : (cand s n).left ≤ s.refs.qualTime) (hf : (candFreq s n m).natAbs ≤ 9200) (hleft : 1 < (cand s n).left) :
    refWindow n e m s = modCand (modCand s n (fun c => { c with freq := candFreq s n m })) n (fun c => { c with state := 1, left := (cand s n).left - 1 }) := by
  rw [refWindow_active hn hen hact]
  dsimp only
  rw [if_neg (by omega), if_neg (by omega), if_pos hst, Nat.min_eq_left hle, if_neg (by omega)]

theorem refWindow_qualifies (hst : (cand s n).state = 1) (hle : (cand s n).left ≤ s.refs.qualTime) (hf : (candFreq s n m).natAbs ≤ 9200) (hleft : (cand s n).left = 1) :
    refWindow n e m s = reselect (evD (modCand (modCand s n (fun c => { c with freq := candFreq s n m })) n
      (fun c => { c with state := 2, left := 0, qualAt := s.mere })) 0xA01 n 0 0) true := by
  rw [refWindow_active hn hen hact]
  dsimp only
  rw [if_neg (by omega), if_neg (by omega), if_pos hst, Nat.min_eq_left hle, if_pos (by omega)]
  rfl

end
end
end

/-- What two changes of one candidate leave of it and of the others. -/
theorem cand_modCand_modCand (f g : Cand → Cand) : cand (modCand (modCand s n f) n g) n = g (f (cand s n))
    ∧ ∀ j, j ≠ n → cand (modCand (modCand s n f) n g) j = cand s j :=
  ⟨by rw [cand_modCand_self, cand_modCand_self], fun j hj => by rw [cand_modCand_ne _ _ hj, cand_modCand_ne _ _ hj]⟩

/-! ### Loss of activity and of the last candidate (15 R304, R309) -/

theorem activityLoss_qualified (hact : candActive s n false = false) (hst : (cand s n).state = 2) : activityLoss n s = candFail s n :=
  (if_neg (by simp [hact])).trans (if_pos hst)

theorem activityLoss_qualifying (hact : candActive s n false = false) (hst : (cand s n).state = 1) :
    activityLoss n s = modCand s n (fun c => { c with left := s.refs.qualTime }) :=
  (if_neg (by simp [hact])).trans ((if_neg (by omega)).trans (if_pos hst))

theorem activityLoss_idle (h : candActive s n false = true ∨ ((cand s n).state ≠ 1 ∧ (cand s n).state ≠ 2)) : activityLoss n s = s := by
  cases hact : candActive s n false with
  | true => exact if_pos hact
  | false =>
    obtain ⟨h1, h2⟩ := h.resolve_left (by simp [hact])
    exact (if_neg (by simp [hact])).trans ((if_neg h2).trans (if_neg h1))

theorem reselect_holdover (hforce : s.refs.force = 0) (hnone : firstCand s = none) (hsel : refSel s ≠ 0x7F) (wtr : Bool) : reselect s wtr = holdover s := by
  unfold reselect
  rw [if_neg (by simp [hforce]), hnone]
  exact if_neg (fun h => hsel h.1)

theorem holdover_refSel (s : State) : refSel (holdover s) = 0x7F ∧ ((holdover s).refs.state = 4 ∨ (holdover s).refs.state = 0) := by
  have hsel : refSel (setSel s 0x7F) = 0x7F := by rw [refSel, setSel, tripGet_tripSet, if_pos rfl]
  unfold holdover
  dsimp only
  split
  · exact ⟨hsel, .inr rfl⟩
  · exact ⟨hsel, .inl rfl⟩

end

/-- Settles O49, case by case: the window's row in each case, and what it leaves of the candidate and of the others. -/
theorem candidatesQualifyAndFail : Obligations.CandidatesQualifyAndFail := by
  unfold Obligations.CandidatesQualifyAndFail
  intro n s hrun
  dsimp only
  refine ⟨fun hn e f => ?_, fun hn e m => ⟨fun hen => ?_, fun hen => ⟨fun hact hst => ?_, fun hact => ⟨fun hst hf => ?_, fun hst hf => ?_, fun hst hf => ?_,
    fun hst hle hf => ⟨fun hleft => ?_, fun hleft => ?_⟩⟩⟩⟩, fun hst hact => ?_, fun hact hst => ?_, fun h => ?_, fun hforce hnone hsel => ?_⟩
  · rw [exec_refWindow hrun, refWindow_none hn]
  · obtain ⟨hself, halone⟩ := refWindow_disabled (s := begun s) (e := e) (m := m) hn hen
    exact ⟨_, exec_refWindow hrun n e m, by rw [cand_settled, hself], fun j hj => by rw [cand_settled, halone j hj]; rfl⟩
  · obtain ⟨hself, hfault, halone⟩ := candFail_spec (begun s) n
    refine ⟨_, exec_refWindow hrun n e m, ?_⟩
    rw [refWindow_still (by exact hn) (by exact hen) (by exact hact) (by exact hst)]
    simp only [cand_settled, settled_refs, hself]
    exact ⟨trivial, rfl, hfault, halone⟩
  · obtain ⟨hself, hfault, halone⟩ := candFail_spec (modCand (begun s) n (fun c => { c with freq := candFreq (begun s) n m })) n
    refine ⟨_, exec_refWindow hrun n e m, ?_⟩
    rw [refWindow_far (by exact hn) (by exact hen) (by exact hact) (by exact hst) (by exact hf)]
    simp only [cand_settled, settled_refs, hself]
    exact ⟨trivial, rfl, hfault, fun j hj => (halone j hj).trans (cand_modCand_ne _ _ hj _)⟩
  · refine ⟨_, exec_refWindow hrun n e m, ?_⟩
    rw [refWindow_near (by exact hn) (by exact hen) (by exact hact) (by exact hst) (by exact hf)]
    simp only [cand_settled, cand_reselect, cand_modCand_self]
    exact ⟨rfl, fun j hj => cand_modCand_ne _ _ hj _⟩
  · obtain ⟨hself, halone⟩ := cand_modCand_modCand (s := begun s) (n := n) (fun c => { c with freq := candFreq (begun s) n m })
      (fun c => { c with state := 1, left := s.refs.qualTime })
    refine ⟨_, exec_refWindow hrun n e m, ?_⟩
    rw [refWindow_wide (by exact hn) (by exact hen) (by exact hact) (by exact hst) (by exact hf)]
    simp only [cand_settled]
    exact ⟨(congrArg Cand.state hself :), (congrArg Cand.left hself :), halone⟩
  · obtain ⟨hself, halone⟩ := cand_modCand_modCand (s := begun s) (n := n) (fun c => { c with freq := candFreq (begun s) n m })
      (fun c => { c with state := 1, left := (cand s n).left - 1 })
    refine ⟨_, exec_refWindow hrun n e m, ?_⟩
    rw [refWindow_counts (by exact hn) (by exact hen) (by exact hact) (by exact hst) (by exact hle) (by exact hf) (by exact hleft)]
    simp only [cand_settled]
    exact ⟨(congrArg Cand.state hself :), (congrArg Cand.left hself :), halone⟩
  · obtain ⟨hself, halone⟩ := cand_modCand_modCand (s := begun s) (n := n) (fun c => { c with freq := candFreq (begun s) n m })
      (fun c => { c with state := 2, left := 0, qualAt := s.mere })
    refine ⟨_, exec_refWindow hrun n e m, ?_⟩
    rw [refWindow_qualifies (by exact hn) (by exact hen) (by exact hact) (by exact hst) (by exact hle) (by exact hf) (by exact hleft)]
    simp only [cand_settled, cand_reselect, cand_evD]
    exact ⟨(congrArg Cand.state hself :), (congrArg Cand.qualAt hself :), halone⟩
  · obtain ⟨hself, hfault, halone⟩ := candFail_spec (begun s) n
    refine ⟨_, exec_refActivityLoss n s, ?_⟩
    rw [activityLoss_qualified (by exact hact) (by exact hst)]
    simp only [cand_settled, settled_refs, hself]
    exact ⟨trivial, rfl, hfault, halone⟩
  · refine ⟨_, exec_refActivityLoss n s, ?_⟩
    rw [activityLoss_qualifying (by exact hact) (by exact hst)]
    simp only [cand_settled, cand_modCand_self]
    exact ⟨rfl, fun j hj => cand_modCand_ne _ _ hj _⟩
  · rw [exec_refActivityLoss, activityLoss_idle (by exact h)]
  · rw [reselect_holdover hforce hnone hsel]
    exact holdover_refSel s

end Sys2Proof.Machine
end

section
/-! The DPLL's updates, and the synthesisers (15 R307 to R313). -/
namespace Sys2Proof.Machine

/-! ### What local ports leave of the references -/

/-- The state without what a local port changes: the ports, events, what leaves the device, and the control state. -/
def State.offLps (s : State) : State := { s.tables with lps := [] }

theorem syns_of_offLps {s u : State} (h : u.offLps = s.offLps) : u.syns = s.syns := (congrArg State.syns h :)
theorem refs_of_offLps {s u : State} (h : u.offLps = s.offLps) : u.refs = s.refs := (congrArg State.refs h :)
theorem tbs_of_offLps {s u : State} (h : u.offLps = s.offLps) : u.tbs = s.tbs := (congrArg State.tbs h :)

section
variable (s : State) (k : Nat)

@[simp] theorem modLp_offLps (f : LpPort → LpPort) : (modLp s k f).offLps = s.offLps := rfl
@[simp] theorem lpEv_offLps (typ aux : Nat) : (lpEv s k typ aux).offLps = s.offLps := rfl
@[simp] theorem lpCount_offLps (i n : Nat) : (lpCount s k i n).offLps = s.offLps := rfl

@[simp] theorem lpInt_offLps (b : Nat) : (lpInt s k b).offLps = s.offLps := by
  unfold lpInt; dsimp only; split
  · rfl
  · split <;> rfl

@[simp] theorem lpShow_offLps : (lpShow s k).offLps = s.offLps := by
  unfold lpShow; split <;> rfl

@[simp] theorem lpFault_offLps (cause : Nat) : (lpFault s k cause).offLps = s.offLps := by
  unfold lpFault; dsimp only; split
  · simp
  · rfl

theorem stopCheck_offLps : (stopCheck s).offLps = s.offLps :=
  congrArg (fun u : State => ({ u with lps := [] } : State)) (finish_foldl_tables 0 0 _ s)

@[simp] theorem lpStopped_offLps (early : Bool) : (lpStopped k early s).offLps = s.offLps := by
  unfold lpStopped; dsimp only; split
  · rw [stopCheck_offLps, lpShow_offLps, lpEv_offLps, lpInt_offLps, modLp_offLps]
    split <;> simp
  · rfl

@[simp] theorem lpClockLoss_offLps : (lpClockLoss k s).offLps = s.offLps := by
  unfold lpClockLoss
  extract_lets u
  have hu : u.offLps = s.offLps := by
    simp only [u]
    split <;> rfl
  split
  · rw [lpStopped_offLps, hu]
  · rw [lpFault_offLps, hu]

theorem lpSynLost_offLps (n : Nat) : (lpSynLost s n).offLps = s.offLps :=
  foldl_keeps State.offLps (fun u k => by dsimp only; split <;> simp) _ s

end

/-! ### One synthesiser changed (15 R311, R312) -/

theorem syn_congr {s u : State} (h : u.syns = s.syns) (n : Nat) : syn u n = syn s n := by rw [syn, h, syn]

section
variable (s : State) (n : Nat)

@[simp] theorem syn_settled (u : State) : syn (settled s u) n = syn u n := syn_congr (settled_syns s u) n
@[simp] theorem syn_begun : syn (begun s) n = syn s n := rfl
@[simp] theorem syn_evD (typ obj status aux : Nat) : syn (evD s typ obj status aux) n = syn s n := rfl
@[simp] theorem syn_modSyn_self (f : Syn → Syn) : syn (modSyn s n f) n = f (syn s n) := tgetD_tset_self _ _ _ _
theorem syn_modSyn_ne {m : Nat} (hm : m ≠ n) (f : Syn → Syn) : syn (modSyn s n f) m = syn s m := tgetD_tset_ne _ _ _ hm

@[simp] theorem syn_lpSynLost (m : Nat) : syn (lpSynLost s n) m = syn s m := syn_congr (syns_of_offLps (lpSynLost_offLps s n)) m

/-- What leaving lock leaves of the synthesisers. -/
theorem syn_synUnlock (m : Nat) : syn (synUnlock s n) m =
    if m = n then { syn s n with locked := false, gliding := (syn s n).gliding && !(syn s n).locked } else syn s m := by
  unfold synUnlock
  dsimp only
  cases h : (syn s n).locked with
  | true =>
    rw [if_pos rfl, syn_lpSynLost, syn_evD]
    split
    · next hm => rw [hm, syn_modSyn_self]; simp
    · next hm => rw [syn_modSyn_ne _ _ hm]
  | false =>
    rw [if_neg (by simp)]
    split
    · next hm =>
      rw [hm]
      generalize syn s n = y at h
      rw [← h, h, Bool.not_false, Bool.and_true, ← h]
    · rfl

end

/-- What a pass over all eight synthesisers leaves of each: `g` says what the pass does with one, where `P` holds all along. -/
theorem syn_foldl {P : State → Prop} {f : State → Nat → State} {g : Nat → Syn → Syn} (hP : ∀ u n, P u → P (f u n))
    (hf : ∀ u n m, P u → syn (f u n) m = if m = n then g n (syn u n) else syn u m) (l : List Nat) (hl : l.Nodup) :
    ∀ s, P s → ∀ m, syn (l.foldl f s) m = if m ∈ l then g m (syn s m) else syn s m := by
  induction l with
  | nil => exact fun s _ m => by simp
  | cons n l ih =>
    intro s hs m
    obtain ⟨hn, hl'⟩ := List.nodup_cons.mp hl
    rw [List.foldl_cons, ih hl' _ (hP s n hs), hf s n m hs]
    by_cases hm : m = n
    · subst hm; simp [hn]
    · simp [hm]

/-! ### The rows of the synthesisers (15 R312, R313) -/

theorem exec_synRelockDone (n : Nat) (s : State) : exec (.synRelockDone n) s = .next (settled s (synRelocked n (begun s))) := rfl
theorem exec_syncInEdge (s : State) : exec .syncInEdge s = .next (settled s (syncIn (begun s))) := rfl
theorem exec_apllUnlock (s : State) : exec .apllUnlock s = .next (settled s (if s.refs.apll then apllUnlock (begun s) else begun s)) := rfl

section
variable {s : State} {n : Nat}

theorem synRelocked_idle (h : 8 ≤ n ∨ (syn s n).holder = 0 ∨ (syn s n).relock = false ∨ s.refs.apll = false) : synRelocked n s = s := by
  refine if_neg (fun hgo => ?_)
  obtain ⟨hn, hheld, hrelock, hapll⟩ := hgo
  rcases h with h | h | h | h
  · omega
  · exact hheld h
  · simp [h] at hrelock
  · simp [h] at hapll

/-- A relock: the synthesiser is locked on its target, and no other changes. -/
theorem synRelocked_syn (hn : n < 8) (hheld : (syn s n).holder ≠ 0) (hrelock : (syn s n).relock = true) (hapll : s.refs.apll = true) :
    (syn (synRelocked n s) n).locked = true ∧ (syn (synRelocked n s) n).relock = false ∧ (syn (synRelocked n s) n).gliding = false
      ∧ (syn (synRelocked n s) n).freq = synTarget s n ∧ ∀ m, m ≠ n → syn (synRelocked n s) m = syn s m := by
  unfold synRelocked
  rw [if_pos ⟨hn, hheld, hrelock, hapll⟩]
  simp only [synLocked, syn_evD, syn_modSyn_self, true_and]
  exact fun m hm => by rw [syn_modSyn_ne _ _ hm, syn_modSyn_ne _ _ hm]

/-- A synthesiser that has lost the APLL owes a relock if it is held. -/
def Syn.apllLost (y : Syn) : Syn :=
  { y with locked := false, gliding := y.gliding && !y.locked, relock := y.holder != 0, owes := y.holder != 0 }

/-- Losing the APLL changes the references by its own bits only. -/
theorem apllUnlock_refs (s : State) : (apllUnlock s).refs = { s.refs with apll := false, fault := setBit s.refs.fault 3 true } := by
  unfold apllUnlock
  refine (foldl_keeps State.refs (fun u n => ?_) _ _).trans rfl
  change (synUnlock u n).refs = u.refs
  unfold synUnlock
  dsimp only
  split
  · exact (refs_of_offLps (lpSynLost_offLps _ n) :).trans rfl
  · rfl

theorem apllUnlock_syn (s : State) (m : Nat) : syn (apllUnlock s) m = if m < 8 then (syn s m).apllLost else syn s m := by
  unfold apllUnlock
  refine (syn_foldl (P := fun _ => True) (g := fun _ => Syn.apllLost) (fun _ _ _ => trivial) (fun u n m _ => ?_) (List.range 8) List.nodup_range _ trivial m).trans ?_
  · dsimp only
    split
    · next hm => rw [hm, syn_modSyn_self, syn_synUnlock, if_pos rfl]; rfl
    · next hm => rw [syn_modSyn_ne _ _ hm, syn_synUnlock, if_neg hm]
  · simp only [List.mem_range]
    rfl

/-- Whether an edge of SYNC_IN comes within 1 ms of the last. -/
theorem syncIn_early (h : ∃ a, s.refs.syncAt = some a ∧ s.mere - a < 1200000) : syncIn s = refFault s 4 := by
  obtain ⟨a, ha, hlt⟩ := h
  unfold syncIn
  rw [ha]
  exact if_pos (by simpa using hlt)

/-- What an edge of SYNC_IN does with a synthesiser. -/
def Syn.edge (mask mere n : Nat) (y : Syn) : Syn :=
  if !bit mask n ∨ y.holder = 0 then y
  else if y.locked then (if y.gliding then y else { y with phased := some mere }) else { y with phaseTo := some mere }

/-- One synthesiser takes an edge of SYNC_IN. -/
def synEdge (s : State) (n : Nat) : State :=
  let y := syn s n
  if !bit s.refs.syncMask n ∨ y.holder = 0 then s
  else if y.locked then (if y.gliding then s else modSyn s n (fun y => { y with phased := some s.mere }))
  else modSyn s n (fun y => { y with phaseTo := some s.mere })

theorem syn_synEdge (s : State) (n m : Nat) : syn (synEdge s n) m = if m = n then Syn.edge s.refs.syncMask s.mere n (syn s n) else syn s m := by
  unfold synEdge Syn.edge
  by_cases hm : m = n
  · subst hm
    rw [if_pos rfl]
    dsimp only
    split
    · rfl
    · split
      · split
        · rfl
        · exact syn_modSyn_self ..
      · exact syn_modSyn_self ..
  · rw [if_neg hm]
    dsimp only
    split
    · rfl
    · split
      · split
        · rfl
        · exact syn_modSyn_ne _ _ hm _
      · exact syn_modSyn_ne _ _ hm _

theorem synEdge_keeps (s : State) (n : Nat) : ((synEdge s n).refs, (synEdge s n).mere) = (s.refs, s.mere) := by
  unfold synEdge
  dsimp only
  split
  · rfl
  · split
    · split <;> rfl
    · rfl

/-- An edge of SYNC_IN that is not too early. -/
theorem syncIn_edge (h : s.refs.syncAt = none ∨ ∃ a, s.refs.syncAt = some a ∧ 1200000 ≤ s.mere - a) :
    syncIn s = (List.range 8).foldl synEdge (modRefs s (fun r => { r with syncAt := some s.mere })) := by
  unfold syncIn
  refine if_neg ?_
  rcases h with h | ⟨a, ha, hle⟩
  · simp [h]
  · simpa [ha] using hle

theorem syncIn_edge_spec (h : s.refs.syncAt = none ∨ ∃ a, s.refs.syncAt = some a ∧ 1200000 ≤ s.mere - a) :
    (syncIn s).refs.syncAt = some s.mere ∧ ∀ m, m < 8 → syn (syncIn s) m = Syn.edge s.refs.syncMask s.mere m (syn s m) := by
  rw [syncIn_edge h]
  refine ⟨?_, fun m hm => ?_⟩
  · have hkeep := foldl_keeps (fun u : State => (u.refs, u.mere)) synEdge_keeps (List.range 8) (modRefs s (fun r => { r with syncAt := some s.mere }))
    simp only [Prod.mk.injEq] at hkeep
    rw [hkeep.1]
    rfl
  · refine (syn_foldl (P := fun u => (u.refs.syncMask, u.mere) = (s.refs.syncMask, s.mere)) (g := Syn.edge s.refs.syncMask s.mere) (fun u n hu => ?_) (fun u n m hu => ?_)
      (List.range 8) List.nodup_range _ ?_ m).trans ?_
    · have hkeep := synEdge_keeps u n
      simp only [Prod.mk.injEq] at hkeep hu ⊢
      rw [hkeep.1, hkeep.2]
      exact hu
    · rw [syn_synEdge]
      simp only [Prod.mk.injEq] at hu
      rw [hu.1, hu.2]
    · rfl
    · rw [if_pos (List.mem_range.mpr hm)]
      rfl

end

end Sys2Proof.Machine
end

section
/-! One update of the DPLL: the output frequency, the time bases that follow it, and what the PTP instances leave of both (15 R307 to R310). -/
namespace Sys2Proof.Machine

/-! ### What sending PTP messages leaves of the DPLL and of the time bases -/

/-- The references, and of each time base its mode and its frequency adjustment. -/
def State.steer (s : State) : Refs × (Nat → Nat × Int) := (s.refs, fun k => ((tb s k).mode, (tb s k).adj))

section
variable (s : State) (p : Nat)

@[simp] theorem modNet_steer (f : NetPort → NetPort) : (modNet s p f).steer = s.steer := rfl
@[simp] theorem modFld_steer (f : FldPort → FldPort) : (modFld s p f).steer = s.steer := rfl
@[simp] theorem fldCount_steer (i k : Nat) : (fldCount s p i k).steer = s.steer := rfl
@[simp] theorem emit_steer (o : Out) : (emit s o).steer = s.steer := rfl
@[simp] theorem modStream_steer (k : Nat) (f : Stream → Stream) : (modStream s k f).steer = s.steer := rfl
@[simp] theorem count_steer (k i : Nat) : (count s k i).steer = s.steer := rfl

/-- A change of a time base that keeps its mode and its adjustment. -/
theorem modTb_steer (t : Nat) {f : TimeBase → TimeBase} (hmode : ∀ b, (f b).mode = b.mode) (hadj : ∀ b, (f b).adj = b.adj) :
    (modTb s t f).steer = s.steer := by
  have h : ∀ k, ((tb (modTb s t f) k).mode, (tb (modTb s t f) k).adj) = ((tb s k).mode, (tb s k).adj) := fun k => by
    by_cases hk : k = t
    · rw [hk, tb_modTb_self, hmode, hadj]
    · rw [tb_modTb_ne _ _ hk]
  exact Prod.ext rfl (funext h)

@[simp] theorem modPtp_steer (t k : Nat) (f : PtpPort → PtpPort) : (modPtp s t k f).steer = s.steer := modTb_steer s t (fun _ => rfl) (fun _ => rfl)

@[simp] theorem netInt_steer (b : Nat) : (netInt s p b).steer = s.steer := by
  unfold netInt; dsimp only; split
  · rfl
  · split <;> rfl

@[simp] theorem netCount_steer (i k : Nat) : (netCount s p i k).steer = s.steer := by
  unfold netCount; dsimp only; split <;> simp

@[simp] theorem netWire_steer (h : TxHeld) (b : List Byte) : (netWire s p h b).steer = s.steer := by
  have hwire : (netWire.wire p h b s).steer = s.steer := by simp [netWire.wire]
  unfold netWire
  split
  · simp
  · split
    · split
      · simp
      · exact (count_steer ..).trans hwire
    · exact hwire

@[simp] theorem ptpLeave_steer (k : Nat) (h : TxHeld) : (ptpLeave s k h).2.1.steer = s.steer := by
  unfold ptpLeave
  split
  · rfl
  · unfold ptpStamp
    dsimp only
    split
    · exact modPtp_steer ..
    · split <;> rfl

theorem netQueue_steer {send : State → State} (hsend : (send s).steer = s.steer) (h : TxHeld) : (netQueue send s p h).steer = s.steer := by
  unfold netQueue
  dsimp only
  split
  · simp
  · split
    · simp
    · split
      · simp
      · exact hsend

@[simp] theorem netSend_steer (h : TxHeld) : (netSend s p h).steer = s.steer := by
  have hleft : (netWire (ptpLeave s p h).2.1 p h (ptpLeave s p h).1).steer = s.steer := (netWire_steer ..).trans (ptpLeave_steer ..)
  unfold netSend
  split
  · simp
  · dsimp only
    split
    · exact (netQueue_steer _ p (netWire_steer ..) _).trans hleft
    · exact hleft

@[simp] theorem netRelease_steer : (netRelease s p).steer = s.steer :=
  (foldl_keeps State.steer (fun s h => netSend_steer s p h) _ _).trans (modNet_steer ..)

@[simp] theorem netStale_steer (l : Nat × Nat) : (netStale s p l).steer = s.steer := by
  unfold netStale; split <;> simp

@[simp] theorem endLpi_steer : (endLpi s p).steer = s.steer := by
  unfold endLpi; split <;> simp

@[simp] theorem netOffer_steer (h : TxHeld) : (netOffer s p h).steer = s.steer := by
  unfold netOffer
  refine (netQueue_steer _ p (netSend_steer ..) h).trans ?_
  split
  · simp
  · rfl

@[simp] theorem fldPut_steer (h : TxHeld) (b : List Byte) : (fldPut s p h b).steer = s.steer := by
  unfold fldPut
  dsimp only
  split <;> simp

@[simp] theorem fldSend_steer (h : TxHeld) : (fldSend s p h).steer = s.steer := by
  have hleft : (fldLeft s p h).steer = s.steer := (fldPut_steer ..).trans (ptpLeave_steer ..)
  rw [fldSend_eq]
  split
  · exact hleft
  · split
    · exact hleft
    · exact (fldPut_steer ..).trans hleft

theorem fldOffer_steer (h : TxHeld) : (fldOffer s p h).steer = s.steer := by
  unfold fldOffer
  dsimp only
  split
  · simp
  · split
    · rfl
    · split
      · simp
      · rw [fldGo_cons]
        exact foldl_keeps State.steer (fun s h => fldSend_steer s p h) _ _

/-- A millisecond on one PTP port of a time base keeps every mode and adjustment. -/
theorem ptpPortTick_steer (t k : Nat) : (ptpPortTick s t k).1.steer = s.steer := by
  have hdue : ∀ u : State, (ptpDue u t k).1.steer = u.steer := fun u => by
    unfold ptpDue
    split
    · rfl
    · exact modPtp_steer ..
  unfold ptpPortTick
  dsimp only
  rw [hdue, ptpDecide]
  refine (modTb_steer _ t ?_ ?_).trans ((modPtp_steer ..).trans ?_)
  · exact fun _ => rfl
  · exact fun _ => rfl
  · split
    · rfl
    · exact modTb_steer s t (fun _ => rfl) (fun _ => rfl)

theorem ptpTick_steer (up : Nat → Bool) : (ptpTick s up).1.steer = s.steer := by
  unfold ptpTick
  refine foldl_keeps (fun x : State × List (Nat × TxHeld) => x.1.steer) (fun x e => ?_) _ (s, [])
  exact foldl_keeps (fun x : State × List (Nat × TxHeld) => x.1.steer) (fun x k => ptpPortTick_steer x.1 e.1 k) _ x

/-- The PTP instances of the device steer nothing in their millisecond (log entry 30). -/
theorem ptpRun_steer : (ptpRun s).steer = s.steer := by
  unfold ptpRun
  split
  · dsimp only
    refine (foldl_keeps State.steer (fun (u : State) (x : Nat × TxHeld) => ?_) _ _).trans (ptpTick_steer s _)
    split
    · exact netOffer_steer ..
    · exact fldOffer_steer ..
  · rfl

end

/-! ### The synthesisers of Stillwater follow -/

@[simp] theorem modSyn_steer (s : State) (n : Nat) (f : Syn → Syn) : (modSyn s n f).steer = s.steer := rfl

theorem steer_of_offLps {s u : State} (h : u.offLps = s.offLps) : u.steer = s.steer := by
  simp only [State.steer, refs_of_offLps h, tb_congr (tbs_of_offLps h)]

@[simp] theorem synUnlock_steer (s : State) (n : Nat) : (synUnlock s n).steer = s.steer := by
  unfold synUnlock
  dsimp only
  split
  · exact (steer_of_offLps (lpSynLost_offLps _ n) :).trans rfl
  · rfl

theorem synUpdate_steer (s : State) (n : Nat) : (synUpdate s n).steer = s.steer := by
  unfold synUpdate
  dsimp only
  split
  · rfl
  · split
    · split <;> rfl
    · split
      · rfl
      · rw [modSyn_steer, synUnlock_steer]

theorem synUpdates_steer (s : State) (holder : Nat → Bool) : (synUpdates s holder).steer = s.steer :=
  foldl_keeps State.steer (fun u n => by
    split
    · exact synUpdate_steer u n
    · rfl) _ s

/-! ### The output frequency (15 R307, R308) -/

/-- The output frequency, and the configuration that waits for the next update. -/
def State.output (s : State) : Int × Option (List Byte) := (s.refs.freq, s.refs.staged)

theorem takeCand_output (s : State) (n : Nat) : (takeCand s n).output = s.output := by
  unfold takeCand
  dsimp only
  split
  · rfl
  · split <;> rfl

theorem holdover_output (s : State) : (holdover s).output = s.output := by
  unfold holdover
  dsimp only
  split <;> rfl

@[simp] theorem reselect_output (s : State) (wtr : Bool) : (reselect s wtr).output = s.output := by
  obtain h | h | ⟨n, h⟩ := reselect_cases s wtr
  · rw [h]
  · rw [h, holdover_output]
  · rw [h, takeCand_output]

@[simp] theorem modCand_output (s : State) (n : Nat) (f : Cand → Cand) : (modCand s n f).output = s.output := rfl

theorem candFail_output (s : State) (n : Nat) : (candFail s n).output = s.output := by
  unfold candFail
  dsimp only
  rw [reselect_output]
  split <;> rfl

theorem candSweep_output (s : State) : (candSweep s).output = s.output := by
  refine foldl_keeps State.output (fun (u : State) (e : Nat × Cand) => ?_) _ s
  extract_lets n v
  have hfail : v.output = u.output := by
    simp only [v]
    split
    · exact candFail_output u n
    · rfl
  split
  · exact hfail
  · exact hfail

/-- What waits is applied: the frequency stays, and nothing waits any more. -/
theorem refApply_output (s : State) (c : List Byte) : (refApply s c).output = (s.refs.freq, none) := by
  unfold refApply
  exact reselect_output _ _

theorem gridStep_refs (i d : Nat) (s : State) : (gridStep i d s).refs = s.refs := by
  unfold gridStep advanceTo advance
  dsimp only
  split
  · split <;> rfl
  · rfl

/-- A frequency moved toward another moves by at most 0.1 ppm. -/
theorem approach_within (f goal : Int) : f - 25600 ≤ approach f goal ∧ approach f goal ≤ f + 25600 := by
  unfold approach clampI dpllStep
  split
  · omega
  · split <;> omega

theorem pullUpdate_within (s : State) : s.refs.freq - 25600 ≤ (pullUpdate s).refs.freq ∧ (pullUpdate s).refs.freq ≤ s.refs.freq + 25600
    ∧ (pullUpdate s).refs.staged = s.refs.staged := by
  unfold pullUpdate
  extract_lets r f slope off brake want new err
  split
  · exact ⟨(approach_within ..).1, (approach_within ..).2, rfl⟩
  · exact ⟨(approach_within ..).1, (approach_within ..).2, rfl⟩

/-- In every state of the DPLL its update moves the output by at most 0.1 ppm. -/
theorem dpllFreq_within (s : State) : s.refs.freq - 25600 ≤ (dpllFreq s).refs.freq ∧ (dpllFreq s).refs.freq ≤ s.refs.freq + 25600
    ∧ (dpllFreq s).refs.staged = s.refs.staged := by
  unfold dpllFreq
  dsimp only
  split
  · exact ⟨(approach_within ..).1, (approach_within ..).2, rfl⟩
  · exact ⟨(approach_within ..).1, (approach_within ..).2, rfl⟩
  · exact pullUpdate_within s
  · exact ⟨(approach_within ..).1, (approach_within ..).2, rfl⟩

theorem dpllHist_output (s : State) : (dpllHist s).output = s.output := by
  unfold dpllHist
  dsimp only
  split
  · rfl
  · split <;> rfl

/-- A time base in mode 3 takes the output frequency, corrected by XA_CAL. -/
def TimeBase.follow (r : Refs) (b : TimeBase) : TimeBase :=
  if b.mode = 3 then { b with adj := r.freq - r.xaCal * 2560, locked := r.state == 2, holdover := r.state == 4 || r.state == 0 } else b

def tbsFollow (s : State) : State := { s with tbs := s.tbs.map (fun e => (e.1, e.2.follow s.refs)) }

theorem tbsFollow_adj (s : State) {k : Nat} (h : (tb (tbsFollow s) k).mode = 3) : (tb (tbsFollow s) k).adj = s.refs.freq - s.refs.xaCal * 2560 := by
  have htb : tget (tbsFollow s).tbs k = (tget s.tbs k).map (TimeBase.follow s.refs) := tget_map (TimeBase.follow s.refs) s.tbs k
  rw [tb, tgetD, htb] at h ⊢
  cases hget : tget s.tbs k with
  | none => rw [hget] at h; cases h
  | some b =>
    rw [hget] at h
    simp only [Option.map_some, Option.getD_some, TimeBase.follow] at h ⊢
    split at h
    · next hmode => rw [if_pos hmode]
    · next hmode => exact absurd h hmode

theorem tbHist_if_refs (s : State) (c : Prop) [Decidable c] : (if c then tbHist s else s).refs = s.refs := by
  split <;> rfl

/-- What the update as a whole leaves: the frequency within 0.1 ppm, and every time base in mode 3 on it. -/
theorem dpllUpdate_spec (s : State) : ∃ u : State, (dpllUpdate s).steer = (tbsFollow u).steer
    ∧ s.refs.freq - 25600 ≤ u.refs.freq ∧ u.refs.freq ≤ s.refs.freq + 25600 ∧ u.refs.staged = none := by
  unfold dpllUpdate
  extract_lets s1 s2 s3 s4 a s5
  have hgrid : s1 = gridStep 1 1200000 s := rfl
  clear_value s1
  have h1 : s1.refs = s.refs := (congrArg State.refs hgrid).trans (gridStep_refs ..)
  have h2 : s2.output = (s.refs.freq, none) := by
    refine (candSweep_output _).trans ?_
    split
    · rw [refApply_output, h1]
    · next hnone => rw [State.output, hnone, h1]
  clear_value s2
  have h3 : s.refs.freq - 25600 ≤ s3.refs.freq ∧ s3.refs.freq ≤ s.refs.freq + 25600 ∧ s3.refs.staged = none := by
    obtain ⟨hfreq, hstaged⟩ := Prod.mk.inj h2
    obtain ⟨hfreq', hstaged'⟩ := Prod.mk.inj (dpllHist_output (dpllFreq s2))
    obtain ⟨hlo, hhi, hkeep⟩ := dpllFreq_within s2
    rw [← hfreq, hfreq', hstaged', hkeep, hstaged]
    exact ⟨hlo, hhi, rfl⟩
  clear_value s3
  have hhist : s4 = if tgetD s3.grid 1 0 % 1000 = 0 then tbHist s3 else s3 := rfl
  clear_value s4
  have h4 : s4.refs = s3.refs := (congrArg State.refs hhist).trans (tbHist_if_refs s3 _)
  refine ⟨s4, ?_, by rw [h4]; exact h3⟩
  rw [synUpdates_steer]
  rfl

theorem exec_dpllUpdate {s : State} (hrun : s.clk.running = true) :
    exec .dpllUpdate s = .next (settled s (ptpRun (dpllUpdate (begun s)))) := by
  change runMere s (fun s => ptpRun (dpllUpdate s)) = _
  rw [runMere_of_running hrun]

/-- The APLL has returned: each held synthesiser that is not locked begins to relock. -/
def apllRelocked (s : State) : State :=
  modRefs { s with syns := tmap s.syns (fun _ y => if y.holder = 0 ∨ y.locked then y else { y with relock := true, owes := true }) } (fun r => { r with apll := true })

theorem exec_apllRelock (s : State) : exec .apllRelock s = .next (settled s (apllRelocked (begun s))) := rfl

theorem syn_apllRelocked (s : State) {n : Nat} (hheld : (syn s n).holder ≠ 0) (hlock : (syn s n).locked = false) :
    (syn (apllRelocked s) n).relock = true := by
  have h : tget (apllRelocked s).syns n = (tget s.syns n).map (fun y => if y.holder = 0 ∨ y.locked then y else { y with relock := true, owes := true }) :=
    tget_tmap s.syns (fun _ y => if y.holder = 0 ∨ y.locked then y else { y with relock := true, owes := true }) n
  unfold syn tgetD at hheld hlock ⊢
  rw [h]
  cases hget : tget s.syns n with
  | none => rw [hget] at hheld; exact absurd rfl hheld
  | some y =>
    rw [hget] at hheld hlock
    simp only [Option.getD_some] at hheld hlock
    simp [hheld, hlock]

/-- Settles O50: an update moves the output by `approach` whatever the state of the DPLL, and the synthesisers row by row. -/
theorem outputMovesSlowly : Obligations.OutputMovesSlowly := by
  unfold Obligations.OutputMovesSlowly
  intro s
  refine ⟨fun hrun => ?_, fun n => ⟨fun hn hheld hrelock hapll => ?_, fun h => ?_⟩, fun hapll => ?_, fun hapll => ?_, ?_, fun h => ?_, fun h => ?_⟩
  · obtain ⟨u, hsteer, hlo, hhi, hstaged⟩ := dpllUpdate_spec (begun s)
    have hall : (ptpRun (dpllUpdate (begun s))).steer = (tbsFollow u).steer := (ptpRun_steer _).trans hsteer
    obtain ⟨href, htbs⟩ := Prod.mk.inj hall
    have href' : (ptpRun (dpllUpdate (begun s))).refs = u.refs := href
    refine ⟨_, exec_dpllUpdate hrun, ?_⟩
    simp only [settled_refs, settled_tbs, href']
    refine ⟨hlo, hhi, hstaged, fun k b hb hmode => ?_⟩
    have htb : tb (ptpRun (dpllUpdate (begun s))) k = b := by rw [tb, tgetD, hb, Option.getD_some]
    obtain ⟨hm, ha⟩ := Prod.mk.inj (congrFun htbs k)
    rw [htb] at hm ha
    rw [ha, tbsFollow_adj u (hm.symm.trans hmode)]
  · refine ⟨_, exec_synRelockDone n s, ?_⟩
    simp only [syn_settled]
    exact synRelocked_syn (s := begun s) hn hheld hrelock hapll
  · rw [exec_synRelockDone, synRelocked_idle (by exact h)]
  · refine ⟨_, exec_apllUnlock s, ?_⟩
    rw [if_pos hapll]
    simp only [settled_refs, syn_settled, apllUnlock_refs, apllUnlock_syn]
    refine ⟨trivial, by simp [bit_setBit], fun n hn => ?_⟩
    rw [if_pos hn]
    exact ⟨rfl, rfl, rfl⟩
  · rw [exec_apllUnlock, if_neg (by simp [hapll])]
  · refine ⟨_, exec_apllRelock s, by rw [settled_refs]; rfl, fun n hheld hlock => ?_⟩
    rw [syn_settled, syn_apllRelocked (begun s) hheld hlock]
  · refine ⟨_, exec_syncInEdge s, ?_⟩
    rw [syncIn_early (by exact h)]
    simp only [settled_refs, settled_syns]
    exact ⟨by simp [refFault, modRefs, bit_setBit], rfl, rfl⟩
  · obtain ⟨hat, hedge⟩ := syncIn_edge_spec (s := begun s) h
    refine ⟨_, exec_syncInEdge s, by rw [settled_refs, hat]; rfl, fun n hn hmask hheld => ?_⟩
    rw [syn_settled, hedge n hn, syn_begun, Syn.edge, if_neg (by rw [show (begun s).refs = s.refs from rfl, hmask]; simpa using hheld)]
    refine ⟨fun hlock hglide => ?_, fun hlock => ?_⟩
    · rw [if_pos (by exact hlock), if_neg (by simp [hglide])]
      rfl
    · rw [if_neg (by simp [hlock])]
      rfl

end Sys2Proof.Machine
end

section
/-! Twin roles: heartbeats, the lease, claims and displacement (16 R316 to R330). -/
namespace Sys2Proof.Machine

/-! ### What a frame offered to a port leaves as it was -/

/-- The state without a network port's own record, nor what its traffic may change. -/
abbrev State.offNet (p : Nat) (s : State) : State := s.offPort (fun _ => {}) p

section
variable {s u : State} {p : Nat}

theorem offNet_of_offSend (h : u.offSend p = s.offSend p) : u.offNet p = s.offNet p := by
  have hagain : ∀ v : State, (v.offSend p).offNet p = v.offNet p := fun v => by
    simp only [State.offSend, State.offNet, State.offPort, tset_tset_self]
  rw [← hagain u, ← hagain s, h]

theorem netOffer_offNet (s : State) (p : Nat) (h : TxHeld) : (netOffer s p h).offNet p = s.offNet p := by
  unfold netOffer
  refine (offNet_of_offSend (netQueue_offSend _ p (netSend_offSend ..) h)).trans ?_
  split
  · next l hl =>
    have hstale : (netStale s p l).offNet p = s.offNet p := by
      unfold netStale
      split
      · exact (netCount_offPort (by intros; rfl) (by intros; rfl) _ p 1).trans (modNet_offPort rfl)
      · rfl
    refine Eq.trans ?_ hstale
    unfold endLpi
    split
    · exact (offNet_of_offSend (netRelease_offSend ..)).trans (modNet_offPort rfl)
    · rfl
  · rfl

end

/-! ### Roles and claims (16 R319, R322) -/

theorem thas_map {α β : Type} (f : α → β) (t : Tbl α) (k : Nat) : thas (t.map (fun e => (e.1, f e.2))) k = thas t k := by
  simp only [thas, tget_map, Option.isSome_map]


/-- What the roles rest on: the twin record, the triplicated fields and Mere time. -/
def State.pair (s : State) : Twin × List (TripField × Trip) × Nat := (s.twin, s.votes, s.mere)

theorem pair_of_offNet {s u : State} {p : Nat} (h : u.offNet p = s.offNet p) : u.pair = s.pair := (congrArg State.pair h :)

theorem sendFenced_pair (s : State) : (sendFenced s).pair = s.pair := by
  unfold sendFenced
  refine foldl_keeps State.pair (fun u e => ?_) _ s
  refine foldl_keeps State.pair (fun v g => ?_) _ u
  split
  · rfl
  · dsimp only
    split
    · exact (pair_of_offNet (netOffer_offNet ..)).trans rfl
    · rfl

theorem fldClaim_pair (s : State) : (fldClaim s).pair = s.pair := by
  unfold fldClaim
  refine foldl_keeps State.pair (fun u e => ?_) _ s
  dsimp only
  split <;> rfl

theorem tripGet_congr {s u : State} (h : u.votes = s.votes) (f : TripField) : tripGet u f = tripGet s f := by rw [tripGet, h, tripGet]

section
variable (s : State)

@[simp] theorem role_settled (u : State) : role (settled s u) = role u := tripGet_settled s u .role
@[simp] theorem role_begun : role (begun s) = role s := rfl
@[simp] theorem role_modTwin (f : Twin → Twin) : role (modTwin s f) = role s := rfl
@[simp] theorem role_evD (typ obj status aux : Nat) : role (evD s typ obj status aux) = role s := rfl

theorem advanceTo_role (c : Nat) : role (advanceTo c s) = role s := by
  unfold advanceTo advance
  split
  · split <;> rfl
  · rfl
theorem advanceTo_twin (c : Nat) : (advanceTo c s).twin = s.twin := by
  unfold advanceTo advance
  split
  · split <;> rfl
  · rfl

/-- No tenant comes or goes with Mere time. -/
theorem advanceTo_thas (c t : Nat) : thas (advanceTo c s).tenants t = thas s.tenants t := by
  unfold advanceTo advance
  split
  · split
    · exact thas_map (fun x : Tenant => { x with mclk := { x.mclk with acc := (x.mclk.acc + (c - s.mere) * x.mclk.inc) % 2 ^ 104 } }) s.tenants t
    · rfl
  · rfl

/-- A role is taken, and any but ACTIVE gives up the shared outputs. -/
theorem role_setRole (r : Nat) : role (setRole s r) = r := by
  unfold setRole
  dsimp only
  split
  · next h => exact h
  · rw [role_evD, role_modTwin]
    split
    · exact (tripGet_tripSet ..).trans (if_pos rfl)
    · exact (tripGet_tripSet ..).trans ((if_neg (by decide)).trans ((tripGet_tripSet ..).trans (if_pos rfl)))

theorem own_setRole {r : Nat} (hr : r ≠ 2) (hnew : role s ≠ r) : tripGet (setRole s r) .own = 0 := by
  unfold setRole
  dsimp only
  rw [if_neg hnew, if_neg hr]
  exact (tripGet_tripSet ..).trans (if_pos rfl)

theorem own_setRole_active : tripGet (setRole s 2) .own = tripGet s .own := by
  unfold setRole
  dsimp only
  split
  · rfl
  · rw [if_pos rfl]
    exact (tripGet_tripSet ..).trans (if_neg (by decide))

/-- A change of role leaves of the twin record all but what counts anew, and Mere time. -/
theorem setRole_twin (r : Nat) : ((setRole s r).twin.epoch, (setRole s r).twin.alarm, (setRole s r).twin.down1, (setRole s r).twin.down2, (setRole s r).mere)
    = (s.twin.epoch, s.twin.alarm, s.twin.down1, s.twin.down2, s.mere) := by
  unfold setRole
  dsimp only
  split
  · rfl
  · split <;> rfl

/-- A device that has been displaced is fenced. -/
theorem displace_spec {r : Nat} (hr : r ≠ 2) (hnew : role s ≠ r) : role (displace s r) = r ∧ tripGet (displace s r) .own = 0 :=
  ⟨role_setRole _ r, own_setRole _ hr hnew⟩

/-- A claimant is active, owns the outputs and has begun its lease. -/
def Claimed (t : State) (e : Nat) : Prop :=
  role t = 2 ∧ tripGet t .own = 1 ∧ t.twin.epoch = (e + 1) % 256 ∧ bit t.twin.alarm 5 = true ∧ t.twin.leaseAt = some t.mere

theorem Claimed.settled {t : State} {e : Nat} (h : Claimed t e) : Claimed (settled s t) e := by
  simpa [Claimed] using h

theorem Claimed.evD {t : State} {e : Nat} (h : Claimed t e) (typ obj status aux : Nat) : Claimed (evD t typ obj status aux) e := h
theorem Claimed.emit {t : State} {e : Nat} (h : Claimed t e) (o : Out) : Claimed (emit t o) e := h

/-- The boundary has ended the takeback. -/
theorem Claimed.tookBack {t : State} {e : Nat} (h : Claimed t e) : Claimed (modTwin t (fun w => { w with takeback := false })) e := h

/-- A claim raises EPOCH by 1 and takes the outputs; which paths are down stays. -/
theorem claim_spec : Claimed (claim s) s.twin.epoch ∧ (claim s).twin.down1 = s.twin.down1 ∧ (claim s).twin.down2 = s.twin.down2 := by
  unfold claim
  extract_lets s1 s2 s3
  have hpair : (fldClaim (if s3.twin.txMode = 1 then sendFenced s3 else s3)).pair = s3.pair := by
    rw [fldClaim_pair]
    split
    · exact sendFenced_pair s3
    · rfl
  obtain ⟨htwin, hrest⟩ := Prod.mk.inj hpair
  obtain ⟨hvotes, hmere⟩ := Prod.mk.inj hrest
  have hkeep := setRole_twin (tripSet s1 .own 1) 2
  simp only [Prod.mk.injEq] at hkeep
  obtain ⟨hepoch, halarm, hd1, hd2, -⟩ := hkeep
  have hrole : role s3 = 2 := role_setRole (tripSet s1 .own 1) 2
  have hown : tripGet s3 .own = 1 := (own_setRole_active (tripSet s1 .own 1)).trans ((tripGet_tripSet ..).trans (if_pos rfl))
  unfold Claimed role
  rw [tripGet_congr hvotes, tripGet_congr hvotes, htwin, hmere]
  refine ⟨⟨hrole, hown, hepoch, ?_, rfl⟩, hd1, hd2⟩
  change bit s2.twin.alarm 5 = true
  rw [halarm]
  exact (bit_setBit s.twin.alarm 5 true 5).trans (if_pos rfl)

end

/-! ### Heartbeats (16 R318 to R321) -/

theorem exec_heartbeatSend (s : State) : exec .heartbeatSend s = .next (settled s (heartbeatSend (begun s))) := rfl
theorem exec_heartbeatRx (p : Nat) (h : Heartbeat) (s : State) : exec (.heartbeatRx p h) s = .next (settled s (heartbeatRx p h (begun s))) := rfl
theorem exec_hbPathMiss (p : Nat) (s : State) : exec (.hbPathMiss p) s = .next (settled s (if p = 1 ∨ p = 2 then pathDown (begun s) p else begun s)) := rfl
theorem exec_leaseExpiry (s : State) : exec .leaseExpiry s = .next (settled s (leaseExpiry (begun s))) := rfl
theorem exec_standbyClaim (s : State) : exec .standbyClaim s = .next (settled s (standbyClaim (begun s))) := rfl
theorem exec_twinPeerOeLow (s : State) : exec .twinPeerOeLow s = .next (settled s (peerOeLow (begun s))) := rfl
theorem exec_soloWaitExpiry (s : State) : exec .soloWaitExpiry s = .next (settled s (soloWait (begun s))) := rfl
theorem exec_lineWatchClaim (k slot : Nat) (s : State) : exec (.lineWatchClaim k slot) s = .next (settled s (lineWatchAt k slot (begun s))) := rfl
theorem exec_holdoffTakeback (s : State) : exec .holdoffTakeback s = .next (settled s (twinSettle (takeback (begun s)))) := rfl

section
variable {s : State} {p : Nat} {h : Heartbeat}

theorem heartbeatSend_beats (hb : beats s = true) :
    heartbeatSend s = if role s = 2 then modTwin (emitBeat s false) (fun w => { w with leaseAt := some s.mere }) else emitBeat s false := if_pos hb

theorem heartbeatSend_silent (hb : beats s = false) : heartbeatSend s = s := if_neg (by simp [hb])

/-- The device has heard a heartbeat on path `p`; what the peer says is kept. -/
def heardFrom (p : Nat) (h : Heartbeat) (s : State) : State :=
  modTwin (pathUp s p) (fun w => { w with peerState := h.state, peerEpoch := h.epoch % 256, heard := true, leaseAt := if role (pathUp s p) = 2 then w.leaseAt else some (pathUp s p).mere })

/-- A standby keeps the EPOCH of the active device. -/
def epochFrom (h : Heartbeat) (s : State) : State := if h.state = 2 then modTwin s (fun w => { w with epoch := h.epoch % 256 }) else s

/-- What roles and heartbeats rest on. -/
def State.standing (s : State) : List (TripField × Trip) × Dev × Nat × Bool × Nat × Nat :=
  (s.votes, s.dev, s.ctl.stage, s.twin.stopped, s.twin.epoch, s.twin.peerState)

/-- Hearing a path again changes neither the roles nor what allows heartbeats. -/
theorem pathUp_standing (s : State) (p : Nat) : (pathUp s p).standing = s.standing := by
  unfold pathUp
  extract_lets down u
  have hu : u.standing = s.standing := by
    simp only [u, modTwin, State.standing]
    split <;> rfl
  split
  · exact hu
  · exact hu

theorem heardFrom_kept (p : Nat) (h : Heartbeat) (s : State) : role (heardFrom p h s) = role s ∧ beats (heardFrom p h s) = beats s
    ∧ twinId (heardFrom p h s) = twinId s ∧ (heardFrom p h s).twin.epoch = s.twin.epoch := by
  have hkeep := pathUp_standing s p
  simp only [State.standing, Prod.mk.injEq] at hkeep
  obtain ⟨hvotes, hdev, hstage, hstopped, hepoch, -⟩ := hkeep
  have htrip : ∀ f, tripGet (heardFrom p h s) f = tripGet s f := fun f => tripGet_congr hvotes f
  refine ⟨htrip .role, ?_, ?_, hepoch⟩
  · unfold beats role
    rw [htrip, htrip]
    change (_ && (pathUp s p).ctl.stage == 4 && !(pathUp s p).dev.safe && _ && !(pathUp s p).twin.stopped) = _
    rw [hstage, hdev, hstopped]
  · change bits (pathUp s p).dev.straps 4 3 = _
    rw [hdev]
    rfl

section
variable (hr : role s ≠ 0) (hp : p = 1 ∨ p = 2)
include hr hp

theorem heartbeatRx_eq : heartbeatRx p h s = match role s with
    | 1 => if !beats s then heardFrom p h s else if twinId s = 1 then claim (heardFrom p h s) else setRole (epochFrom h (heardFrom p h s)) 3
    | 2 => if h.state = 2 then bothActive (heardFrom p h s) (h.epoch % 256) else heardFrom p h s
    | 3 => if h.state = 2 && h.yld then claim (epochFrom h (heardFrom p h s))
      else if h.state = 3 && s.twin.peerState == 2 then claim (heardFrom p h s) else epochFrom h (heardFrom p h s)
    | 4 => if h.state = 2 && h.yld then claim (epochFrom h (heardFrom p h s)) else epochFrom h (heardFrom p h s)
    | 5 => if h.state = 2 && beats s then modTwin (heardFrom p h s) (fun w => { w with resync := true }) else heardFrom p h s
    | _ => heardFrom p h s := by
  obtain ⟨hrole, hbeats, hid, -⟩ := heardFrom_kept p h s
  unfold heartbeatRx
  rw [if_neg (by rcases hp with rfl | rfl <;> simp [hr])]
  dsimp only
  rw [show modTwin (pathUp s p) _ = heardFrom p h s from rfl, hrole, hbeats, hid]
  rfl

end

/-- Of two active devices the older EPOCH is fenced, and the secondary when they cannot be ordered. -/
theorem bothActive_role {u : State} (hrole : role u = 2) (e : Nat) :
    let d := (e + 256 - u.twin.epoch) % 256
    (((0 < d ∧ d < 128) ∨ ((d = 0 ∨ d = 128) ∧ twinId u = 2)) → role (bothActive u e) = 5 ∧ tripGet (bothActive u e) .own = 0)
      ∧ ((128 < d ∨ ((d = 0 ∨ d = 128) ∧ twinId u ≠ 2)) → role (bothActive u e) = 2) := by
  intro d
  have hfenced := displace_spec u (r := 5) (by decide) (by rw [hrole]; decide)
  have hd : d < 256 := Nat.mod_lt _ (by decide)
  unfold bothActive
  change (_ → role (if d = 0 ∨ d = 128 then _ else _) = 5 ∧ _) ∧ _
  by_cases hsame : d = 0 ∨ d = 128
  · by_cases hid : twinId u = 2
    · rw [if_pos hsame, if_pos hid]
      exact ⟨fun _ => hfenced, fun h => by omega⟩
    · rw [if_pos hsame, if_neg hid]
      exact ⟨fun h => by omega, fun _ => hrole⟩
  · by_cases hlt : d < 128
    · rw [if_neg hsame, if_pos hlt]
      exact ⟨fun _ => hfenced, fun h => by omega⟩
    · rw [if_neg hsame, if_neg hlt]
      exact ⟨fun h => by omega, fun _ => hrole⟩

theorem heartbeatRx_idle (h' : role s = 0 ∨ (p ≠ 1 ∧ p ≠ 2)) : heartbeatRx p h s = s := if_pos (by simpa using h')

section
variable (hp : p = 1 ∨ p = 2)
include hp

/-- A forming device takes its place once the peer is heard. -/
theorem heartbeatRx_forming (hr : role s = 1) :
    (beats s = true → twinId s = 1 → Claimed (heartbeatRx p h s) s.twin.epoch) ∧ (beats s = true → twinId s ≠ 1 → role (heartbeatRx p h s) = 3)
      ∧ (beats s = false → role (heartbeatRx p h s) = 1) := by
  obtain ⟨hrole, -, -, hepoch⟩ := heardFrom_kept p h s
  have heq : heartbeatRx p h s = if !beats s then heardFrom p h s else if twinId s = 1 then claim (heardFrom p h s) else setRole (epochFrom h (heardFrom p h s)) 3 :=
    (heartbeatRx_eq (by omega) hp).trans (by rw [hr]; rfl)
  rw [heq]
  refine ⟨fun hb hid => ?_, fun hb hid => ?_, fun hb => ?_⟩
  · rw [if_neg (by simp [hb]), if_pos hid, ← hepoch]
    exact (claim_spec _).1
  · rw [if_neg (by simp [hb]), if_neg hid]
    exact role_setRole _ 3
  · rw [if_pos (by simp [hb]), hrole, hr]

theorem heartbeatRx_active (hr : role s = 2) :
    let d := (h.epoch % 256 + 256 - s.twin.epoch) % 256
    (h.state ≠ 2 → role (heartbeatRx p h s) = 2)
      ∧ (h.state = 2 → (0 < d ∧ d < 128) ∨ ((d = 0 ∨ d = 128) ∧ twinId s = 2) → role (heartbeatRx p h s) = 5 ∧ tripGet (heartbeatRx p h s) .own = 0)
      ∧ (h.state = 2 → 128 < d ∨ ((d = 0 ∨ d = 128) ∧ twinId s ≠ 2) → role (heartbeatRx p h s) = 2) := by
  obtain ⟨hrole, -, hid, hepoch⟩ := heardFrom_kept p h s
  have hboth := bothActive_role (hrole.trans hr) (h.epoch % 256)
  rw [hepoch, hid] at hboth
  have heq : heartbeatRx p h s = if h.state = 2 then bothActive (heardFrom p h s) (h.epoch % 256) else heardFrom p h s :=
    (heartbeatRx_eq (by omega) hp).trans (by rw [hr]; rfl)
  rw [heq]
  refine ⟨fun hst => ?_, fun hst hd => ?_, fun hst hd => ?_⟩
  · rw [if_neg hst, hrole, hr]
  · rw [if_pos hst]
    exact hboth.1 hd
  · rw [if_pos hst]
    exact hboth.2 hd

/-- A standby or unfit device takes the role from an active peer that yields, and else keeps its EPOCH. -/
theorem heartbeatRx_standby (hr : role s = 3 ∨ role s = 4) (hst : h.state = 2) :
    (h.yld = true → Claimed (heartbeatRx p h s) (h.epoch % 256))
      ∧ (h.yld = false → role (heartbeatRx p h s) = role s ∧ (heartbeatRx p h s).twin.epoch = h.epoch % 256) := by
  obtain ⟨hrole, -, -, -⟩ := heardFrom_kept p h s
  have hfrom : epochFrom h (heardFrom p h s) = modTwin (heardFrom p h s) (fun w => { w with epoch := h.epoch % 256 }) := if_pos hst
  have heq : heartbeatRx p h s = if h.yld then claim (epochFrom h (heardFrom p h s)) else epochFrom h (heardFrom p h s) := by
    rw [heartbeatRx_eq (by omega) hp]
    rcases hr with hr | hr
    · rw [hr]; simp [hst]
    · rw [hr]; simp [hst]
  rw [heq, hfrom]
  refine ⟨fun hy => ?_, fun hy => ?_⟩
  · rw [if_pos hy]
    exact (claim_spec (modTwin (heardFrom p h s) (fun w => { w with epoch := h.epoch % 256 }))).1
  · rw [if_neg (by simp [hy])]
    exact ⟨hrole, rfl⟩

theorem heartbeatRx_fenced (hr : role s = 5) : role (heartbeatRx p h s) = 5 ∧ (h.state = 2 → beats s = true → (heartbeatRx p h s).twin.resync = true) := by
  obtain ⟨hrole, -, -, -⟩ := heardFrom_kept p h s
  have heq : heartbeatRx p h s = if h.state = 2 && beats s then modTwin (heardFrom p h s) (fun w => { w with resync := true }) else heardFrom p h s :=
    (heartbeatRx_eq (by omega) hp).trans (by rw [hr]; rfl)
  rw [heq]
  refine ⟨?_, fun hst hb => ?_⟩
  · split
    · exact hrole.trans hr
    · exact hrole.trans hr
  · rw [if_pos (by simp [hst, hb])]
    rfl

end

/-- A path has missed its heartbeats, which count. -/
def pathMissed (p : Nat) (s : State) : State :=
  evD (modTwin s (fun w => { w with
    down1 := w.down1 || p == 1, down2 := w.down2 || p == 2, alarm := setBit w.alarm (p - 1) true
    hbMiss0 := if p = 1 then inc48 w.hbMiss0 3 else w.hbMiss0, hbMiss1 := if p = 2 then inc48 w.hbMiss1 3 else w.hbMiss1 })) 0xB02 p 0 0

theorem pathDown_idle (hd : role s = 0 ∨ (if p = 1 then s.twin.down1 else s.twin.down2) = true) : pathDown s p = s := if_pos hd

theorem pathDown_missed (hr : role s ≠ 0) (hup : (if p = 1 then s.twin.down1 else s.twin.down2) = false) : pathDown s p = pathMissed p s :=
  if_neg (by simp only [hr, hup]; decide)

theorem pathMissed_alarm (p : Nat) (s : State) : bit (pathMissed p s).twin.alarm (p - 1) = true :=
  (bit_setBit s.twin.alarm (p - 1) true (p - 1)).trans (if_pos rfl)

/-- A path is down after it has missed its heartbeats, whatever it was, and the other is as it was. -/
theorem pathDown_after (hp : p = 1 ∨ p = 2) (hr : role s ≠ 0) : role (pathDown s p) = role s
    ∧ ((pathDown s p).twin.down1, (pathDown s p).twin.down2, (pathDown s p).twin.epoch) = (s.twin.down1 || p == 1, s.twin.down2 || p == 2, s.twin.epoch) := by
  cases hup : (if p = 1 then s.twin.down1 else s.twin.down2) with
  | true =>
    rw [pathDown_idle (.inr hup)]
    rcases hp with rfl | rfl
    · have h1 : s.twin.down1 = true := hup
      simp [h1]
    · have h2 : s.twin.down2 = true := hup
      simp [h2]
  | false =>
    rw [pathDown_missed hr hup]
    exact ⟨rfl, rfl⟩

/-! ### The lease, claims and displacement (16 R316, R319, R322, R327, R330) -/

theorem leaseExpiry_idle (h' : role s ≠ 2 ∨ s.twin.leaseAt = none) : leaseExpiry s = s := by
  unfold leaseExpiry
  split
  · next a ha => exact if_neg (by simpa [ha] using h')
  · rfl

theorem leaseExpiry_fenced (hr : role s = 2) (hl : s.twin.leaseAt ≠ none) : role (leaseExpiry s) = 5 ∧ tripGet (leaseExpiry s) .own = 0 := by
  unfold leaseExpiry
  split
  · next a ha =>
    rw [if_pos hr]
    exact displace_spec _ (by decide) (by rw [advanceTo_role, hr]; decide)
  · next hnone => exact absurd hnone hl

theorem standbyClaim_idle (h' : (role s ≠ 3 ∧ role s ≠ 4) ∨ s.twin.leaseAt = none) : standbyClaim s = s := by
  unfold standbyClaim
  split
  · next a ha => exact if_neg (by simpa [ha] using h')
  · rfl

theorem standbyClaim_claimed (hr : role s = 3 ∨ role s = 4) (hl : s.twin.leaseAt ≠ none) :
    Claimed (standbyClaim s) s.twin.epoch ∧ (standbyClaim s).twin.down1 = true ∧ (standbyClaim s).twin.down2 = true := by
  unfold standbyClaim
  split
  · next a ha =>
    rw [if_pos hr]
    generalize hu : advanceTo (a + usCycles 450) s = u
    have hrole : role u = role s := by rw [← hu, advanceTo_role]
    have hepoch : u.twin.epoch = s.twin.epoch := by rw [← hu, advanceTo_twin]
    obtain ⟨hrole1, h1⟩ := pathDown_after (s := u) (.inl rfl) (by omega)
    obtain ⟨-, h2⟩ := pathDown_after (s := pathDown u 1) (.inr rfl) (by omega)
    simp only [Prod.mk.injEq] at h1 h2
    obtain ⟨hdown, -, hepoch1⟩ := h1
    obtain ⟨hdown1, hdown2, hepoch2⟩ := h2
    obtain ⟨hclaim, hd1, hd2⟩ := claim_spec (pathDown (pathDown u 1) 2)
    rw [hepoch2, hepoch1, hepoch] at hclaim
    exact ⟨hclaim, by rw [hd1, hdown1, hdown]; simp, by rw [hd2, hdown2]; simp⟩
  · next hnone => exact absurd hnone hl

theorem peerOeLow_spec (s : State) : (peerOeLow s).twin.peerOe = true
    ∧ (role s = 2 → s.twin.seenHigh = true → role (peerOeLow s) = 5 ∧ tripGet (peerOeLow s) .own = 0)
    ∧ (role s ≠ 2 ∨ s.twin.seenHigh = false → role (peerOeLow s) = role s) := by
  unfold peerOeLow
  extract_lets u
  have hset : (setRole (modTwin u (fun w => { w with displaced := some u.mere })) 5).twin.peerOe = true := by
    unfold setRole
    dsimp only
    split
    · rfl
    · split <;> rfl
  refine ⟨?_, fun hr hseen => ?_, fun hno => ?_⟩
  · split
    · exact hset
    · rfl
  · rw [if_pos (by exact ⟨hr, hseen⟩)]
    exact displace_spec u (by decide) (by rw [show role u = role s from rfl, hr]; decide)
  · rw [if_neg]
    · rfl
    · rintro ⟨hr, hseen⟩
      rcases hno with hno | hno
      · exact hno hr
      · rw [show u.twin.seenHigh = s.twin.seenHigh from rfl, hno] at hseen
        cases hseen

theorem soloWait_idle (h' : role s ≠ 1 ∨ twinId s ≠ 1 ∨ s.ctl.stage ≠ 4 ∨ s.twin.heard = true) : soloWait s = s := by
  refine if_neg ?_
  rintro ⟨hr, hid, hst, hheard⟩
  simp [hr, hid, hst] at h'
  simp [h'] at hheard

theorem soloWait_claimed (hr : role s = 1) (hid : twinId s = 1) (hst : s.ctl.stage = 4) (hheard : s.twin.heard = false) :
    Claimed (soloWait s) s.twin.epoch := by
  unfold soloWait
  rw [if_pos ⟨hr, hid, hst, by simp [hheard]⟩]
  have h := (claim_spec (advanceTo (s.twin.leaseAt.getD 0 + usCycles (1000 * s.twin.soloWait)) s)).1
  rwa [advanceTo_twin] at h

theorem lineWatch_idle {k : Nat} (h' : role s ≠ 3 ∨ (∃ a, s.twin.displaced = some a ∧ s.mere < a + secCycles s.twin.holdoff) ∨ tgetD s.twin.misses k 0 < s.twin.watchN) :
    lineWatch k s = s := by
  refine if_neg ?_
  rintro ⟨hr, hheld, hn⟩
  rcases h' with h' | ⟨a, ha, hlt⟩ | h'
  · exact h' hr
  · simp [ha, hlt] at hheld
  · omega

theorem lineWatchAt_idle {k : Nat} (slot : Nat) (h' : lineWatch k s = s) : lineWatchAt k slot s = s := by
  unfold lineWatchAt
  rw [h']
  refine if_neg ?_
  rintro ⟨h3, h2, -⟩
  omega

theorem lineWatchAt_claimed {k : Nat} (slot : Nat) (hr : role s = 3) (hfree : s.twin.displaced = none) (hn : s.twin.watchN ≤ tgetD s.twin.misses k 0) :
    Claimed (lineWatchAt k slot s) s.twin.epoch := by
  have h : lineWatch k s = claim s := by
    unfold lineWatch
    rw [hfree]
    exact if_pos ⟨hr, rfl, hn⟩
  unfold lineWatchAt
  rw [h]
  dsimp only
  split
  · exact (claim_spec s).1.emit _
  · exact (claim_spec s).1

/-! ### Takeback (16 R330) -/

/-- Settings that wait for a T0 boundary take effect. -/
def twinStaged (s : State) : State :=
  match s.twin.staged with
  | none => s
  | some c => modTwin s (fun w => { w with
      txMode := fld c 0 1, hbLane := fld c 1 1, watchN := if fld c 2 1 = 0 then 1 else fld c 2 1, holdoff := if fld c 4 2 = 0xFFFF then 60 else fld c 4 2
      soloWait := if fld c 6 2 = 0 then 2000 else fld c 6 2, staged := none })

theorem twinStaged_kept (s : State) : role (twinStaged s) = role s ∧ ((twinStaged s).twin.claimNext, (twinStaged s).twin.planned, (twinStaged s).twin.epoch)
    = (s.twin.claimNext, s.twin.planned, s.twin.epoch) := by
  unfold twinStaged
  split
  · exact ⟨rfl, rfl⟩
  · exact ⟨rfl, rfl⟩

theorem twinBoundary_eq (s : State) : twinBoundary s =
    if (twinStaged s).twin.claimNext ∧ role (twinStaged s) = 3 then
      (let u := modTwin (claim (twinStaged s)) (fun w => { w with takeback := false })
       if (twinStaged s).twin.takeback then evD u 0xB06 0 0 u.twin.epoch else u)
    else if (twinStaged s).twin.planned ∧ role (twinStaged s) = 2 then
      (let u := modTwin (displace (twinStaged s) 3) (fun w => { w with takeback := false })
       if (twinStaged s).twin.takeback then evD u 0xB06 0 0 u.twin.epoch else u)
    else twinStaged s := rfl

theorem twinBoundary_claimed (hnext : s.twin.claimNext = true) (hr : role s = 3) : Claimed (twinBoundary s) s.twin.epoch := by
  obtain ⟨hrole, hkeep⟩ := twinStaged_kept s
  simp only [Prod.mk.injEq] at hkeep
  obtain ⟨hclaim, -, hepoch⟩ := hkeep
  rw [twinBoundary_eq, if_pos ⟨by rw [hclaim]; exact hnext, hrole.trans hr⟩, ← hepoch]
  dsimp only
  split
  · exact (claim_spec (twinStaged s)).1.tookBack.evD ..
  · exact (claim_spec (twinStaged s)).1.tookBack

theorem twinBoundary_handover (hplan : s.twin.planned = true) (hr : role s = 2) : role (twinBoundary s) = 3 ∧ tripGet (twinBoundary s) .own = 0 := by
  obtain ⟨hrole, hkeep⟩ := twinStaged_kept s
  simp only [Prod.mk.injEq] at hkeep
  obtain ⟨-, hplanned, -⟩ := hkeep
  have hspec := displace_spec (twinStaged s) (r := 3) (by decide) (by rw [hrole, hr]; decide)
  rw [twinBoundary_eq, if_neg (by rw [hrole, hr]; simp), if_pos ⟨by rw [hplanned]; exact hplan, hrole.trans hr⟩]
  generalize displace (twinStaged s) 3 = u at hspec ⊢
  dsimp only
  split
  · exact hspec
  · exact hspec

/-- Without a tenant 0 a planned claim comes at once. -/
theorem twinSettle_claimed {u : State} (hr : role u = 3) (hno : thas u.tenants 0 = false) :
    Claimed (twinSettle (modTwin u (fun w => { w with claimNext := true, takeback := true }))) u.twin.epoch := by
  have heq : twinSettle (modTwin u (fun w => { w with claimNext := true, takeback := true }))
      = twinBoundary (modTwin u (fun w => { w with claimNext := true, takeback := true })) := if_neg (by simp [modTwin, hno])
  rw [heq]
  exact twinBoundary_claimed (s := modTwin u (fun w => { w with claimNext := true, takeback := true })) rfl ((role_modTwin ..).trans hr)

section
variable (hoff : s.twin.holdoff ≠ 0) (h1 : s.twin.down1 = false) (h2 : s.twin.down2 = false)
include hoff h1 h2

theorem takeback_primary (hat : s.twin.standbyAt ≠ none) (hid : twinId s = 1) (hr : role s = 3) (hno : thas s.tenants 0 = false) :
    Claimed (twinSettle (takeback s)) s.twin.epoch := by
  obtain ⟨a, ha⟩ := Option.ne_none_iff_exists'.mp hat
  have heq : takeback s = modTwin (advanceTo (a + secCycles s.twin.holdoff) s) (fun w => { w with claimNext := true, takeback := true }) := by
    unfold takeback
    dsimp only
    rw [if_pos (by simp [hoff, h1, h2, hid, hr]), ha]
  have h := twinSettle_claimed ((advanceTo_role s (a + secCycles s.twin.holdoff)).trans hr) ((advanceTo_thas s (a + secCycles s.twin.holdoff) 0).trans hno)
  rw [advanceTo_twin] at h
  rw [heq]
  exact h

theorem takeback_secondary (hid : twinId s = 2) (hr : role s = 2) (hpeer : s.twin.peerState = 3) (hno : thas s.tenants 0 = false) :
    role (twinSettle (takeback s)) = 3 ∧ tripGet (twinSettle (takeback s)) .own = 0 := by
  have heq : takeback s = modTwin s (fun w => { w with planned := true, takeback := true }) := by
    unfold takeback
    dsimp only
    rw [if_neg (by simp [hid]), if_pos (by simp [hoff, h1, h2, hid, hr, hpeer])]
  unfold twinSettle
  rw [if_neg (by rw [heq]; simpa [modTwin] using hno)]
  exact twinBoundary_handover (by rw [heq]; rfl) (by rw [heq]; exact hr)

end

theorem takeback_idle (hhas : thas s.tenants 0 = true) (hno : s.twin.holdoff = 0 ∨ s.twin.down1 = true ∨ s.twin.down2 = true) :
    twinSettle (takeback s) = s := by
  have hclear : (s.twin.holdoff != 0 && !s.twin.down1 && !s.twin.down2) = false := by
    rcases hno with h | h | h <;> simp [h]
  have heq : takeback s = s := by
    unfold takeback
    dsimp only
    rw [hclear]
    rfl
  rw [heq]
  exact if_pos hhas

end

/-- The device is fenced. -/
theorem fenced_settled {u : State} (s : State) (h : role u = 5 ∧ tripGet u .own = 0) : role (settled s u) = 5 ∧ tripGet (settled s u) .own = 0 := by
  simpa using h

/-- Settles O51, row by row: what a claim, a change of role and the count of a path leave (the choices of log entries 35 and 36). -/
theorem twinRolesAndClaims : Obligations.TwinRolesAndClaims := by
  unfold Obligations.TwinRolesAndClaims
  intro s
  dsimp only
  refine ⟨fun hb hr => ?_, fun hb hr => ?_, fun hb => ?_,
    fun p h => ⟨fun hno => ?_, fun hp => ⟨fun hr => ?_, fun hr => ?_, fun hr hst => ?_, fun hr => ?_⟩⟩,
    fun p => ⟨fun hp hr hup => ?_, fun hno => ?_⟩, fun hr hl => ?_, fun hno => ?_, fun hr hl => ?_, fun hno => ?_, ?_, rfl,
    fun hr hid hst hheard => ?_, fun hno => ?_, fun k slot => ⟨fun hr hfree hn => ?_, fun hno => ?_⟩,
    fun hoff h1 h2 hat hid hr hno => ?_, fun hoff h1 h2 hid hr hpeer hno => ?_, fun hhas hno => ?_⟩
  · rw [exec_heartbeatSend, heartbeatSend_beats (by exact hb), if_pos (by exact hr)]
    rfl
  · rw [exec_heartbeatSend, heartbeatSend_beats (by exact hb), if_neg (by exact hr)]
    rfl
  · rw [exec_heartbeatSend, heartbeatSend_silent (by exact hb)]
  · rw [exec_heartbeatRx, heartbeatRx_idle (by exact hno)]
  · obtain ⟨hclaim, hsecond, hwait⟩ := heartbeatRx_forming (s := begun s) (h := h) hp hr
    refine ⟨_, exec_heartbeatRx p h s, fun hb hid => ?_, fun hb hid => ?_, fun hb => ?_⟩
    · exact (hclaim hb hid).settled s
    · rw [role_settled]
      exact hsecond hb hid
    · rw [role_settled]
      exact hwait hb
  · obtain ⟨hother, holder, hstays⟩ := heartbeatRx_active (s := begun s) (h := h) hp hr
    refine ⟨_, exec_heartbeatRx p h s, fun hst => ?_, fun hst hd => ?_, fun hst hd => ?_⟩
    · rw [role_settled]
      exact hother hst
    · exact fenced_settled s (holder hst hd)
    · rw [role_settled]
      exact hstays hst hd
  · obtain ⟨hyields, hkeeps⟩ := heartbeatRx_standby (s := begun s) (h := h) hp hr hst
    refine ⟨_, exec_heartbeatRx p h s, fun hy => (hyields hy).settled s, fun hy => ?_⟩
    rw [role_settled, settled_twin]
    exact hkeeps hy
  · obtain ⟨hrole, hresync⟩ := heartbeatRx_fenced (s := begun s) (h := h) hp hr
    refine ⟨_, exec_heartbeatRx p h s, ?_⟩
    rw [role_settled, settled_twin]
    exact ⟨hrole, hresync⟩
  · obtain ⟨hrole, hdown⟩ := pathDown_after (s := begun s) hp hr
    simp only [Prod.mk.injEq] at hdown
    obtain ⟨hd1, hd2, -⟩ := hdown
    refine ⟨_, exec_hbPathMiss p s, ?_⟩
    rw [if_pos hp, role_settled, settled_twin]
    refine ⟨?_, ?_, hrole⟩
    · rw [hd1, hd2]
      rcases hp with rfl | rfl <;> simp
    · rw [pathDown_missed (by exact hr) (by exact hup)]
      exact pathMissed_alarm p (begun s)
  · rw [exec_hbPathMiss]
    split
    · next hp => rw [pathDown_idle (by exact hno.resolve_left (by omega))]
    · rfl
  · exact ⟨_, exec_leaseExpiry s, fenced_settled s (leaseExpiry_fenced (s := begun s) hr hl)⟩
  · rw [exec_leaseExpiry, leaseExpiry_idle (by exact hno)]
  · obtain ⟨hclaim, hd1, hd2⟩ := standbyClaim_claimed (s := begun s) hr hl
    refine ⟨_, exec_standbyClaim s, hclaim.settled s, ?_⟩
    rw [settled_twin]
    exact ⟨hd1, hd2⟩
  · rw [exec_standbyClaim, standbyClaim_idle (by exact hno)]
  · obtain ⟨hoe, hholds, hother⟩ := peerOeLow_spec (begun s)
    refine ⟨_, exec_twinPeerOeLow s, ?_, fun hr hseen => fenced_settled s (hholds hr hseen), fun hno => ?_⟩
    · rw [settled_twin]
      exact hoe
    · rw [role_settled]
      exact hother hno
  · exact ⟨_, exec_soloWaitExpiry s, (soloWait_claimed (s := begun s) hr hid hst hheard).settled s⟩
  · rw [exec_soloWaitExpiry, soloWait_idle (by exact hno)]
  · exact ⟨_, exec_lineWatchClaim k slot s, (lineWatchAt_claimed (s := begun s) slot hr hfree hn).settled s⟩
  · rw [exec_lineWatchClaim, lineWatchAt_idle slot (lineWatch_idle (by exact hno))]
  · exact ⟨_, exec_holdoffTakeback s, (takeback_primary (s := begun s) hoff h1 h2 hat hid hr hno).settled s⟩
  · refine ⟨_, exec_holdoffTakeback s, ?_⟩
    rw [role_settled, tripGet_settled]
    exact takeback_secondary (s := begun s) hoff h1 h2 hid hr hpeer hno
  · rw [exec_holdoffTakeback, takeback_idle (by exact hhas) (by exact hno)]

end Sys2Proof.Machine
end

section
/-! The values of a pair, its comparisons and mirrored commands, and the mirrors of a tenant (16 R323 to R329, 20 R385). -/
namespace Sys2Proof.Machine

/-! ### What delivering events leaves of the functions -/

/-- A function without what events change of it. -/
def Fn.offEvents (f : Fn) : Fn := { f with evqLost := false, lostCnt := 0, vecs := [], held := [] }

/-- Every function without what events change of it. -/
def State.fnsKept (s : State) : Nat → Fn := fun n => (tgetD s.fns n {}).offEvents

theorem modFn_fnsKept (s : State) (k : Nat) {g : Fn → Fn} (hg : ∀ f, (g f).offEvents = f.offEvents) : (modFn s k g).fnsKept = s.fnsKept := by
  refine funext fun n => ?_
  by_cases hn : n = k
  · subst hn
    exact (congrArg Fn.offEvents (tgetD_tset_self ..)).trans (hg _)
  · exact congrArg Fn.offEvents (tgetD_tset_ne _ _ _ hn)

theorem msix_fnsKept (s : State) (f v : Nat) : (msix s f v).fnsKept = s.fnsKept := by
  unfold msix
  dsimp only
  split
  · split
    · exact modFn_fnsKept s f (fun _ => rfl)
    · rfl
  · rfl

theorem checkIrq_fnsKept (s : State) (k : Nat) : (checkIrq s k).fnsKept = s.fnsKept := by
  unfold checkIrq
  split
  · rfl
  · split
    · rfl
    · dsimp only
      split
      · split
        · rfl
        · exact (msix_fnsKept ..).trans rfl
      · rfl

theorem putRecord_fnsKept (s : State) (k : Nat) (q : Queue) (c : QCtx) (e : Ev) : (putRecord s k q c e).fnsKept = s.fnsKept :=
  (checkIrq_fnsKept ..).trans rfl

theorem drain_fnsKept (f n : Nat) : ∀ s : State, (drain f n s).fnsKept = s.fnsKept := by
  induction n with
  | zero => exact fun s => rfl
  | succ n ih =>
    intro s
    unfold drain
    split
    · rfl
    · split
      · rfl
      · split
        · rw [ih, putRecord_fnsKept]
          exact modFn_fnsKept s f (fun _ => rfl)
        · split
          · rfl
          · exact putRecord_fnsKept ..

theorem loseEvent_fnsKept (s : State) (f : Nat) : (loseEvent s f).fnsKept = s.fnsKept := by
  have hlost := modFn_fnsKept s f (g := fun fn => { fn with lostCnt := inc48 fn.lostCnt 1 }) (fun _ => rfl)
  unfold loseEvent setInt
  split
  · exact hlost
  · refine (msix_fnsKept ..).trans ((modFn_fnsKept _ f ?_).trans hlost)
    exact fun _ => rfl

theorem deliver_fnsKept (s : State) (o : EvOut) : (deliver s o).fnsKept = s.fnsKept := by
  have hdrain := drain_fnsKept o.fn ((tgetD s.fns o.fn {}).held.length + 1) s
  unfold deliver
  dsimp only
  split
  · split
    · rw [putRecord_fnsKept, hdrain]
    · split
      · refine (modFn_fnsKept _ _ ?_).trans hdrain
        exact fun _ => rfl
      · exact (loseEvent_fnsKept ..).trans hdrain
  · split
    · refine (modFn_fnsKept _ _ ?_).trans hdrain
      exact fun _ => rfl
    · rw [loseEvent_fnsKept, hdrain]

theorem flushN_fnsKept (n : Nat) : ∀ s : State, (flushN n s).fnsKept = s.fnsKept := by
  induction n with
  | zero => exact fun s => rfl
  | succ n ih =>
    intro s
    unfold flushN
    split
    · rfl
    · rw [ih]
      exact foldl_keeps State.fnsKept deliver_fnsKept _ _

theorem settled_fnsKept (s u : State) : (settled s u).fnsKept = u.fnsKept := by
  have hfns : (settled s u).fns = (flush u).fns := by simp [settled]
  unfold State.fnsKept
  rw [hfns]
  exact flushN_fnsKept 2 u

/-- What a step leaves of a function, but for events. -/
theorem fn_settled (s u : State) (n : Nat) : (tgetD (settled s u).fns n {}).offEvents = (tgetD u.fns n {}).offEvents :=
  congrFun (settled_fnsKept s u) n

/-! ### Values of a frame (16 R324) -/

section
variable {s : State}

@[simp] theorem role_modTenant (t : Nat) (f : Tenant → Tenant) : role (modTenant s t f) = role s := rfl

theorem valuesRx_idle {v : TwinVals} (h : follows s = false ∨ thas s.tenants v.tenant = false) : valuesRx v s = s := if_pos (by simpa using h)

/-- Wiping a port's conversion changes the port alone. -/
theorem wipePorts_kept (ps : List (Nat × Bool)) (t : Nat) (s : State) :
    (ps.foldl (fun s e => if (lp s e.1).owner = t then wipePort e s else s) s).offLps = s.offLps :=
  foldl_keeps State.offLps (fun u e => by
    split
    · rfl
    · rfl) ps s

/-- Values of a frame that come in time are kept for its boundary, those sent ahead of it apart. -/
theorem valuesRx_inTime {v : TwinVals} (hf : follows s = true) (hhas : thas s.tenants v.tenant = true) (ht : v.onTime = true) :
    (tget (valuesRx v s).tenants v.tenant).map (fun x => if v.ahead then x.ratios else x.vals) = some (some v) ∧ role (valuesRx v s) = role s
      ∧ ∀ k, k ≠ v.tenant → tget (valuesRx v s).tenants k = tget s.tenants k := by
  obtain ⟨x, hx⟩ := Option.isSome_iff_exists.mp hhas
  unfold valuesRx
  rw [if_neg (by simp [hf, hhas]), if_neg (by simp [ht])]
  cases ha : v.ahead with
  | true =>
    rw [if_pos rfl]
    have hkeep := wipePorts_kept v.ports v.tenant s
    generalize v.ports.foldl (fun s e => if (lp s e.1).owner = v.tenant then wipePort e s else s) s = u at hkeep ⊢
    have htenants : u.tenants = s.tenants := (congrArg State.tenants hkeep :)
    have hvotes : u.votes = s.votes := (congrArg State.votes hkeep :)
    refine ⟨?_, tripGet_congr hvotes .role, fun k hk => ?_⟩
    · simp [modTenant, htenants, tget_tmod_self, hx]
    · simp [modTenant, htenants, tget_tmod_ne _ _ hk]
  | false =>
    rw [if_neg (by simp)]
    refine ⟨?_, rfl, fun k hk => ?_⟩
    · simp [modTenant, tget_tmod_self, hx]
    · simp [modTenant, tget_tmod_ne _ _ hk]

/-- A change of role leaves the counts and the alarms of the pair. -/
theorem setRole_counts (s : State) (r : Nat) : ((setRole s r).twin.valMiss, (setRole s r).twin.scMiss, (setRole s r).twin.divFrames, (setRole s r).twin.alarm,
    (setRole s r).tenants) = (s.twin.valMiss, s.twin.scMiss, s.twin.divFrames, s.twin.alarm, s.tenants) := by
  unfold setRole
  dsimp only
  split
  · rfl
  · split <;> rfl

theorem unfit_spec (s : State) : (role s = 3 ∨ role s = 4 → role (unfit s) = 4)
    ∧ ((unfit s).twin.valMiss, (unfit s).twin.scMiss, (unfit s).twin.divFrames, (unfit s).twin.alarm, (unfit s).tenants)
      = (s.twin.valMiss, s.twin.scMiss, s.twin.divFrames, s.twin.alarm, s.tenants) := by
  unfold unfit
  split
  · exact ⟨fun _ => role_setRole s 4, setRole_counts s 4⟩
  · next hr => exact ⟨fun h => h.resolve_left hr, rfl⟩

theorem valuesRx_late {v : TwinVals} (hf : follows s = true) (hhas : thas s.tenants v.tenant = true) (ht : v.onTime = false) :
    role (valuesRx v s) = 4 ∧ (valuesRx v s).twin.valMiss = inc48 s.twin.valMiss 1 ∧ bit (valuesRx v s).twin.alarm 4 = true
      ∧ (valuesRx v s).tenants = s.tenants := by
  have heq : valuesRx v s = valuesMissed s := (if_neg (by simp [hf, hhas])).trans (if_pos (by simp [ht]))
  obtain ⟨hrole, hcounts⟩ := unfit_spec (modTwin s (fun w => { w with valMiss := inc48 w.valMiss 1, alarm := setBit w.alarm 4 true }))
  simp only [Prod.mk.injEq] at hcounts
  obtain ⟨hmiss, -, -, halarm, htenants⟩ := hcounts
  rw [heq, valuesMissed, hmiss, halarm, htenants]
  exact ⟨hrole (by simpa [follows] using hf), rfl, (bit_setBit s.twin.alarm 4 true 4).trans (if_pos rfl), rfl⟩

/-! ### Comparisons of a frame (16 R325) -/

/-- The comparison has taken the frame's own values off those at hand. -/
def shadowTaken (n m : Nat) (s : State) : State := modTwin s (fun w => { w with crcs := w.crcs.filter (fun e => !(e.1 == n && e.2.1 == m)) })

/-- A comparison that could not be made counts. -/
def shadowMissed (n m : Nat) (s : State) : State := modTwin (shadowTaken n m s) (fun w => { w with scMiss := inc48 w.scMiss 1 })

section
variable {n m : Nat} {crcs : List (Nat × Nat)} {late : Bool}

theorem shadowRx_alone (hr : role s = 0) : shadowRx n m crcs late s = s := if_pos hr

section
variable (hr : role s ≠ 0)
include hr

theorem shadowRx_absent (hfind : s.twin.crcs.find? (fun e => e.1 == n && e.2.1 == m) = none) : shadowRx n m crcs late s = shadowMissed n m s := by
  unfold shadowRx
  rw [if_neg hr, hfind]
  rfl

section
variable {a b : Nat} {mine : List (Nat × Nat)} (hfind : s.twin.crcs.find? (fun e => e.1 == n && e.2.1 == m) = some (a, b, mine))
include hfind

theorem shadowRx_late (hl : late = true) : shadowRx n m crcs late s = shadowMissed n m s := by
  unfold shadowRx
  rw [if_neg hr, hfind]
  exact if_pos hl

theorem shadowRx_same (hl : late = false) (hsame : firstDiff mine crcs = none) : shadowRx n m crcs late s = shadowTaken n m s := by
  unfold shadowRx
  rw [if_neg hr, hfind]
  dsimp only
  rw [if_neg (by simp [hl]), hsame]
  rfl

theorem shadowRx_differs (hl : late = false) {o : Nat} (hdiff : firstDiff mine crcs = some o) : shadowRx n m crcs late s = diverge (shadowTaken n m s) o := by
  unfold shadowRx
  rw [if_neg hr, hfind]
  dsimp only
  rw [if_neg (by simp [hl]), hdiff]
  rfl

end
end
end

/-- A divergent frame counts, and the third makes a standby UNFIT. -/
theorem diverge_spec (s : State) (o : Nat) : (diverge s o).twin.divFrames = inc48 s.twin.divFrames 1 ∧ bit (diverge s o).twin.alarm 2 = true
    ∧ (role s ≠ 3 ∨ s.twin.diverged < 2 → role (diverge s o) = role s) ∧ (role s = 3 → 2 ≤ s.twin.diverged → role (diverge s o) = 4) := by
  unfold diverge
  extract_lets u w
  have hmarked : bit u.twin.alarm 2 = true := (bit_setBit s.twin.alarm 2 true 2).trans (if_pos rfl)
  have hcount : u.twin.divFrames = inc48 s.twin.divFrames 1 := rfl
  have hrole : role u = role s := rfl
  have hdiv : w.twin.diverged = s.twin.diverged + 1 := rfl
  obtain ⟨hunfit, hcounts⟩ := unfit_spec w
  simp only [Prod.mk.injEq] at hcounts
  obtain ⟨-, -, hdf, hal, -⟩ := hcounts
  by_cases h3 : role s = 3
  · rw [if_pos (by exact h3)]
    by_cases hn : 2 ≤ s.twin.diverged
    · rw [if_pos (by omega)]
      exact ⟨hdf, by rw [hal]; exact hmarked, fun h => by omega, fun _ _ => hunfit (.inl h3)⟩
    · rw [if_neg (by omega)]
      exact ⟨rfl, hmarked, fun _ => rfl, fun _ h => absurd h hn⟩
  · rw [if_neg (by exact h3)]
    exact ⟨rfl, hmarked, fun _ => rfl, fun h => absurd h h3⟩

/-! ### Rejoining (16 R329) -/

theorem resyncDone_idle (h : role s ≠ 5 ∨ s.twin.resync = false) : resyncDone s = s := by
  refine if_neg ?_
  rintro ⟨hr, hs⟩
  rcases h with h | h
  · exact h hr
  · rw [h] at hs; cases hs

theorem resyncDone_joins (hr : role s = 5) (hs : s.twin.resync = true) :
    role (resyncDone s) = 3 ∧ (resyncDone s).twin.epoch = s.twin.peerEpoch ∧ (resyncDone s).twin.standbyAt = some s.mere := by
  have heq : resyncDone s = evD (setRole (modTwin s (fun w => { w with epoch := w.peerEpoch })) 3) 0xB05 0 0
      s.twin.peerEpoch := by
    unfold resyncDone
    rw [if_pos ⟨hr, hs⟩]
    rfl
  have hkeep := setRole_twin (modTwin s (fun w => { w with epoch := w.peerEpoch })) 3
  simp only [Prod.mk.injEq] at hkeep
  obtain ⟨hepoch, -⟩ := hkeep
  rw [heq]
  refine ⟨role_setRole _ 3, hepoch, ?_⟩
  unfold setRole
  dsimp only
  rw [if_neg (by rw [role_modTwin, hr]; decide)]
  rfl

/-! ### The mirrors of a tenant (20 R385) -/

theorem mirrorUpdate_idle {n : Nat} (h : 512 ≤ n ∨ s.ctl.paused = true ∨ s.ctl.failover = true ∨ s.ctl.mgmtDown = true ∨ s.ctl.stage ≠ 4) :
    mirrorUpdate n s = s := by
  refine if_pos ?_
  rcases h with h | h | h | h | h <;> simp [h]

theorem mirrorUpdate_fn {n : Nat} (hn : n < 512) (hp : s.ctl.paused = false) (hf : s.ctl.failover = false) (hd : s.ctl.mgmtDown = false) (hst : s.ctl.stage = 4) :
    (tgetD (mirrorUpdate n s).fns (n + 1) {}).seq = ((tgetD s.fns (n + 1) {}).seq + 2) % 2 ^ 32 ∧ (tgetD (mirrorUpdate n s).fns (n + 1) {}).mirrorAt = some s.mere
      ∧ (tgetD (mirrorUpdate n s).fns (n + 1) {}).tmQuota = (range 1 7).map (useOf (tenant s n).quota)
      ∧ (tgetD (mirrorUpdate n s).fns (n + 1) {}).tmUse = (range 1 7).map (useOf (tenant s n).use) := by
  unfold mirrorUpdate
  rw [if_neg (by simp [hp, hf, hd, hst]; omega)]
  simp only [modFn, tgetD_tset_self, and_self]

end

/-! ### The rows -/

section
variable {s : State} (hrun : s.clk.running = true)
include hrun

theorem exec_twinValuesRx (v : TwinVals) : exec (.twinValuesRx v) s = .next (settled s (valuesRx v (begun s))) := runMere_of_running hrun _
theorem exec_shadowCompareRx (n m : Nat) (crcs : List (Nat × Nat)) (late : Bool) :
    exec (.shadowCompareRx n m crcs late) s = .next (settled s (shadowRx n m crcs late (begun s))) := runMere_of_running hrun _

end

theorem exec_twinResyncDone (s : State) : exec .twinResyncDone s = .next (settled s (resyncDone (begun s))) := rfl
theorem exec_configMirrorRx (r : Req) (c : Nat) (s : State) : exec (.configMirrorRx r c) s = .next (settled s (configMirror r c (begun s))) := rfl
theorem exec_mirrorWrite {s : State} (hst : s.clk.started = true) (n : Nat) : exec (.mirrorWrite n) s = .next (settled s (mirrorUpdate n (begun s))) :=
  runBase_of_started hst _

/-- Settles O52: values, comparisons, rejoining, mirrored commands and mirrors, case by case (the choices of log entries 45, 62 and 95). -/
theorem twinsCompareAndFollow : Obligations.TwinsCompareAndFollow := by
  unfold Obligations.TwinsCompareAndFollow
  intro s hrun
  dsimp only
  refine ⟨fun v => ⟨fun h => ?_, fun hf hhas => ⟨fun ht => ?_, fun ht => ?_⟩⟩, fun hr n m crcs late => ?_, fun hr n m crcs late => ?_, fun hr hs => ?_, fun h => ?_,
    fun r c => ⟨fun hf => ?_, fun k hf hk => ?_⟩, fun n hn hst hp hfail hd hstage => ?_, fun n h => ?_⟩
  · rw [exec_twinValuesRx hrun, valuesRx_idle (by exact h)]
  · obtain ⟨hself, hrole, hne⟩ := valuesRx_inTime (s := begun s) hf hhas ht
    refine ⟨_, exec_twinValuesRx hrun v, ?_⟩
    rw [settled_tenants, role_settled]
    exact ⟨hself, hrole, hne⟩
  · refine ⟨_, exec_twinValuesRx hrun v, ?_⟩
    rw [settled_tenants, settled_twin, role_settled]
    exact valuesRx_late (s := begun s) hf hhas ht
  · have hmissed : ∃ t, (.next (settled s (shadowMissed n m (begun s))) : Host.Outcome State Fault Refusal) = .next t ∧ t.twin.scMiss = inc48 s.twin.scMiss 1
        ∧ t.twin.divFrames = s.twin.divFrames ∧ role t = role s := by
      refine ⟨_, rfl, ?_⟩
      rw [settled_twin, role_settled]
      exact ⟨rfl, rfl, rfl⟩
    rw [exec_shadowCompareRx hrun]
    split
    · next hfind => rwa [shadowRx_absent (by exact hr) (by exact hfind)]
    · next a b mine hfind =>
      refine ⟨fun hl => ?_, fun hl hsame => ?_, fun hl hdiff => ?_⟩
      · rwa [shadowRx_late (by exact hr) (by exact hfind) hl]
      · refine ⟨_, rfl, ?_⟩
        rw [shadowRx_same (by exact hr) (by exact hfind) hl hsame, settled_twin, role_settled]
        exact ⟨rfl, rfl, rfl⟩
      · obtain ⟨o, ho⟩ := Option.ne_none_iff_exists'.mp hdiff
        refine ⟨_, rfl, ?_⟩
        rw [shadowRx_differs (by exact hr) (by exact hfind) hl ho, settled_twin, role_settled]
        exact diverge_spec (shadowTaken n m (begun s)) o
  · rw [exec_shadowCompareRx hrun, shadowRx_alone (by exact hr)]
  · refine ⟨_, exec_twinResyncDone s, ?_⟩
    rw [settled_twin, role_settled]
    exact resyncDone_joins (s := begun s) hr hs
  · rw [exec_twinResyncDone, resyncDone_idle (by exact h)]
  · rw [exec_configMirrorRx]
    exact congrArg (fun u => Host.Outcome.next (settled s u)) (if_neg (by rw [show follows (begun s) = false from hf]; decide))
  · rw [exec_configMirrorRx]
    refine congrArg (fun u => Host.Outcome.next (settled s u)) ((if_pos (by exact hf)).trans ?_)
    unfold applyQuiet
    rw [hk]
    rfl
  · have hfn := mirrorUpdate_fn (s := begun s) hn hp hfail hd hstage
    have hkept := fn_settled s (mirrorUpdate n (begun s)) (n + 1)
    refine ⟨_, exec_mirrorWrite hst n, ?_⟩
    obtain ⟨hseq, hat, hquota, huse⟩ := hfn
    exact ⟨(congrArg Fn.seq hkept).trans hseq, (congrArg Fn.mirrorAt hkept).trans hat, (congrArg Fn.tmQuota hkept).trans hquota,
      (congrArg Fn.tmUse hkept).trans huse⟩
  · change runBase s (mirrorUpdate n) = _
    exact runBase_of_idle (mirrorUpdate_idle (by exact h))

end Sys2Proof.Machine
end

section
/-! Causeway (17 R332 to R342): the lanes, the devices behind them, and the requests on VC 0 and VC 1. -/
namespace Sys2Proof.Machine

variable {s : State}

/-! ### What asking Weir, waking and completing leave of the cascade -/

@[simp] theorem askWeir_cway (s : State) (c n : Nat) (w : WeirWhat) : (askWeir s c n w).cway = s.cway :=
  (congrArg State.cway (askWeir_offPwr s c n w) :)

@[simp] theorem wake_cway (s : State) : (wake s).cway = s.cway := (congrArg State.cway (wake_offPwr s) :)

@[simp] theorem finish_cway (s : State) (p : PendCmd) (status aux : Nat) : (finish s p status aux).cway = s.cway :=
  (congrArg State.cway (finish_tables s p status aux) :)

@[simp] theorem finish_foldl_cway (l : List PendCmd) (st aux : Nat) (s : State) :
    (l.foldl (fun s p => finish s p st aux) s).cway = s.cway :=
  foldl_keeps State.cway (fun s p => finish_cway s p st aux) l s

@[simp] theorem enumCheck_cway (s : State) : (enumCheck s).cway = s.cway := by
  unfold enumCheck
  split
  · rfl
  · exact finish_foldl_cway _ _ _ _

/-! ### Virtual channels 0 and 1 (17 R332, R333) -/

/-- The cascade without the forwarded requests. -/
def Cway.offFwds (w : Cway) : Cway := { w with fwds := [] }

theorem sendFwds_offFwds : ∀ (todo sent : List Fwd) (left : List Nat) (s : State),
    (sendFwds sent todo left s).cway.offFwds = s.cway.offFwds := by
  intro todo
  induction todo with
  | nil => exact fun _ _ _ => rfl
  | cons f fs ih =>
    intro sent left s
    unfold sendFwds
    split
    · split
      · exact ih ..
      · exact ih ..
    · exact ih ..

theorem vcSend_offFwds (s : State) : (vcSend s).cway.offFwds = s.cway.offFwds := sendFwds_offFwds _ _ _ _

/-- Neither VC 0 nor VC 1 has granted more than its 64 credits on lane `l`. -/
def Cway.withinCredits (w : Cway) (l : Nat) : Prop := vc0Used w l ≤ 64 ∧ vc1Held w l ≤ 64

/-- A request that leaves on lane `m` takes its cost of VC 0 and one space of VC 1 there. -/
theorem vc_of_sent {w : Cway} {sent fs : List Fwd} {f : Fwd} (hw : w.fwds = sent ++ f :: fs) (hf : f.lane = none) (m l : Nat) :
    vc0Used { w with fwds := sent ++ { f with lane := some m } :: fs } l = vc0Used w l + (if m = l then vcCost f.bytes else 0)
      ∧ vc1Held { w with fwds := sent ++ { f with lane := some m } :: fs } l = vc1Held w l + (if m = l then 1 else 0) := by
  by_cases h : m = l
  · simp [vc0Used, vc1Held, hw, hf, h, List.filter_append]
    omega
  · simp [vc0Used, vc1Held, hw, hf, h, List.filter_append]

theorem withinCredits_sent {w : Cway} {sent fs : List Fwd} {f : Fwd} {m l : Nat} (hw : w.fwds = sent ++ f :: fs) (hf : f.lane = none)
    (hroom : vcRoom w m f.bytes = true) (h : w.withinCredits l) :
    Cway.withinCredits { w with fwds := sent ++ { f with lane := some m } :: fs } l := by
  obtain ⟨h0, h1⟩ := vc_of_sent hw hf m l
  obtain ⟨hu, hh⟩ := h
  simp only [vcRoom, Bool.and_eq_true, decide_eq_true_eq] at hroom
  unfold Cway.withinCredits
  rw [h0, h1]
  by_cases e : m = l
  · subst e; simp only [if_true]; omega
  · simp only [if_neg e]; omega

theorem sendFwds_withinCredits (l : Nat) : ∀ (todo sent : List Fwd) (left : List Nat) (s : State), s.cway.fwds = sent ++ todo →
    s.cway.withinCredits l → (sendFwds sent todo left s).cway.withinCredits l := by
  intro todo
  induction todo with
  | nil => exact fun _ _ _ _ h => h
  | cons f fs ih =>
    intro sent left s hs hl
    have hs' : s.cway.fwds = (sent ++ [f]) ++ fs := by simp [hs]
    unfold sendFwds
    split
    next d hlane _ =>
      split
      · exact ih _ _ _ hs' hl
      next hroom =>
        simp only [not_or, Bool.not_eq_true', Bool.not_eq_true, Bool.not_eq_false] at hroom
        refine ih _ _ _ ?_ (withinCredits_sent hs hlane hroom.2 hl)
        simp [modCway]
    · exact ih _ _ _ hs' hl

theorem vcSend_withinCredits {l : Nat} (h : s.cway.withinCredits l) : (vcSend s).cway.withinCredits l :=
  sendFwds_withinCredits l _ _ _ _ rfl h

/-! ### Devices that are lost (17 R338) -/

theorem tdel_of_not_thas {α : Type} {t : Tbl α} {k : Nat} (h : thas t k = false) : tdel t k = t := by
  induction t with
  | nil => rfl
  | cons e t ih =>
    obtain ⟨i, v⟩ := e
    by_cases hi : i = k
    · simp [thas, tget, hi] at h
    · simp only [thas, tget, if_neg hi] at h
      simp only [tdel, if_neg hi, ih h]

theorem thas_foldl_tdel {α : Type} (k : Nat) : ∀ (l : List Nat) (t : Tbl α), Rising t →
    thas (l.foldl tdel t) k = (thas t k && !l.contains k) := by
  intro l
  induction l with
  | nil => simp
  | cons d l ih =>
    intro t ht
    rw [List.foldl_cons, ih _ (rising_tdel d ht)]
    by_cases h : k = d
    · subst h; simp [thas, tget_tdel_self k ht]
    · simp [thas, tget_tdel_ne t h, h]

theorem thas_tmap {α : Type} (t : Tbl α) (f : Nat → α → α) (k : Nat) : thas (tmap t f) k = thas t k := by
  simp [thas, tget_tmap]

theorem loseDevice_devs (s : State) (d : Nat) : (loseDevice s d).cway.devs = tdel s.cway.devs d := by
  unfold loseDevice
  cases h : thas s.cway.devs d with
  | false => exact (tdel_of_not_thas h).symm
  | true =>
    refine (congrArg Cway.devs (vcSend_offFwds _) :).trans ?_
    exact (congrArg Cway.devs (finish_foldl_cway _ _ _ _) :)

theorem loseDevice_link (s : State) (d : Nat) : (loseDevice s d).cway.link = s.cway.link := (congrArg Prod.fst (loseDevice_lanes s d) :)

theorem loseDevices_devs : ∀ (l : List Nat) (s : State), (l.foldl loseDevice s).cway.devs = l.foldl tdel s.cway.devs := by
  intro l
  induction l with
  | nil => exact fun _ => rfl
  | cons d l ih => exact fun s => (ih _).trans (by rw [loseDevice_devs]; rfl)

theorem loseDevices_link (l : List Nat) (s : State) : (l.foldl loseDevice s).cway.link = s.cway.link :=
  foldl_keeps (fun s : State => s.cway.link) loseDevice_link l s

theorem reroute_link (s : State) (lane : Nat) : (reroute s lane).cway.link = s.cway.link := by
  unfold reroute
  split
  · rfl
  · split
    · rfl
    · exact (congrArg Cway.link (vcSend_offFwds _) :)

theorem reroute_devs (s : State) (lane k : Nat) : thas (reroute s lane).cway.devs k = thas s.cway.devs k := by
  unfold reroute
  split
  · rfl
  · split
    · rfl
    next other _ =>
      refine (congrArg (fun w : Cway => thas w.devs k) (vcSend_offFwds _) :).trans ?_
      simp only [Cway.offFwds, modCway, thas_tmap]

/-! ### Lanes that come up and go down (17 R332, R338) -/

theorem cwLinkUp_idle {lane : Nat} (h : 4 ≤ lane ∨ s.clk.started = false ∨ s.dev.safe = true ∨ bit s.clk.sds 2 = false) : cwLinkUp lane s = s :=
  if_pos (by simpa using h)

theorem cwLinkUp_up {lane : Nat} (hlane : lane < 4) (hstart : s.clk.started = true) (hsafe : s.dev.safe = false) (hpll : bit s.clk.sds 2 = true) :
    cwLinkUp lane s = modCway (if 3 ≤ s.pwr.state then wake s else s) (fun w => { w with
      link := setBit w.link lane true, twinLink := setBit w.twinLink lane (role s != 0 && lane == s.twin.hbLane) }) :=
  if_neg (by simp [hlane, hstart, hsafe, hpll])

theorem cwLaneDown_idle {lane : Nat} (h : 4 ≤ lane ∨ bit s.cway.link lane = false) (lost : List Nat) (mgr : Bool) : cwLaneDown lane lost mgr s = s :=
  if_pos (by simpa using h)

/-- The state in which a lane has gone down and its devices are still known. -/
def laneCut (lane : Nat) (s : State) : State :=
  cwAdapt (modCway s (fun w => { w with link := setBit w.link lane false, twinLink := setBit w.twinLink lane false }))

theorem laneCut_cway (lane : Nat) (s : State) :
    (laneCut lane s).cway = { s.cway with link := setBit s.cway.link lane false, twinLink := setBit s.cway.twinLink lane false } :=
  askWeir_cway _ _ _ _

/-- A worker whose manager no route reaches any more notes it once. -/
def noteMgrLost (mgr : Bool) (s : State) : State :=
  if mgr && s.cway.numbered && !s.cway.manager && !s.cway.lostMgr then evD (modCway s (fun w => { w with lostMgr := true })) 0xC03 0 0 0 else s

theorem cwLaneDown_up {lane : Nat} (hlane : lane < 4) (hup : bit s.cway.link lane = true) (lost : List Nat) (mgr : Bool) :
    cwLaneDown lane lost mgr s
      = noteMgrLost mgr (if (laneCut lane s).cway.manager then reroute (lost.foldl loseDevice (laneCut lane s)) lane else laneCut lane s) :=
  if_neg (by simp [hlane, hup])

theorem noteMgrLost_worker (mgr : Bool) (hman : s.cway.manager = false) (hnum : s.cway.numbered = true) :
    (noteMgrLost mgr s).cway = { s.cway with lostMgr := s.cway.lostMgr || mgr } := by
  unfold noteMgrLost
  split
  next h =>
    simp only [Bool.and_eq_true] at h
    simp [modCway, evD, h]
  next h =>
    have hl : (s.cway.lostMgr || mgr) = s.cway.lostMgr := by
      cases hl : s.cway.lostMgr <;> simp_all
    rw [hl]

theorem noteMgrLost_link (mgr : Bool) (s : State) : (noteMgrLost mgr s).cway.link = s.cway.link := by
  unfold noteMgrLost
  split <;> rfl

theorem noteMgrLost_devs (mgr : Bool) (s : State) : (noteMgrLost mgr s).cway.devs = s.cway.devs := by
  unfold noteMgrLost
  split <;> rfl

theorem cwLaneDown_worker {lane : Nat} (hlane : lane < 4) (hup : bit s.cway.link lane = true) (hman : s.cway.manager = false)
    (hnum : s.cway.numbered = true) (lost : List Nat) (mgr : Bool) :
    (cwLaneDown lane lost mgr s).cway = { s.cway with
      link := setBit s.cway.link lane false, twinLink := setBit s.cway.twinLink lane false, lostMgr := s.cway.lostMgr || mgr } := by
  have hc := laneCut_cway lane s
  have hman' : (laneCut lane s).cway.manager = false := by rw [hc]; exact hman
  rw [cwLaneDown_up hlane hup, hman', if_neg Bool.false_ne_true, noteMgrLost_worker mgr hman' (by rw [hc]; exact hnum), hc]

theorem cwLaneDown_manager {lane : Nat} (hlane : lane < 4) (hup : bit s.cway.link lane = true) (hman : s.cway.manager = true)
    (hdevs : Rising s.cway.devs) (lost : List Nat) (mgr : Bool) :
    (cwLaneDown lane lost mgr s).cway.link = setBit s.cway.link lane false
      ∧ ∀ d, thas (cwLaneDown lane lost mgr s).cway.devs d = (thas s.cway.devs d && !lost.contains d) := by
  have hc := laneCut_cway lane s
  have hman' : (laneCut lane s).cway.manager = true := by rw [hc]; exact hman
  rw [cwLaneDown_up hlane hup, hman', if_pos rfl, noteMgrLost_link, noteMgrLost_devs]
  refine ⟨?_, fun d => ?_⟩
  · rw [reroute_link, loseDevices_link, hc]
  · rw [reroute_devs, loseDevices_devs, hc, thas_foldl_tdel d _ _ hdevs]

end Sys2Proof.Machine
end

section
/-! Causeway (17 R336 to R342): how devices are numbered, what the manager and a worker answer, and the audio frames of a cascade. -/
namespace Sys2Proof.Machine

variable {s : State}

/-! ### The numbers of devices (17 R336, R337) -/

/-- The entries in hop order. -/
def InHopOrder (l : List CwDev) : Prop := l.Pairwise (fun p q => ¬ q.order < p.order)

theorem mem_insertDev {d x : CwDev} {l : List CwDev} (h : x ∈ insertDev d l) : x = d ∨ x ∈ l := by
  induction l with
  | nil => exact .inl (List.mem_singleton.mp h)
  | cons e es ih =>
    unfold insertDev at h
    split at h
    · rcases List.mem_cons.mp h with rfl | h
      · exact .inr List.mem_cons_self
      · exact (ih h).imp_right (List.mem_cons_of_mem _)
    · exact List.mem_cons.mp h

theorem inHopOrder_insertDev {d : CwDev} {l : List CwDev} (h : InHopOrder l) : InHopOrder (insertDev d l) := by
  induction l with
  | nil => exact List.pairwise_singleton _ _
  | cons e es ih =>
    obtain ⟨he, hes⟩ := List.pairwise_cons.mp h
    unfold insertDev
    split
    next hlt =>
      refine List.pairwise_cons.mpr ⟨fun x hx => ?_, ih hes⟩
      rcases mem_insertDev hx with rfl | hx
      · exact hlt.asymm
      · exact he x hx
    next hle =>
      refine List.pairwise_cons.mpr ⟨fun x hx => ?_, h⟩
      rcases List.mem_cons.mp hx with rfl | hx
      · exact hle
      · exact not_lt.mpr ((not_lt.mp hle).trans (not_lt.mp (he x hx)))

theorem inHopOrder_freshDevs (topo : Nat) {devs : Tbl CwDev} (d : CwDev)
    (h : (devs.filter (·.2.fresh)).Pairwise (fun p q => ¬ q.2.order < p.2.order)) : InHopOrder (freshDevs topo devs d) := by
  have hknown : InHopOrder ((devs.map (·.2)).filter (·.fresh)) := by
    rw [List.filter_map]
    exact List.pairwise_map.mpr h
  exact inHopOrder_insertDev (hknown.filter _)

/-- The numbers that no device keeps from before, from 1 to 63. -/
def freeNumbers (old : Tbl CwDev) : List Nat := (List.range 64).filter (fun n => n != 0 && !thas old n)

theorem mem_freeNumbers {old : Tbl CwDev} {n : Nat} (h : n ∈ freeNumbers old) : 1 ≤ n ∧ n ≤ 63 := by
  simp only [freeNumbers, List.mem_filter, List.mem_range, Bool.and_eq_true, bne_iff_ne, ne_eq] at h
  omega

theorem freeNumbers_rise (old : Tbl CwDev) : (freeNumbers old).Pairwise (· < ·) := List.pairwise_lt_range.filter _

/-- Rising numbers given in hop order: of two devices with numbers the lower comes first. -/
theorem zip_inHopOrder : ∀ {ns : List Nat} {ds : List CwDev}, ns.Pairwise (· < ·) → InHopOrder ds →
    (ns.zip ds).Pairwise (fun a b => a.1 < b.1 ∧ ¬ b.2.order < a.2.order)
  | [], _, _, _ => by simp
  | _ :: _, [], _, _ => by simp
  | n :: ns, d :: ds, hn, hd => by
    obtain ⟨hn, hns⟩ := List.pairwise_cons.mp hn
    obtain ⟨hd, hds⟩ := List.pairwise_cons.mp hd
    refine List.pairwise_cons.mpr ⟨fun x hx => ?_, zip_inHopOrder hns hds⟩
    exact ⟨hn _ (List.of_mem_zip hx).1, hd _ (List.of_mem_zip hx).2⟩

theorem order_of_numbers {l : List (Nat × CwDev)} (h : l.Pairwise (fun a b => a.1 < b.1 ∧ ¬ b.2.order < a.2.order))
    {p q : Nat × CwDev} (hp : p ∈ l) (hq : q ∈ l) (hpq : p.1 < q.1) : ¬ q.2.order < p.2.order := by
  induction h with
  | nil => cases hp
  | @cons a l ha _ ih =>
    rcases List.mem_cons.mp hp with hpa | hpl <;> rcases List.mem_cons.mp hq with hqa | hql
    · rw [hpa, hqa] at hpq; omega
    · exact hpa ▸ (ha q hql).2
    · exact absurd (hqa ▸ (ha p hpl).1) (by omega)
    · exact ih hpl hql

theorem mem_foldl_tset {α : Type} : ∀ (l : List (Nat × α)) (t : Tbl α) {p : Nat × α},
    p ∈ l.foldl (fun t e => tset t e.1 e.2) t → p ∈ l ∨ p ∈ t := by
  intro l
  induction l with
  | nil => exact fun _ _ h => .inr h
  | cons e l ih =>
    intro t p h
    rcases ih _ h with h | h
    · exact .inl (List.mem_cons_of_mem _ h)
    · exact (tset_mem h).imp_left (fun he => by rw [he]; exact List.mem_cons_self)

/-- The device that a number from before belongs to. -/
def kept (devs : Tbl CwDev) (d : CwDev) : Option (Nat × CwDev) := (devs.filter (fun e => !e.2.fresh)).find? (fun e => e.2.ident == d.ident)

theorem numbered_kept {topo : Nat} {devs : Tbl CwDev} {d : CwDev} {e : Nat × CwDev} (h : kept devs d = some e) :
    numbered topo devs d = tset devs e.1 { d with fresh := false } := by
  unfold numbered
  simp only [show List.find? _ _ = some e from h]

theorem numbered_new {topo : Nat} {devs : Tbl CwDev} {d : CwDev} (h : kept devs d = none) :
    numbered topo devs d = ((freeNumbers (devs.filter (fun e => !e.2.fresh))).zip (freshDevs topo devs d)).foldl (fun t e => tset t e.1 e.2)
      (devs.filter (fun e => !e.2.fresh)) := by
  unfold numbered
  simp only [show List.find? _ _ = none from h]
  rfl

/-- The devices an enumeration numbers take free numbers from 1 to 63 in hop order. -/
theorem numbered_order {topo : Nat} {devs : Tbl CwDev} {d : CwDev} (h : kept devs d = none)
    (hord : (devs.filter (·.2.fresh)).Pairwise (fun p q => ¬ q.2.order < p.2.order)) {p q : Nat × CwDev}
    (hp : p ∈ numbered topo devs d) (hq : q ∈ numbered topo devs d) (hpf : p.2.fresh = true) (hqf : q.2.fresh = true) (hpq : p.1 < q.1) :
    1 ≤ p.1 ∧ q.1 ≤ 63 ∧ ¬ q.2.order < p.2.order := by
  have hmem : ∀ {x : Nat × CwDev}, x ∈ numbered topo devs d → x.2.fresh = true →
      x ∈ (freeNumbers (devs.filter (fun e => !e.2.fresh))).zip (freshDevs topo devs d) := fun {x} hx hf => by
    rw [numbered_new h] at hx
    rcases mem_foldl_tset _ _ hx with hx | hx
    · exact hx
    · have := (List.mem_filter.mp hx).2
      simp [hf] at this
  have hp' := hmem hp hpf
  have hq' := hmem hq hqf
  refine ⟨(mem_freeNumbers (List.of_mem_zip hp').1).1, (mem_freeNumbers (List.of_mem_zip hq').1).2, ?_⟩
  exact order_of_numbers (zip_inHopOrder (freeNumbers_rise _) (inHopOrder_freshDevs topo d hord)) hp' hq' hpq

/-! ### Requests and answers of an enumeration -/

/-- The number of a worker, which it keeps once it has one. -/
def workerNumber (s : State) : Nat × State :=
  if s.cway.numbered then (s.cway.devNum, s) else ((drawBelow s 63).1 + 1, (drawBelow s 63).2)

/-- A worker takes its number and answers. -/
def workerAnswer (lane : Nat) (s : State) : State :=
  emit (modCway (workerNumber s).2 (fun w => { w with numbered := true, devNum := (workerNumber s).1, upLane := lane, lostMgr := false }))
    (.lane lane 2 (le1 (twinId (workerNumber s).2) ++ le1 (bootSel (workerNumber s).2) ++ le1 (workerNumber s).2.ctl.stage))

theorem workerNumber_snd (s : State) : (workerNumber s).2 = { s with free := (workerNumber s).2.free } := by
  unfold workerNumber
  split <;> rfl

theorem workerNumber_kept (h : s.cway.numbered = true) : (workerNumber s).1 = s.cway.devNum := by
  rw [workerNumber, if_pos h]

theorem workerNumber_new (h : s.cway.numbered = false) : 1 ≤ (workerNumber s).1 ∧ (workerNumber s).1 ≤ 63 := by
  rw [workerNumber, if_neg (by simp [h])]
  have : (drawBelow s 63).1 < 63 := Nat.mod_lt _ (by decide)
  dsimp only
  omega

theorem enumRequest_idle {lane : Nat}
    (h : 4 ≤ lane ∨ bit s.cway.link lane = false ∨ bit s.cway.twinLink lane = true ∨ s.cway.manager = true ∨ twinId s ≠ 0) : enumRequest lane s = s :=
  if_pos (by simpa using h)

theorem enumRequest_answers {lane : Nat} (hlane : lane < 4) (hup : bit s.cway.link lane = true) (htwin : bit s.cway.twinLink lane = false)
    (hman : s.cway.manager = false) (hid : twinId s = 0) :
    enumRequest lane s = ((cwLanes (workerAnswer lane (wake s))).filter (· != lane)).foldl (fun s k => emit s (.lane k 1 [])) (workerAnswer lane (wake s)) := by
  refine (if_neg (by simp [hlane, hup, htwin, hman, hid])).trans ?_
  cases h : (wake s).cway.numbered <;> simp only [workerAnswer, workerNumber, h] <;> rfl

theorem emits_cway {α : Type} (f : α → Out) (l : List α) (s : State) : (l.foldl (fun s k => emit s (f k)) s).cway = s.cway :=
  foldl_keeps State.cway (fun s k => emit_cway s (f k)) l s

theorem emits_out_mem {α : Type} {o : Out} (f : α → Out) : ∀ (l : List α) {s : State}, o ∈ s.out → o ∈ (l.foldl (fun s k => emit s (f k)) s).out := by
  intro l
  induction l with
  | nil => exact fun h => h
  | cons a l ih => exact fun h => ih (List.mem_append_left _ h)

theorem enumRequest_spec {lane : Nat} (hlane : lane < 4) (hup : bit s.cway.link lane = true) (htwin : bit s.cway.twinLink lane = false)
    (hman : s.cway.manager = false) (hid : twinId s = 0) :
    (enumRequest lane s).cway = { s.cway with numbered := true, devNum := (workerNumber (wake s)).1, upLane := lane, lostMgr := false }
      ∧ Out.lane lane 2 (le1 0 ++ le1 (bootSel s) ++ le1 s.ctl.stage) ∈ (enumRequest lane s).out := by
  rw [enumRequest_answers hlane hup htwin hman hid]
  have hw : ({ (workerNumber (wake s)).2 with free := 0, pwr := {} } : State) = { s with free := 0, pwr := {} } := by
    rw [workerNumber_snd]
    exact congrArg (fun u : State => { u with free := 0 }) (wake_offPwr s)
  have hcway : (workerNumber (wake s)).2.cway = s.cway := (congrArg State.cway hw :)
  have hdev : (workerNumber (wake s)).2.dev = s.dev := (congrArg State.dev hw :)
  have hctl : (workerNumber (wake s)).2.ctl = s.ctl := (congrArg State.ctl hw :)
  refine ⟨(emits_cway _ _ _).trans ?_, emits_out_mem _ _ ?_⟩
  · simp [workerAnswer, modCway, hcway]
  · simp [workerAnswer, emit, twinId, bootSel, hdev, hctl, ← hid]

theorem enumResponse_idle {i : EnumInfo} (h : s.cway.manager = false ∨ i.twinId ≠ 0 ∨ 4 ≤ i.lane ∨ bit s.cway.lanes i.lane = false) :
    enumResponse i s = s :=
  if_pos (by simpa using h)

theorem enumResponse_broken {i : EnumInfo} (hman : s.cway.manager = true) (hid : i.twinId = 0) (hlane : i.lane < 4)
    (hin : bit s.cway.lanes i.lane = true) (hb : i.broken = true) : enumResponse i s = evD s 0xC04 i.lane 0 0 :=
  (if_neg (by simp [hman, hid, hlane, hin])).trans (if_pos hb)

theorem evDs_cway {α : Type} (typ : Nat) (a b c : α → Nat) (l : List α) (s : State) :
    (l.foldl (fun s e => evD s typ (a e) (b e) (c e)) s).cway = s.cway :=
  foldl_keeps State.cway (fun s _ => raiseEv_cway s _ _ _) l s

theorem enumResponse_cway {i : EnumInfo} (hman : s.cway.manager = true) (hid : i.twinId = 0) (hlane : i.lane < 4)
    (hin : bit s.cway.lanes i.lane = true) (hb : i.broken = false) :
    (enumResponse i s).cway = { s.cway with
      found := s.cway.found ++ [i]
      devs := numbered s.cway.topo s.cway.devs ⟨i.ident, true, hopOrder s.cway.topo i, true, i.hops, i.lane, i.path, i.bootSel, i.stage⟩ } := by
  unfold enumResponse
  dsimp only
  rw [if_neg (by simp [hman, hid, hlane, hin]), if_neg (by simp [hb]), enumCheck_cway]
  split
  · split
    · exact evDs_cway _ _ _ _ _ _
    · exact evDs_cway _ _ _ _ _ _
  · exact evDs_cway _ _ _ _ _ _

theorem enumTimeout_answered (h : s.cway.found ≠ []) : enumTimeout s = s := if_neg (by simpa using h)

theorem enumTimeout_alone (h : s.cway.found = []) :
    enumTimeout s = (pendingFor s (fun w => w == .enumerate)).foldl (fun s p => finish s p 0x0402 0) s := if_pos (by simp [h])

/-! ### Forwarded commands (17 R342) -/

theorem fwdResponse_unasked {d : Nat} {rsp : List Byte} (h : forwards s d = []) (hlen : rsp.length ≠ 16) : fwdResponse d rsp s = s := by
  unfold fwdResponse
  rw [if_neg hlen]
  simp only [h]

theorem fwdResponse_completion {d : Nat} {rsp : List Byte} (hlen : rsp.length = 16) :
    fwdResponse d rsp s = vcSend (raiseEv (modCway s (fun w => { w with owed := dropOwed d w.owed })) 0 true
      ⟨1, fld rsp 4 2, fld rsp 6 2, fld rsp 8 4, fld rsp 12 2, d⟩) := if_pos hlen

theorem fwdResponse_answer {d l a : Nat} {rsp b : List Byte} {p : PendCmd} {ps : List PendCmd} (hlen : rsp.length ≠ 16)
    (h : forwards s d = p :: ps) (hp : p.what = .forward d a) (hf : s.cway.fwds.find? (·.dev == d) = some ⟨d, some l, b⟩) :
    fwdResponse d rsp s = vcSend (finish { s with
      host := mwrite s.host a (fit 32 rsp)
      cway := { s.cway with fwds := dropFirst d s.cway.fwds, owed := if fld rsp 2 2 = 1 then s.cway.owed ++ [(d, l)] else s.cway.owed } } p 0 0) := by
  unfold fwdResponse
  rw [if_neg hlen]
  simp only [h, hf, hp, modCway]

theorem fwdTimeout_unasked {d : Nat} (h : forwards s d = []) : fwdTimeout d s = s := by
  unfold fwdTimeout
  simp only [h]

theorem fwdTimeout_asked {d : Nat} {p : PendCmd} {ps : List PendCmd} (h : forwards s d = p :: ps) :
    fwdTimeout d s = vcSend (finish { s with cway := { s.cway with fwds := dropFirst d s.cway.fwds } } p 0x0402 0) := by
  unfold fwdTimeout
  simp only [h, modCway]

/-! ### The audio frames of cascade legs (17 R340) -/

theorem legFrameRx_idle {lane dst : Nat} {sid b : List Byte} (h : 4 ≤ lane ∨ bit s.cway.link lane = false ∨ s.ctl.stage ≠ 4) :
    legFrameRx lane dst sid b s = s := if_pos (by simpa using h)

theorem legFrameRx_onward {lane dst n : Nat} {sid b : List Byte} (hlane : lane < 4) (hup : bit s.cway.link lane = true) (hstage : s.ctl.stage = 4)
    (hdst : dst ≠ s.cway.devNum ∨ s.cway.numbered = false) (hn : (cwLanes s).filter (· != lane) = [n]) :
    legFrameRx lane dst sid b s = emit s (.lane n 7 (le1 dst ++ b)) := by
  unfold legFrameRx
  rw [if_neg (by simp [hlane, hup, hstage]), if_neg (by rcases hdst with h | h <;> simp [h])]
  simp only [hn]
  rfl

/-- The stream and leg of this device that an audio frame on `lane` belongs to. -/
def legHere (s : State) (lane : Nat) (sid : List Byte) : Option (Nat × Nat) :=
  rxLegs s (fun c o => isAaf (cFormat c) && (isLane (legPort c o) && (legRoute s (legPort c o)).contains lane) && slice c (o + 24) 8 == sid)

theorem legFrameRx_unknown {lane dst : Nat} {sid b : List Byte} (hlane : lane < 4) (hup : bit s.cway.link lane = true) (hstage : s.ctl.stage = 4)
    (hdst : dst = s.cway.devNum) (hnum : s.cway.numbered = true) (hx : legHere s lane sid = none) : legFrameRx lane dst sid b s = s := by
  unfold legHere at hx
  unfold legFrameRx
  rw [if_neg (by simp [hlane, hup, hstage]), if_pos ⟨hdst, hnum⟩]
  simp only [hx]

theorem legFrameRx_here {lane dst k g : Nat} {sid b : List Byte} (hlane : lane < 4) (hup : bit s.cway.link lane = true) (hstage : s.ctl.stage = 4)
    (hdst : dst = s.cway.devNum) (hnum : s.cway.numbered = true) (hx : legHere s lane sid = some (k, g)) :
    legFrameRx lane dst sid b s = rxPacket k g false true b (tb s (cTb ((tget s.streams k).getD default).cfg)).now s := by
  unfold legHere at hx
  unfold legFrameRx
  rw [if_neg (by simp [hlane, hup, hstage]), if_pos ⟨hdst, hnum⟩]
  simp only [hx]

/-! ### The rows of the cascade -/

theorem exec_cwLinkUp (lane : Nat) : exec (.cwLinkUp lane) s = .next (settled s (cwLinkUp lane (begun s))) := run_eq _ _
theorem exec_cwLaneDown (lane : Nat) (lost : List Nat) (mgr : Bool) :
    exec (.cwLaneDown lane lost mgr) s = .next (settled s (cwLaneDown lane lost mgr (begun s))) := run_eq _ _

theorem exec_enumRequest (hstart : s.clk.started = true) (lane : Nat) :
    exec (.enumRequest lane) s = .next (settled s (enumRequest lane (begun s))) := runBase_of_started hstart _
theorem exec_enumResponse (hstart : s.clk.started = true) (i : EnumInfo) :
    exec (.enumResponse i) s = .next (settled s (enumResponse i (begun s))) := runBase_of_started hstart _
theorem exec_enumTimeout (hstart : s.clk.started = true) : exec .enumTimeout s = .next (settled s (enumTimeout (begun s))) :=
  runBase_of_started hstart _
theorem exec_fwdResponseRx (hstart : s.clk.started = true) (d : Nat) (rsp : List Byte) :
    exec (.fwdResponseRx d rsp) s = .next (settled s (fwdResponse d rsp (begun s))) := runBase_of_started hstart _
theorem exec_fwdTimeout (hstart : s.clk.started = true) (d : Nat) : exec (.fwdTimeout d) s = .next (settled s (fwdTimeout d (begun s))) :=
  runBase_of_started hstart _
theorem exec_cascadeLegFrameRx (hrun : s.clk.running = true) (lane dst : Nat) (sid b : List Byte) :
    exec (.cascadeLegFrameRx lane dst sid b) s = .next (settled s (legFrameRx lane dst sid b (begun s))) := runMere_of_running hrun _

/-- Settles O53. A worker's number and the choice among the numbers are the model's (log entry 32), as are the credits that a request holds
(log entry 119) and that HB_LANE of a twin joins its peer (log entry 33). -/
theorem causewayAndWorkers : Obligations.CausewayAndWorkers := by
  unfold Obligations.CausewayAndWorkers
  intro s idle w
  refine ⟨fun lane hlane hstart hsafe hpll => ?_, fun lane h => ?_, fun lane => ⟨fun h lost mgr => ?_, fun hlane hup => ⟨?_, ?_⟩⟩, ?_, ?_,
    fun topo devs d _ => ⟨fun e he _ => ?_, fun hnew hord p q hp hq => numbered_order hnew hord hp hq⟩, fun h => ?_, fun h hstart => ?_,
    fun hstart d rsp => ⟨?_, ?_, ?_⟩, fun l h0 h1 => vcSend_withinCredits ⟨h0, h1⟩, ?_⟩
  · refine ⟨_, exec_cwLinkUp lane, ?_, fun hp => ?_⟩
    · rw [settled_cway, cwLinkUp_up hlane (by exact hstart) (by exact hsafe) (by exact hpll)]
      split
      · simp only [modCway, wake_cway]; rfl
      · rfl
    · rw [settled_pwr, cwLinkUp_up hlane (by exact hstart) (by exact hsafe) (by exact hpll), if_neg (by exact not_le.mpr hp)]
      rfl
  · rw [exec_cwLinkUp, cwLinkUp_idle (s := begun s) h]
  · rw [exec_cwLaneDown, cwLaneDown_idle (s := begun s) h]
  · intro hman hnum lost mgr
    have hc := cwLaneDown_worker (s := begun s) hlane hup hman hnum lost mgr
    exact ⟨_, exec_cwLaneDown lane lost mgr, by rw [settled_cway, hc]; simp [bit_setBit], by rw [settled_cway, hc]; rfl, by rw [settled_cway, hc]; rfl⟩
  · intro hman hdevs lost mgr
    obtain ⟨hlink, hhas⟩ := cwLaneDown_manager (s := begun s) hlane hup hman hdevs lost mgr
    exact ⟨_, exec_cwLaneDown lane lost mgr, by rw [settled_cway, hlink]; simp [bit_setBit], fun d => by rw [settled_cway]; exact hhas d⟩
  · intro hstart lane
    refine ⟨fun hlane hup htwin hman hid => ?_, fun h => by rw [exec_enumRequest hstart, enumRequest_idle (s := begun s) h]⟩
    obtain ⟨hc, hout⟩ := enumRequest_spec (s := begun s) hlane hup htwin hman hid
    refine ⟨_, exec_enumRequest hstart lane, by rw [settled_cway, hc], by rw [settled_cway, hc], fun hnum => ?_, fun hnum => ?_, settled_out_mem hout⟩
    · rw [settled_cway, hc]
      exact (workerNumber_kept (by rw [wake_cway]; exact hnum)).trans (by rw [wake_cway]; rfl)
    · rw [settled_cway, hc]
      exact workerNumber_new (by rw [wake_cway]; exact hnum)
  · intro hstart i
    refine ⟨fun h => by rw [exec_enumResponse hstart, enumResponse_idle (s := begun s) h], fun hman hid hlane hin => ⟨fun hb => ?_, fun hb => ?_⟩⟩
    · rw [exec_enumResponse hstart, enumResponse_broken (s := begun s) hman hid hlane hin hb]
    · have hc := enumResponse_cway (s := begun s) hman hid hlane hin hb
      exact ⟨_, exec_enumResponse hstart i, by rw [settled_cway, hc]; rfl, by rw [settled_cway, hc]; rfl⟩
  · rw [numbered_kept he]
    exact ⟨tget_tset_self _ _ _, fun m hm => tget_tset_ne _ _ hm⟩
  · rcases h with h | h
    · exact runBase_of_idle (enumTimeout_answered (s := begun s) h)
    · exact (run_eq _ _).trans (by rw [if_neg (by exact ne_true_of_eq_false h)])
  · rw [exec_enumTimeout hstart, enumTimeout_alone (s := begun s) h]
  · exact fun h => ⟨fun hlen => by rw [exec_fwdResponseRx hstart, fwdResponse_unasked (s := begun s) h hlen],
      by rw [exec_fwdTimeout hstart, fwdTimeout_unasked (s := begun s) h]⟩
  · exact fun p ps a h hp => ⟨fun l b hlen hf => by rw [exec_fwdResponseRx hstart, fwdResponse_answer (s := begun s) hlen h hp hf]; rfl,
      by rw [exec_fwdTimeout hstart, fwdTimeout_asked (s := begun s) h]; rfl⟩
  · exact fun hlen => by rw [exec_fwdResponseRx hstart, fwdResponse_completion hlen]; rfl
  · intro hrun lane dst sid b
    refine ⟨fun h => by rw [exec_cascadeLegFrameRx hrun, legFrameRx_idle (s := begun s) h], fun hlane hup hstage => ⟨fun n hdst hn => ?_, fun hdst hnum => ?_⟩⟩
    · rw [exec_cascadeLegFrameRx hrun, legFrameRx_onward (s := begun s) hlane hup hstage hdst hn]
    · split
      next hx =>
        rw [exec_cascadeLegFrameRx hrun, legFrameRx_unknown (s := begun s) hlane hup hstage hdst hnum hx]
      next k g hx =>
        rw [exec_cascadeLegFrameRx hrun, legFrameRx_here (s := begun s) hlane hup hstage hdst hnum hx]
        rfl

end Sys2Proof.Machine
end

section
/-! Memory errors and spares (18): what each operation leaves of the health record, and of an event queue that does not run. -/
namespace Sys2Proof.Machine

variable {s : State}

/-! ### A queue that does not run keeps what it holds (03 R52, R66) -/

/-- Queue `k` holds `q`, which does not run. -/
def State.halted (s : State) (k : Nat) (q : Queue) : Prop := tget s.queues k = some q ∧ Machine.running q = none

variable {k : Nat} {q : Queue}

theorem evQueue_spec {f : Nat} {x : Nat × Queue × QCtx} (h : evQueue s f = some x) :
    tget s.queues x.1 = some x.2.1 ∧ running x.2.1 = some x.2.2 := by
  unfold evQueue at h
  dsimp only at h
  split at h
  · generalize (if f = 0 then some 0 else findQ s (f - 1) 0) = o at h
    cases o with
    | none => cases h
    | some k =>
      dsimp only at h
      split at h
      · cases h
      next k q hq =>
        split at h
        · obtain ⟨c, hc, rfl⟩ := Option.map_eq_some_iff.mp h
          exact ⟨hq, hc⟩
        · cases h
  · cases h

theorem State.halted.ne_of_running {j : Nat} {x : Queue} {c : QCtx} (h : s.halted k q) (hj : tget s.queues j = some x)
    (hx : Machine.running x = some c) : k ≠ j := by
  obtain ⟨hk, hq⟩ := h
  rintro rfl
  rw [hk] at hj
  obtain rfl := Option.some.inj hj
  rw [hq] at hx
  cases hx

theorem State.halted.tset {j : Nat} (h : s.halted k q) (hj : k ≠ j) (x : Queue) : ({ s with queues := tset s.queues j x } : State).halted k q :=
  ⟨(tget_tset_ne _ _ hj).trans h.1, h.2⟩

theorem State.halted.msix {f v : Nat} (h : s.halted k q) : (Machine.msix s f v).halted k q := by
  unfold Machine.msix
  dsimp only
  split
  · split
    · exact h
    · exact h
  · exact h

theorem State.halted.setInt {f : Nat} {b : IntBit} (h : s.halted k q) : (Machine.setInt s f b).halted k q := by
  unfold Machine.setInt
  split
  · exact h
  · exact State.halted.msix (s := modFn s f (intPut · b)) h

theorem State.halted.checkIrq {j : Nat} (h : s.halted k q) : (Machine.checkIrq s j).halted k q := by
  unfold Machine.checkIrq
  split
  · exact h
  next x hx =>
    split
    · exact h
    next c hc =>
      split
      · have ht := h.tset (h.ne_of_running hx hc) { x with armed := false, unsig := 0, timeUp := false, irqs := inc48 x.irqs 1 }
        dsimp only
        split
        · exact ht
        · exact ht.msix
      · exact h

theorem State.halted.putRecord {j : Nat} {x : Queue} {c : QCtx} {e : Ev} (h : s.halted k q) (hj : k ≠ j) : (Machine.putRecord s j x c e).halted k q := by
  unfold Machine.putRecord addUnsig
  refine State.halted.checkIrq ⟨?_, h.2⟩
  exact (tget_tmod_ne _ _ hj).trans ((tget_tset_ne _ _ hj).trans h.1)

theorem State.halted.loseEvent {f : Nat} (h : s.halted k q) : (Machine.loseEvent s f).halted k q :=
  State.halted.setInt (s := modFn s f (fun fn => { fn with lostCnt := inc48 fn.lostCnt 1 })) h

theorem State.halted.drain (f : Nat) : ∀ (n : Nat) {s : State}, s.halted k q → (Machine.drain f n s).halted k q := by
  intro n
  induction n with
  | zero => exact fun h => h
  | succ n ih =>
    intro s h
    unfold Machine.drain
    split
    · exact h
    next j x c hx =>
      obtain ⟨hj, hc⟩ := evQueue_spec hx
      have hne := h.ne_of_running hj hc
      split
      · exact h
      · split
        next es _ => exact ih (State.halted.putRecord (s := modFn s f (fun fn => { fn with held := es })) h hne)
        · split
          · exact h
          · exact h.putRecord hne

theorem State.halted.deliver {o : EvOut} (h : s.halted k q) : (Machine.deliver s o).halted k q := by
  have hd := h.drain o.fn ((tgetD s.fns o.fn {}).held.length + 1)
  unfold Machine.deliver
  dsimp only
  split
  next j x c hx =>
    obtain ⟨hj, hc⟩ := evQueue_spec hx
    have hne := hd.ne_of_running hj hc
    split
    · exact hd.putRecord hne
    · split
      · exact hd
      · exact (hd.tset hne _).loseEvent
  · split
    · exact hd
    · exact hd.loseEvent

theorem State.halted.deliverAll : ∀ (es : List EvOut) {s : State}, s.halted k q → (es.foldl Machine.deliver s).halted k q := by
  intro es
  induction es with
  | nil => exact fun h => h
  | cons e es ih => exact fun h => ih h.deliver

theorem State.halted.flushN : ∀ (n : Nat) {s : State}, s.halted k q → (Machine.flushN n s).halted k q := by
  intro n
  induction n with
  | zero => exact fun h => h
  | succ n ih =>
    intro s h
    unfold Machine.flushN
    split
    · exact h
    · exact ih (State.halted.deliverAll _ (s := { s with evs := [] }) h)

theorem State.halted.settled (r : State) (h : s.halted k q) : (Machine.settled r s).halted k q := by
  have hf : (Machine.flush s).halted k q := State.halted.flushN 2 h
  unfold Machine.settled drive
  dsimp only
  split
  · exact hf
  · exact hf

/-! ### Lakebed and the fault log (18 R355 to R358) -/

/-- The health record without what Lakebed and the fault log change. -/
def Health.offLog (h : Health) : Health :=
  { h with memErr := 0, repair := [], lkbSpares := 0, blocks := [], mapA := {}, mapB := {}, mapped := [], exhausted := [], log := [], logNext := 0, logSec := (0, 0, 0) }

@[simp] theorem setLakeMap_offLog (h : Health) (m : Tbl Nat) : (setLakeMap h m).offLog = h.offLog := by
  unfold setLakeMap
  split <;> rfl

theorem mapped_offLog (h : Health) (m : Tbl Nat) : ({ h with mapped := m } : Health).offLog = h.offLog := rfl

theorem levelBlock_offLog (l : Nat) (s : State) : (levelBlock l s).health.offLog = s.health.offLog := by
  unfold levelBlock
  dsimp only [modHealth]
  split
  · rfl
  · rw [mapped_offLog, setLakeMap_offLog]

/-- The block that takes over has its place in the map and the repair list. -/
def spareTaken (l : Nat) (s : State) : State :=
  modHealth (memErr s 5) (fun h => { setLakeMap h (tset (lakeMap h) l (16384 - s.health.lkbSpares)) with
    lkbSpares := s.health.lkbSpares - 1, mapped := tset h.mapped l (tgetD h.blocks (16384 - s.health.lkbSpares) 0)
    repair := h.repair ++ [(6, physBlock s.health l)] })

theorem retireBlock_spare {l : Nat} (h : s.health.lkbSpares ≠ 0) :
    retireBlock l s = if s.health.lkbSpares - 1 = 102
      then evD (memErr (evD (memErr (spareTaken l s) 6) 0xE02 (6 * 2 ^ 28 + physBlock s.health l) 0 0) 7) 0xE05 0 0 102
      else evD (memErr (spareTaken l s) 6) 0xE02 (6 * 2 ^ 28 + physBlock s.health l) 0 0 := if_neg h

theorem retireBlock_exhausted {l : Nat} (h : s.health.lkbSpares = 0) :
    retireBlock l s = evD (modHealth (memErr s 5) (fun h => { h with exhausted := h.exhausted ++ [regionOf l] })) 0xE06 (regionOf l) 0 0 := if_pos h

theorem spare_offLog (h : Health) (n : Nat) (m : Tbl Nat) (r : List (Nat × Nat)) :
    ({ h with lkbSpares := n, mapped := m, repair := r } : Health).offLog = h.offLog := rfl

theorem spareTaken_offLog (l : Nat) (s : State) : (spareTaken l s).health.offLog = s.health.offLog := by
  unfold spareTaken
  dsimp only [modHealth]
  rw [spare_offLog, setLakeMap_offLog]
  rfl

theorem retireBlock_offLog (l : Nat) (s : State) : (retireBlock l s).health.offLog = s.health.offLog := by
  by_cases hs : s.health.lkbSpares = 0
  · rw [retireBlock_exhausted hs]; rfl
  · rw [retireBlock_spare hs]
    split
    · exact spareTaken_offLog l s
    · exact spareTaken_offLog l s

theorem writeBlock_offLog (l n : Nat) (s : State) : (writeBlock l n s).health.offLog = s.health.offLog := by
  unfold writeBlock
  dsimp only
  split
  · exact (retireBlock_offLog _ _).trans (levelBlock_offLog _ _)
  · exact levelBlock_offLog l s

theorem drawBytes_health (n : Nat) (s : State) : (drawBytes n s).2.health = s.health := by
  unfold drawBytes
  exact foldl_keeps (fun x : List Byte × State => x.2.health) (by intros; rfl) _ _

theorem logWrite_offLog (s : State) (w : LogWhat) : (logWrite s w).health.offLog = s.health.offLog := by
  have hd := drawBytes_health 64 s
  unfold logWrite
  generalize drawBytes 64 s = x at hd ⊢
  obtain ⟨b, u⟩ := x
  dsimp only at hd ⊢
  rw [← hd]
  refine Eq.trans ?_ (writeBlock_offLog (8192 + u.health.logNext % 65536 / 64) 1 u)
  simp only [modHealth, Health.offLog]

theorem logSummary_offLog (s : State) : (logSummary s).health.offLog = s.health.offLog := by
  unfold logSummary
  dsimp only
  split
  · rfl
  · split
    · rfl
    · exact logWrite_offLog _ _

theorem logSummary_tarn (s : State) : (logSummary s).tarn = s.tarn := (congrArg State.tarn (logSummary_offLakebed s) :)

/-- A bit of HLTH_MEM_ERR that is set. -/
def State.marked (s : State) (b : Nat) : Prop := bit s.health.memErr b = true

theorem marked_memErr (s : State) (b : Nat) : (memErr s b).marked b := by
  simp [State.marked, memErr, modHealth, bit_setBit]

theorem State.marked.memErr {b : Nat} (h : s.marked b) (c : Nat) : (Machine.memErr s c).marked b := by
  unfold State.marked at h ⊢
  simp [Machine.memErr, modHealth, bit_setBit, h]

@[simp] theorem setLakeMap_memErr (h : Health) (m : Tbl Nat) : (setLakeMap h m).memErr = h.memErr := by
  unfold setLakeMap
  split <;> rfl

theorem State.marked.of_memErr {b : Nat} {u : State} (h : s.marked b) (e : u.health.memErr = s.health.memErr) : u.marked b := by
  unfold State.marked at h ⊢
  rw [e, h]

theorem State.marked.levelBlock {b : Nat} (h : s.marked b) (l : Nat) : (Machine.levelBlock l s).marked b := by
  unfold Machine.levelBlock
  dsimp only
  split
  · exact h
  · exact h.of_memErr (setLakeMap_memErr _ _)

theorem State.marked.spareTaken {b : Nat} (h : (Machine.memErr s 5).marked b) (l : Nat) : (Machine.spareTaken l s).marked b :=
  h.of_memErr (setLakeMap_memErr _ _)

theorem State.marked.retireBlock {b : Nat} (h : (Machine.memErr s 5).marked b) (l : Nat) : (Machine.retireBlock l s).marked b := by
  by_cases hs : s.health.lkbSpares = 0
  · rw [retireBlock_exhausted hs]; exact h
  · rw [retireBlock_spare hs]
    have h6 := (State.marked.spareTaken h l).memErr 6
    split
    · exact State.marked.memErr (s := evD (Machine.memErr (Machine.spareTaken l s) 6) _ _ _ _) h6 7
    · exact h6

theorem State.marked.writeBlock {b : Nat} (h : s.marked b) (l n : Nat) : (Machine.writeBlock l n s).marked b := by
  unfold Machine.writeBlock
  dsimp only
  have hl := h.levelBlock l
  split
  · exact State.marked.retireBlock (State.marked.memErr (s := modHealth _ _) (by exact hl) 5) l
  · exact hl

theorem lakeMap_setLakeMap (h : Health) (m : Tbl Nat) : lakeMap (setLakeMap h m) = m := by
  unfold setLakeMap
  split
  · exact if_neg (by simp)
  · exact if_pos (by simp)

theorem retireBlock_map {l : Nat} (h : s.health.lkbSpares ≠ 0) :
    (retireBlock l s).health.lkbSpares = s.health.lkbSpares - 1
      ∧ lakeMap (retireBlock l s).health = tset (lakeMap s.health) l (16384 - s.health.lkbSpares) := by
  have hm : lakeMap (spareTaken l s).health = tset (lakeMap s.health) l (16384 - s.health.lkbSpares) := lakeMap_setLakeMap _ _
  rw [retireBlock_spare h]
  split
  · exact ⟨rfl, hm⟩
  · exact ⟨rfl, hm⟩

end Sys2Proof.Machine
end

section
/-! Memory errors, margins, bank and row spares, and the wear pass (18 R351 to R361). -/
namespace Sys2Proof.Machine

variable {s : State}

/-! ### What a memory error does (18 R351, R353) -/

/-- The health record without the bookkeeping of row replacements. -/
def Health.offRows (h : Health) : Health := { h with rowErrs := [], rowWait := [], rowsUsed := [] }

theorem startRow_offRows (s : State) (hbm : Bool) (loc : Nat) (fault : Bool) : (startRow s hbm loc fault).health.offRows = s.health.offRows := by
  unfold startRow
  extract_lets row key used
  generalize (if hbm then 1 else 4) = m
  split <;> rfl

theorem startRow_queues (s : State) (hbm : Bool) (loc : Nat) (fault : Bool) : (startRow s hbm loc fault).queues = s.queues := by
  unfold startRow
  extract_lets row key used
  generalize (if hbm then 1 else 4) = m
  split <;> rfl

theorem rowError_offRows (s : State) (hbm : Bool) (loc : Nat) : (rowError s hbm loc).health.offRows = s.health.offRows := by
  unfold rowError
  dsimp only
  split
  · exact startRow_offRows _ _ _ _
  · rfl

theorem drawWords_health : ∀ (k : Nat) (s : State), (drawWords k s).2.health = s.health := by
  intro k
  induction k with
  | zero => exact fun _ => rfl
  | succ k ih => exact fun s => ih (draw s).2

theorem respond_health (s : State) (mb : Nat) (r : List Byte) (peer : List Byte × Nat) : (respond s mb r peer).health = s.health :=
  (congrArg State.health (respond_tables s mb r peer) :)

theorem answerTaken_health (mb : Nat) (cs : List Taken) (s : State) : (answerTaken mb cs s).health = s.health :=
  foldl_keeps State.health (fun s c => by split; exacts [rfl, respond_health _ _ _ _]) cs s

theorem complete_health (s : State) (p : PendCmd) (typ obj status aux : Nat) : (complete s p typ obj status aux).health = s.health := by
  unfold complete
  split
  · rfl
  · split
    · exact (congrArg State.health (laneOut_tables _ _ _ _) :)
    · rfl

theorem mgmtDown_health (s : State) : (mgmtDown s).health = s.health := by
  unfold mgmtDown
  dsimp only
  refine (foldl_keeps State.health (fun s p => complete_health s p _ _ _ _) _ _).trans ?_
  refine (foldl_keeps State.health (by intro s p; exact answerTaken_health _ _ _) _ _).trans ?_
  split
  · split
    · rfl
    · exact respond_health _ _ _ _
  · rfl

theorem failoverStart_health (s : State) : (failoverStart s).health = s.health := by
  unfold failoverStart
  split
  · rfl
  · split
    · exact mgmtDown_health s
    · rfl

theorem lostWord_health (s : State) (o : MemOwner) : (lostWord s o).health = s.health := by
  have hd := drawWords_health 4 s
  cases o with
  | tarnLocal n a =>
    unfold lostWord
    dsimp only
    split
    · exact hd
    · exact hd
  | tarnCluster c a =>
    unfold lostWord
    dsimp only
    split
    · exact hd
    · exact hd
  | hbmWindow t w => exact foldl_keeps State.health (by intros; rfl) _ _
  | wellhead => exact failoverStart_health s
  | _ => rfl

/-- A corrected error counts in its memory's counter and sets its bit. -/
theorem scrub_corrected (o : MemOwner) (loc : Nat) :
    (scrub o loc false s).health.offRows = ({ s.health with
      memErr := setBit s.health.memErr (if ownerHbm o then 2 else 0) true
      hbmCe := if ownerHbm o then inc48 s.health.hbmCe 1 else s.health.hbmCe
      sramCe := if ownerHbm o then s.health.sramCe else inc48 s.health.sramCe 1 } : Health).offRows := by
  refine (rowError_offRows _ _ _).trans ?_
  cases ownerHbm o <;> rfl

theorem scrub_known {o : MemOwner} {loc : Nat} (h : s.health.poison.contains (o, loc) = true) : scrub o loc true s = s := by
  unfold scrub
  dsimp only
  rw [if_neg (by decide), if_pos h]

/-- The state in which an uncorrectable error is counted and its word poisonMarked. -/
def poisonMarked (o : MemOwner) (loc : Nat) (s : State) : State :=
  evD (modHealth (modHealth (memErr s (if ownerHbm o then 3 else 1))
    (fun h => if ownerHbm o then { h with hbmUe := inc48 h.hbmUe 1 } else { h with sramUe := inc48 h.sramUe 1 }))
    (fun h => { h with poison := h.poison ++ [(o, loc)] })) 0xE01 ((if ownerHbm o then 2 else 1) * 2 ^ 28 + loc % 2 ^ 28) 0 0

theorem scrub_bad {o : MemOwner} {loc : Nat} (h : s.health.poison.contains (o, loc) = false) :
    scrub o loc true s = lostWord (startRow (poisonMarked o loc s) (ownerHbm o) loc true) o := by
  unfold scrub
  dsimp only
  rw [if_neg (by decide), if_neg (by rw [h]; decide)]
  rfl

theorem scrub_uncorrectable {o : MemOwner} {loc : Nat} (h : s.health.poison.contains (o, loc) = false) :
    (scrub o loc true s).health.offRows = ({ s.health with
      memErr := setBit s.health.memErr (if ownerHbm o then 3 else 1) true, poison := s.health.poison ++ [(o, loc)]
      hbmUe := if ownerHbm o then inc48 s.health.hbmUe 1 else s.health.hbmUe
      sramUe := if ownerHbm o then s.health.sramUe else inc48 s.health.sramUe 1 } : Health).offRows := by
  rw [scrub_bad h, lostWord_health, startRow_offRows]
  unfold poisonMarked
  cases ownerHbm o <;> rfl

/-- A queue whose context is lost no longer runs. -/
def ctxLost (x : Queue) : Queue :=
  { x with ctx := x.ctx.map (fun (c : QCtx) => { c with state := 4 }), next := x.next.map (fun (c : QCtx) => { c with state := 4 }) }

theorem scrub_queueCtx {q loc : Nat} {x : Queue} (hx : tget s.queues q = some x) (h : s.health.poison.contains (.queueCtx q, loc) = false) :
    (scrub (.queueCtx q) loc true s).halted q (ctxLost x) := by
  rw [scrub_bad h]
  refine ⟨?_, ?_⟩
  · have hq : (startRow (poisonMarked (.queueCtx q) loc s) (ownerHbm (.queueCtx q)) loc true).queues = s.queues := startRow_queues _ _ _ _
    refine (tget_tmod_self _ q ctxLost).trans ?_
    rw [hq, hx]
    rfl
  · unfold running ctxLost
    cases x.ctx <;> simp

/-! ### Telemetry (18 R354, R359) -/

theorem gridStep_health (i d : Nat) (s : State) : (gridStep i d s).health = s.health := by
  unfold gridStep advanceTo advance
  dsimp only
  split
  · split <;> rfl
  · rfl

theorem gridStep_tarn (i d : Nat) (s : State) : (gridStep i d s).tarn = s.tarn := by
  unfold gridStep advanceTo advance
  dsimp only
  split
  · split <;> rfl
  · rfl

@[simp] theorem askWeir_health (s : State) (c n : Nat) (w : WeirWhat) : (askWeir s c n w).health = s.health :=
  (congrArg State.health (askWeir_offPwr s c n w) :)

/-- The health record without the wear triggers. -/
def Health.offTriggers (h : Health) : Health := { h with wear := [] }

theorem wearTrigger_offTriggers (s : State) (d : Nat) : (wearTrigger s d).health.offTriggers = s.health.offTriggers := by
  unfold wearTrigger
  dsimp only
  split
  · split <;> rfl
  · split
    · split
      · rw [askWeir_health]
      · rfl
    · split
      · split
        · rw [askWeir_health]
        · rfl
      · rfl

/-- A Tarn core whose cluster has its spare left and no wear trigger yet. -/
theorem wearTrigger_core {d : Nat} (hd : d < 272) (hcore : d % 17 < 16) (hleft : tarnSpareLeft s (d / 17) = true)
    (hfailed : s.tarn.failed.contains d = false) (hwear : s.health.wear.any (fun x => x / 17 == d / 17) = false) :
    (wearTrigger s d).health.wear = s.health.wear ++ [d] := by
  unfold wearTrigger
  dsimp only
  rw [if_pos hd, if_pos ⟨hcore, hleft, by rw [hfailed]; rfl, by rw [hwear]; rfl⟩]
  rfl

/-- A margin below the limit is held, counted and reported. -/
def marginLow (s : State) (d ps : Nat) : State :=
  evD (modHealth s (fun h => { h with margins := tset h.margins d ps, low := tset h.low d (tgetD s.health.low d 0 + 1) })) 0xE04 d 0 ps

theorem readMargin_low {d ps : Nat} (h : ps < s.health.marginMin) :
    readMargin s d ps = if 10 ≤ tgetD s.health.low d 0 + 1 then wearTrigger (marginLow s d ps) d else marginLow s d ps :=
  if_neg (not_le.mpr h)

theorem readMargin_low_offTriggers {d ps : Nat} (h : ps < s.health.marginMin) :
    (readMargin s d ps).health.offTriggers = (marginLow s d ps).health.offTriggers := by
  rw [readMargin_low h]
  split
  · exact wearTrigger_offTriggers _ _
  · rfl

theorem readMargin_kept (s : State) (d ps : Nat) :
    (readMargin s d ps).health.temps = s.health.temps ∧ tgetD (readMargin s d ps).health.margins d 0 = ps := by
  by_cases h : ps < s.health.marginMin
  · have e := readMargin_low_offTriggers (d := d) h
    refine ⟨(congrArg Health.temps e :), ?_⟩
    rw [show (readMargin s d ps).health.margins = tset s.health.margins d ps from congrArg Health.margins e, tgetD_tset_self]
  · have e : readMargin s d ps = _ := if_pos (not_lt.mp h)
    rw [e]
    exact ⟨rfl, tgetD_tset_self _ _ _ _⟩

/-- The state in which a tick has taken the temperatures. -/
def ticked (temps : List Int) (s : State) : State := modHealth (logSummary (gridStep 4 1200000000 s)) (fun h => { h with temps := temps })

theorem telemetry_one (d ps : Nat) (temps : List Int) (s : State) : telemetry [(d, ps)] temps s = readMargin (ticked temps s) d ps := by
  unfold telemetry ticked
  generalize gridStep 4 1200000000 s = u
  dsimp only
  rw [List.foldl_cons, List.foldl_nil]

theorem modHealth_tarn (s : State) (f : Health → Health) : (modHealth s f).tarn = s.tarn := rfl

theorem temps_offLog {h k : Health} (e : h.offLog = k.offLog) (temps : List Int) :
    ({ h with temps := temps } : Health).offLog = ({ k with temps := temps } : Health).offLog :=
  congrArg (fun h : Health => { h with temps := temps }) e

theorem ticked_offLog (temps : List Int) (s : State) : (ticked temps s).health.offLog = ({ s.health with temps := temps } : Health).offLog := by
  refine temps_offLog ?_ temps
  rw [logSummary_offLog, gridStep_health]

theorem ticked_tarn (temps : List Int) (s : State) : (ticked temps s).tarn = s.tarn := by
  rw [ticked, modHealth_tarn, logSummary_tarn, gridStep_tarn]

/-! ### Bank spares (18 R359, R360) -/

theorem mem_insertReq (r : WeirReq) (l : List WeirReq) : r ∈ insertReq r l := by
  induction l with
  | nil => exact List.mem_cons_self
  | cons x xs ih =>
    unfold insertReq
    split
    · exact List.mem_cons_self
    · exact List.mem_cons_of_mem _ ih

theorem askWeir_asks {n : Nat} {w : WeirWhat} (h : s.pwr.weirQ.any (·.what == w) = false) : (⟨0, n, w⟩ : WeirReq) ∈ (askWeir s 0 n w).pwr.weirQ := by
  unfold askWeir
  rw [if_neg (by rw [h]; decide)]
  exact mem_insertReq _ _

/-- A request that waits for Weir is one of the requests that make its kind of bank busy. -/
theorem not_asked_of_idle {eddy : Bool} {w : WeirWhat} (h : bankBusy s eddy = false)
    (hw : (match w with | .eddyBank _ | .eddyFault _ => eddy | .poolBank _ | .poolFault _ => !eddy | _ => false) = true) :
    s.pwr.weirQ.any (·.what == w) = false := by
  obtain ⟨hasked, _⟩ := Bool.or_eq_false_iff.mp h
  refine List.any_eq_false.mpr fun r hr hrw => ?_
  refine List.any_eq_false.mp hasked r hr ?_
  rw [eq_of_beq hrw]
  exact hw

theorem fromReserve_at_once {n : Nat} {w : WeirWhat} {f : State → State} (h : s.pwr.resUsed + n ≤ tripGet s .reserve) :
    fromReserve s n w f = f { s with pwr := { s.pwr with resUsed := s.pwr.resUsed + n, credits := s.pwr.credits + n } } := if_pos h

theorem fromReserve_asks {n : Nat} {w : WeirWhat} {f : State → State} (h : tripGet s .reserve < s.pwr.resUsed + n) :
    fromReserve s n w f = askWeir s 0 n w := if_neg (not_le.mpr h)

theorem eddyServes_of_health {u : State} (h : u.health = s.health) (b : Nat) : eddyServes u b = eddyServes s b := by
  unfold eddyServes
  rw [h]

theorem poolServes_of_health {u : State} (h : u.health = s.health) (b : Nat) : poolServes u b = poolServes s b := by
  unfold poolServes
  rw [h]

theorem eddyServes_replaced {b : Nat} (h : s.health.eddyRep = some b) : eddyServes s b = false := by
  simp [eddyServes, h]

theorem eddyServes_dead {b : Nat} (h : b ∈ s.health.eddyDead) : eddyServes s b = false := by
  simp [eddyServes, h]

theorem poolServes_replaced {b : Nat} (h : s.health.poolRep = some b) : poolServes s b = false := by
  simp [poolServes, h]

theorem poolServes_dead {b : Nat} (h : b ∈ s.health.poolDead) : poolServes s b = false := by
  simp [poolServes, h]

/-- The bank counts and the health record, which shedding a tenant leaves alone. -/
def State.banks (s : State) : Nat × Nat × Health := (s.eddyBanks, s.poolBanks, s.health)

theorem setRole_banks (s : State) (r : Nat) : (setRole s r).banks = s.banks := by
  simp [State.banks, setRole, apply_ite State.eddyBanks, apply_ite State.poolBanks, apply_ite State.health, evD, modTwin]

theorem unfit_banks (s : State) : (unfit s).banks = s.banks := by
  unfold unfit
  split
  · exact setRole_banks s 4
  · rfl

theorem twinBlockFault_banks (s : State) : (twinBlockFault s).banks = s.banks := by
  unfold twinBlockFault yieldNow
  split
  · rfl
  · split <;> rfl

theorem finish_banks (s : State) (p : PendCmd) (status aux : Nat) : (finish s p status aux).banks = s.banks :=
  (congrArg State.banks (finish_tables s p status aux) :)

theorem followAll_banks (s : State) (t : Nat) : (followAll s t).banks = s.banks := by
  unfold followAll
  dsimp only
  refine (foldl_keeps State.banks (by intros; rfl) _ _).trans ?_
  refine (foldl_keeps State.banks (by intros; rfl) _ _).trans ?_
  exact foldl_keeps State.banks (fun s p => finish_banks s p 0x0601 0) _ _

theorem eddyDegrade_banks (s : State) (b : Nat) :
    (eddyDegrade s b).banks = (s.eddyBanks - 1, s.poolBanks, { s.health with eddyDead := s.health.eddyDead ++ [b] }) := by
  unfold eddyDegrade
  dsimp only
  refine (unfit_banks _).trans ((twinBlockFault_banks _).trans ?_)
  exact foldl_keeps State.banks followAll_banks _ _

theorem poolDegrade_banks (s : State) (b : Nat) :
    (poolDegrade s b).banks = (s.eddyBanks, s.poolBanks - 1, { s.health with poolDead := s.health.poolDead ++ [b] }) := by
  unfold poolDegrade
  dsimp only
  refine (unfit_banks _).trans ((twinBlockFault_banks _).trans ?_)
  exact foldl_keeps State.banks (by intros; rfl) _ _

theorem residueFail_eddy_gone {b : Nat} (h : eddyServes s b = false) : residueFail 2 b s = s := if_pos (by simp [h])
theorem residueFail_pool_gone {b : Nat} (h : poolServes s b = false) : residueFail 3 b s = s := if_pos (by simp [h])

theorem residueFail_eddy_waits {b : Nat} (h : eddyServes s b = true) (hb : bankBusy s true = true) :
    residueFail 2 b s = modHealth s (fun h => { h with trigs := h.trigs ++ [(2, b)] }) :=
  (if_neg (by simp [h])).trans (if_pos hb)
theorem residueFail_pool_waits {b : Nat} (h : poolServes s b = true) (hb : bankBusy s false = true) :
    residueFail 3 b s = modHealth s (fun h => { h with trigs := h.trigs ++ [(3, b)] }) :=
  (if_neg (by simp [h])).trans (if_pos hb)

theorem residueFail_eddy {b : Nat} (h : eddyServes s b = true) (hb : bankBusy s true = false) :
    residueFail 2 b s = if s.health.eddyRep.isSome then eddyDegrade s b else fromReserve s 3 (.eddyFault b) (fun s => eddyTakes s b) :=
  (if_neg (by simp [h])).trans ((if_neg (by simp [hb])).trans (if_pos rfl))
theorem residueFail_pool {b : Nat} (h : poolServes s b = true) (hb : bankBusy s false = false) :
    residueFail 3 b s = if s.health.poolRep.isSome then poolDegrade s b else fromReserve s 2 (.poolFault b) (fun s => poolTakes s b) :=
  (if_neg (by simp [h])).trans ((if_neg (by simp [hb])).trans (if_neg (by decide)))

/-! ### Rows (18 R349, R350) -/

/-- A row whose replacement is under way is taken off the list, with the errors charged to it. -/
def rowTaken (hbm : Bool) (row : Nat) (s : State) : State :=
  modHealth s (fun h => { h with
    rowWait := h.rowWait.filter (fun w => !(w.1 == hbm && w.2.1 == row)), rowErrs := h.rowErrs.filter (fun e => e.1 != 2 * row + b2n hbm) })

theorem rowDone_other {hbm : Bool} {row : Nat} (h : (s.health.rowWait.find? (fun w => w.1 == hbm)).map (·.2.1) ≠ some row) : rowDone hbm row s = s := by
  unfold rowDone
  split
  · rfl
  next first fault hf =>
    rw [hf] at h
    exact if_pos (by simpa using h)

theorem rowDone_first {hbm : Bool} {row : Nat} (h : (s.health.rowWait.find? (fun w => w.1 == hbm)).map (·.2.1) = some row) :
    ∃ fault, rowDone hbm row s = spareInserted (rowTaken hbm row s) (if hbm then 5 else 4) row (b2n fault) := by
  obtain ⟨⟨k, first, fault⟩, hf, rfl⟩ := Option.map_eq_some_iff.mp h
  refine ⟨fault, ?_⟩
  unfold rowDone
  rw [hf]
  exact if_neg (by simp)

/-! ### The wear pass (18 R356, R357) -/

/-- A weak line is counted and rewritten in place. -/
def rewriteLine (s : State) (n : Nat) : State :=
  writeBlock (n / 64 % 16384) 1 (modHealth (memErr s 4) (fun h => { h with lkbCe := inc48 h.lkbCe 1 }))

/-- The block of a failed line is retired. -/
def retireLine (s : State) (n : Nat) : State := retireBlock (n / 64 % 16384) s

theorem wearPass_eq (weak failed : List Nat) (s : State) : wearPass weak failed s = failed.foldl retireLine (weak.foldl rewriteLine s) := rfl

theorem rewriteLine_offLog (s : State) (n : Nat) :
    (rewriteLine s n).health.offLog = ({ s.health with lkbCe := inc48 s.health.lkbCe 1 } : Health).offLog := writeBlock_offLog _ _ _

theorem rewriteLines_lkbCe : ∀ (l : List Nat) (s : State), (l.foldl rewriteLine s).health.lkbCe = l.foldl (fun n _ => inc48 n 1) s.health.lkbCe := by
  intro l
  induction l with
  | nil => exact fun _ => rfl
  | cons n l ih =>
    intro s
    refine (ih _).trans ?_
    rw [show (rewriteLine s n).health.lkbCe = inc48 s.health.lkbCe 1 from (congrArg Health.lkbCe (rewriteLine_offLog s n) :)]
    rfl

theorem rewriteLines_store (l : List Nat) (s : State) : (l.foldl rewriteLine s).health.store = s.health.store :=
  foldl_keeps (fun s : State => s.health.store) (fun s n => (congrArg Health.store (rewriteLine_offLog s n) :)) l s

theorem retireLines_offLog (l : List Nat) (s : State) : (l.foldl retireLine s).health.offLog = s.health.offLog :=
  foldl_keeps (fun s : State => s.health.offLog) (fun s n => retireBlock_offLog (n / 64 % 16384) s) l s

theorem rewriteLine_marked {b : Nat} (n : Nat) (h : (memErr s 4).marked b) : (rewriteLine s n).marked b :=
  State.marked.writeBlock (s := modHealth (memErr s 4) (fun h => { h with lkbCe := inc48 h.lkbCe 1 })) h _ _

theorem retireLine_marked {b : Nat} (n : Nat) (h : (memErr s 5).marked b) : (retireLine s n).marked b := h.retireBlock _

theorem rewriteLines_marked {b : Nat} : ∀ (l : List Nat) {s : State}, s.marked b → (l.foldl rewriteLine s).marked b := by
  intro l
  induction l with
  | nil => exact fun h => h
  | cons n l ih => exact fun h => ih (rewriteLine_marked n (h.memErr 4))

theorem retireLines_marked {b : Nat} : ∀ (l : List Nat) {s : State}, s.marked b → (l.foldl retireLine s).marked b := by
  intro l
  induction l with
  | nil => exact fun h => h
  | cons n l ih => exact fun h => ih (retireLine_marked n (h.memErr 5))

theorem wearPass_weak {weak : List Nat} (h : weak ≠ []) (failed : List Nat) (s : State) : (wearPass weak failed s).marked 4 := by
  obtain ⟨n, l, rfl⟩ := List.exists_cons_of_ne_nil h
  exact retireLines_marked _ (rewriteLines_marked l (rewriteLine_marked n (marked_memErr s 4)))

theorem wearPass_failed {failed : List Nat} (h : failed ≠ []) (weak : List Nat) (s : State) : (wearPass weak failed s).marked 5 := by
  obtain ⟨n, l, rfl⟩ := List.exists_cons_of_ne_nil h
  exact retireLines_marked l (retireLine_marked n (marked_memErr _ 5))

end Sys2Proof.Machine
end

section
/-! Memory errors and spares (18): the rows of the step, and what they leave. -/
namespace Sys2Proof.Machine

variable {s : State}

theorem exec_scrubRead (hstart : s.clk.started = true) (o : MemOwner) (loc : Nat) (bad raced : Bool) :
    exec (.scrubRead o loc bad raced) s = .next (settled s (scrub o loc bad (begun s))) := runBase_of_started hstart _
theorem exec_telemetryTick (hstart : s.clk.started = true) (margins : List (Nat × Nat)) (temps : List Int) :
    exec (.telemetryTick margins temps) s = .next (settled s (telemetry margins temps (begun s))) := runBase_of_started hstart _
theorem exec_residueCheckFail (hrun : s.clk.running = true) (kind b : Nat) :
    exec (.residueCheckFail kind b) s = .next (settled s (residueFail kind b (begun s))) := runMere_of_running hrun _
theorem exec_rowReplaceDone (hstart : s.clk.started = true) (hbm : Bool) (row : Nat) :
    exec (.rowReplaceDone hbm row) s = .next (settled s (rowDone hbm row (begun s))) := runBase_of_started hstart _
theorem exec_lakebedWearPass (hstart : s.clk.started = true) (weak failed : List Nat) :
    exec (.lakebedWearPass weak failed) s = .next (settled s (wearPass weak failed (begun s))) := runBase_of_started hstart _

@[simp] theorem eddyServes_settled (s u : State) (b : Nat) : eddyServes (settled s u) b = eddyServes u b := eddyServes_of_health (settled_health s u) b
@[simp] theorem poolServes_settled (s u : State) (b : Nat) : poolServes (settled s u) b = poolServes u b := poolServes_of_health (settled_health s u) b

/-! ### Memory errors -/

theorem scrubRead_corrected (hstart : s.clk.started = true) (o : MemOwner) (loc : Nat) (raced : Bool) :
    ∃ t, exec (.scrubRead o loc false raced) s = .next t ∧ t.health.poison = s.health.poison
      ∧ t.health.hbmCe = (if ownerHbm o then inc48 s.health.hbmCe 1 else s.health.hbmCe)
      ∧ t.health.sramCe = (if ownerHbm o then s.health.sramCe else inc48 s.health.sramCe 1)
      ∧ bit t.health.memErr (if ownerHbm o then 2 else 0) = true := by
  have e := scrub_corrected (s := begun s) o loc
  refine ⟨_, exec_scrubRead hstart o loc false raced, ?_⟩
  rw [settled_health]
  refine ⟨(congrArg Health.poison e :), (congrArg Health.hbmCe e :), (congrArg Health.sramCe e :), ?_⟩
  rw [show (scrub o loc false (begun s)).health.memErr = setBit s.health.memErr (if ownerHbm o then 2 else 0) true from (congrArg Health.memErr e :)]
  simp [bit_setBit]

theorem scrubRead_uncorrectable (hstart : s.clk.started = true) {o : MemOwner} {loc : Nat} (h : s.health.poison.contains (o, loc) = false) (raced : Bool) :
    ∃ t, exec (.scrubRead o loc true raced) s = .next t ∧ t.health.poison = s.health.poison ++ [(o, loc)]
      ∧ t.health.hbmUe = (if ownerHbm o then inc48 s.health.hbmUe 1 else s.health.hbmUe)
      ∧ t.health.sramUe = (if ownerHbm o then s.health.sramUe else inc48 s.health.sramUe 1)
      ∧ bit t.health.memErr (if ownerHbm o then 3 else 1) = true := by
  have e := scrub_uncorrectable (s := begun s) h
  refine ⟨_, exec_scrubRead hstart o loc true raced, ?_⟩
  rw [settled_health]
  refine ⟨(congrArg Health.poison e :), (congrArg Health.hbmUe e :), (congrArg Health.sramUe e :), ?_⟩
  rw [show (scrub o loc true (begun s)).health.memErr = setBit s.health.memErr (if ownerHbm o then 3 else 1) true from (congrArg Health.memErr e :)]
  simp [bit_setBit]

theorem scrubRead_queue (hstart : s.clk.started = true) {q loc : Nat} {x : Queue} {c : QCtx} (hx : tget s.queues q = some x) (hc : x.ctx = some c)
    (h : s.health.poison.contains (.queueCtx q, loc) = false) :
    ∃ t y, exec (.scrubRead (.queueCtx q) loc true false) s = .next t ∧ tget t.queues q = some y ∧ y.ctx.map (·.state) = some 4 := by
  obtain ⟨hq, _⟩ := (scrub_queueCtx (s := begun s) hx h).settled s
  exact ⟨_, _, exec_scrubRead hstart _ loc true false, hq, by simp [ctxLost, hc]⟩

/-! ### Margins -/

theorem offLog_fields {h k : Health} (e : h.offLog = k.offLog) :
    h.marginMin = k.marginMin ∧ h.low = k.low ∧ h.wear = k.wear ∧ h.temps = k.temps :=
  ⟨(congrArg Health.marginMin e :), (congrArg Health.low e :), (congrArg Health.wear e :), (congrArg Health.temps e :)⟩

theorem ticked_fields (temps : List Int) (s : State) :
    (ticked temps s).health.marginMin = s.health.marginMin ∧ (ticked temps s).health.low = s.health.low
      ∧ (ticked temps s).health.wear = s.health.wear ∧ (ticked temps s).health.temps = temps := by
  obtain ⟨hmin, hlow, hwear, htemps⟩ := offLog_fields (ticked_offLog temps s)
  exact ⟨hmin, hlow, hwear, htemps⟩

theorem readMargin_counted {d ps : Nat} (h : ps < s.health.marginMin) :
    tgetD (readMargin s d ps).health.low d 0 = tgetD s.health.low d 0 + 1 := by
  rw [show (readMargin s d ps).health.low = tset s.health.low d (tgetD s.health.low d 0 + 1) from
    congrArg Health.low (readMargin_low_offTriggers (d := d) h), tgetD_tset_self]

/-- The tenth margin in a row below the limit is a wear trigger of a core whose spare is left. -/
theorem readMargin_tenth {d ps : Nat} (h : ps < s.health.marginMin) (hnine : 9 ≤ tgetD s.health.low d 0) (hd : d < 272) (hcore : d % 17 < 16)
    (hleft : tarnSpareLeft s (d / 17) = true) (hfailed : s.tarn.failed.contains d = false)
    (hwear : s.health.wear.any (fun x => x / 17 == d / 17) = false) : (readMargin s d ps).health.wear = s.health.wear ++ [d] := by
  rw [readMargin_low h, if_pos (by omega)]
  exact wearTrigger_core (s := marginLow s d ps) hd hcore hleft hfailed hwear

theorem tarnSpareLeft_of_tarn {u : State} (h : u.tarn = s.tarn) (c : Nat) : tarnSpareLeft u c = tarnSpareLeft s c := by
  unfold tarnSpareLeft
  rw [h]

theorem telemetryTick_spec (hstart : s.clk.started = true) (d ps : Nat) (temps : List Int) :
    ∃ t, exec (.telemetryTick [(d, ps)] temps) s = .next t ∧ t.health.temps = temps ∧ tgetD t.health.margins d 0 = ps
      ∧ (ps < s.health.marginMin → tgetD t.health.low d 0 = tgetD s.health.low d 0 + 1)
      ∧ (ps < s.health.marginMin → 9 ≤ tgetD s.health.low d 0 → d < 272 → d % 17 < 16 → tarnSpareLeft s (d / 17) = true → s.tarn.failed.contains d = false →
          s.health.wear.any (fun x => x / 17 == d / 17) = false → t.health.wear = s.health.wear ++ [d]) := by
  obtain ⟨hmin, hlow, hwear, htemps⟩ := ticked_fields temps (begun s)
  have htarn := ticked_tarn temps (begun s)
  refine ⟨_, exec_telemetryTick hstart _ temps, ?_⟩
  rw [settled_health, telemetry_one]
  generalize ticked temps (begun s) = u at hmin hlow hwear htemps htarn
  change _ = s.health.marginMin at hmin
  change _ = s.health.low at hlow
  change _ = s.health.wear at hwear
  change _ = s.tarn at htarn
  obtain ⟨ht, hm⟩ := readMargin_kept u d ps
  rw [← hmin, ← hlow, ← hwear, ← htarn]
  exact ⟨ht.trans htemps, hm, readMargin_counted, fun hps hnine hd hcore hleft hfailed hany =>
    readMargin_tenth hps hnine hd hcore ((tarnSpareLeft_of_tarn htarn _).trans hleft) hfailed hany⟩

/-! ### Bank failures -/

theorem banks_fields {u : State} {m n : Nat} {h : Health} (e : u.banks = (m, n, h)) : u.eddyBanks = m ∧ u.poolBanks = n ∧ u.health = h := by
  simpa [State.banks] using e

theorem eddyFail_gone (hrun : s.clk.running = true) {b : Nat} (h : eddyServes s b = false) :
    exec (.residueCheckFail 2 b) s = .next (settled s (begun s)) := by
  rw [exec_residueCheckFail hrun, residueFail_eddy_gone (s := begun s) h]

theorem poolFail_gone (hrun : s.clk.running = true) {b : Nat} (h : poolServes s b = false) :
    exec (.residueCheckFail 3 b) s = .next (settled s (begun s)) := by
  rw [exec_residueCheckFail hrun, residueFail_pool_gone (s := begun s) h]

theorem eddyFail_replaced (hrun : s.clk.running = true) {b : Nat} (h : eddyServes s b = true) (hb : bankBusy s true = false)
    (hrep : s.health.eddyRep = none) (hres : s.pwr.resUsed + 3 ≤ tripGet s .reserve) :
    ∃ t, exec (.residueCheckFail 2 b) s = .next t ∧ t.health.eddyRep = some b ∧ eddyServes t b = false ∧ t.eddyBanks = s.eddyBanks
      ∧ (2, b) ∈ t.health.repair := by
  refine ⟨_, exec_residueCheckFail hrun 2 b, ?_⟩
  rw [residueFail_eddy (s := begun s) h hb, if_neg (by exact (by simp [hrep] : ¬ s.health.eddyRep.isSome = true)), fromReserve_at_once (s := begun s) hres]
  rw [settled_health, settled_eddyBanks, eddyServes_settled]
  exact ⟨rfl, eddyServes_replaced rfl, rfl, List.mem_append_right _ (List.mem_singleton.mpr rfl)⟩

theorem poolFail_replaced (hrun : s.clk.running = true) {b : Nat} (h : poolServes s b = true) (hb : bankBusy s false = false)
    (hrep : s.health.poolRep = none) (hres : s.pwr.resUsed + 2 ≤ tripGet s .reserve) :
    ∃ t, exec (.residueCheckFail 3 b) s = .next t ∧ t.health.poolRep = some b ∧ poolServes t b = false ∧ t.poolBanks = s.poolBanks
      ∧ (3, b) ∈ t.health.repair := by
  refine ⟨_, exec_residueCheckFail hrun 3 b, ?_⟩
  rw [residueFail_pool (s := begun s) h hb, if_neg (by exact (by simp [hrep] : ¬ s.health.poolRep.isSome = true)), fromReserve_at_once (s := begun s) hres]
  rw [settled_health, settled_poolBanks, poolServes_settled]
  exact ⟨rfl, poolServes_replaced rfl, rfl, List.mem_append_right _ (List.mem_singleton.mpr rfl)⟩

theorem eddyFail_asks (hrun : s.clk.running = true) {b : Nat} (h : eddyServes s b = true) (hb : bankBusy s true = false)
    (hrep : s.health.eddyRep = none) (hres : tripGet s .reserve < s.pwr.resUsed + 3) :
    ∃ t, exec (.residueCheckFail 2 b) s = .next t ∧ ⟨0, 3, .eddyFault b⟩ ∈ t.pwr.weirQ := by
  refine ⟨_, exec_residueCheckFail hrun 2 b, ?_⟩
  rw [residueFail_eddy (s := begun s) h hb, if_neg (by exact (by simp [hrep] : ¬ s.health.eddyRep.isSome = true)), fromReserve_asks (s := begun s) hres,
    settled_pwr]
  exact askWeir_asks (not_asked_of_idle (s := begun s) hb rfl)

theorem poolFail_asks (hrun : s.clk.running = true) {b : Nat} (h : poolServes s b = true) (hb : bankBusy s false = false)
    (hrep : s.health.poolRep = none) (hres : tripGet s .reserve < s.pwr.resUsed + 2) :
    ∃ t, exec (.residueCheckFail 3 b) s = .next t ∧ ⟨0, 2, .poolFault b⟩ ∈ t.pwr.weirQ := by
  refine ⟨_, exec_residueCheckFail hrun 3 b, ?_⟩
  rw [residueFail_pool (s := begun s) h hb, if_neg (by exact (by simp [hrep] : ¬ s.health.poolRep.isSome = true)), fromReserve_asks (s := begun s) hres,
    settled_pwr]
  exact askWeir_asks (not_asked_of_idle (s := begun s) hb rfl)

theorem eddyFail_degrades (hrun : s.clk.running = true) {b : Nat} (h : eddyServes s b = true) (hb : bankBusy s true = false)
    (hrep : s.health.eddyRep ≠ none) :
    ∃ t, exec (.residueCheckFail 2 b) s = .next t ∧ t.eddyBanks = s.eddyBanks - 1 ∧ eddyServes t b = false := by
  obtain ⟨he, _, hh⟩ := banks_fields (eddyDegrade_banks (begun s) b)
  refine ⟨_, exec_residueCheckFail hrun 2 b, ?_⟩
  rw [residueFail_eddy (s := begun s) h hb, if_pos (by exact Option.isSome_iff_ne_none.mpr hrep), settled_eddyBanks, eddyServes_settled]
  refine ⟨he, eddyServes_dead ?_⟩
  rw [hh]
  exact List.mem_append_right _ (List.mem_singleton.mpr rfl)

theorem poolFail_degrades (hrun : s.clk.running = true) {b : Nat} (h : poolServes s b = true) (hb : bankBusy s false = false)
    (hrep : s.health.poolRep ≠ none) :
    ∃ t, exec (.residueCheckFail 3 b) s = .next t ∧ t.poolBanks = s.poolBanks - 1 ∧ poolServes t b = false := by
  obtain ⟨_, hp, hh⟩ := banks_fields (poolDegrade_banks (begun s) b)
  refine ⟨_, exec_residueCheckFail hrun 3 b, ?_⟩
  rw [residueFail_pool (s := begun s) h hb, if_pos (by exact Option.isSome_iff_ne_none.mpr hrep), settled_poolBanks, poolServes_settled]
  refine ⟨hp, poolServes_dead ?_⟩
  rw [hh]
  exact List.mem_append_right _ (List.mem_singleton.mpr rfl)

/-! ### Rows, the wear pass, retirement -/

theorem rowReplaceDone_first (hstart : s.clk.started = true) {hbm : Bool} {row : Nat}
    (h : (s.health.rowWait.find? (fun w => w.1 == hbm)).map (·.2.1) = some row) :
    ∃ t, exec (.rowReplaceDone hbm row) s = .next t ∧ t.health.repair = s.health.repair ++ [(if hbm then 5 else 4, row)]
      ∧ t.health.rowWait.find? (fun w => w.1 == hbm && w.2.1 == row) = none ∧ bit t.health.memErr 6 = true := by
  obtain ⟨fault, e⟩ := rowDone_first (s := begun s) h
  refine ⟨_, exec_rowReplaceDone hstart hbm row, ?_⟩
  rw [settled_health, e]
  refine ⟨rfl, ?_, marked_memErr _ 6⟩
  refine List.find?_eq_none.mpr fun w hw hp => ?_
  have hw' := (List.mem_filter.mp hw).2
  rw [hp] at hw'
  cases hw'

theorem lakebedWearPass_spec (hstart : s.clk.started = true) (weak failed : List Nat) :
    ∃ t, exec (.lakebedWearPass weak failed) s = .next t ∧ t.health.lkbCe = weak.foldl (fun n _ => inc48 n 1) s.health.lkbCe
      ∧ t.health.store = s.health.store ∧ (weak ≠ [] → bit t.health.memErr 4 = true) ∧ (failed ≠ [] → bit t.health.memErr 5 = true) := by
  have e := retireLines_offLog failed (weak.foldl rewriteLine (begun s))
  refine ⟨_, exec_lakebedWearPass hstart weak failed, ?_⟩
  rw [settled_health]
  refine ⟨?_, ?_, fun h => wearPass_weak h failed _, fun h => wearPass_failed h weak _⟩
  · exact (congrArg Health.lkbCe e :).trans (rewriteLines_lkbCe weak _)
  · exact (congrArg Health.store e :).trans (rewriteLines_store weak _)

theorem retireBlock_with_spare (l : Nat) (h : s.health.lkbSpares ≠ 0) :
    (retireBlock l s).health.lkbSpares = s.health.lkbSpares - 1 ∧ physBlock (retireBlock l s).health l = 16384 - s.health.lkbSpares
      ∧ ∀ m, m ≠ l → physBlock (retireBlock l s).health m = physBlock s.health m := by
  obtain ⟨hn, hmap⟩ := retireBlock_map (l := l) h
  unfold physBlock
  rw [hmap]
  exact ⟨hn, tgetD_tset_self _ _ _ _, fun m hm => tgetD_tset_ne _ _ _ hm⟩

/-- Settles O55. When an error is charged to its row, what a margin triggers, when a failed bank waits and when a failed line's block is
retired are the model's choices (log entries 80, 79, 81, 39). -/
theorem memoryErrorsAndSpares : Obligations.MemoryErrorsAndSpares := by
  unfold Obligations.MemoryErrorsAndSpares
  intro s hstart hrun idle h
  refine ⟨fun o loc raced => ⟨scrubRead_corrected hstart o loc raced, fun hp => ?_, fun hp => scrubRead_uncorrectable hstart hp raced⟩,
    fun q x c loc hx hc hp => scrubRead_queue hstart hx hc hp, fun d ps temps => telemetryTick_spec hstart d ps temps,
    fun b => ⟨fun hb => eddyFail_gone hrun hb, fun hb => poolFail_gone hrun hb, fun hb hw => ?_, fun hb hw => ?_,
      fun hb hw => ⟨fun hr hl => eddyFail_replaced hrun hb hw hr hl, fun hr hl => eddyFail_asks hrun hb hw hr hl, fun hr => eddyFail_degrades hrun hb hw hr⟩,
      fun hb hw => ⟨fun hr hl => poolFail_replaced hrun hb hw hr hl, fun hr hl => poolFail_asks hrun hb hw hr hl, fun hr => poolFail_degrades hrun hb hw hr⟩⟩,
    fun hbm row => ⟨fun hr => ?_, fun hr => rowReplaceDone_first hstart hr⟩, fun weak failed => lakebedWearPass_spec hstart weak failed,
    fun l => ⟨fun hn => retireBlock_with_spare l hn, fun hn => ?_⟩⟩
  · rw [exec_scrubRead hstart, scrub_known (s := begun s) hp]
  · rw [exec_residueCheckFail hrun, residueFail_eddy_waits (s := begun s) hb hw]
    rfl
  · rw [exec_residueCheckFail hrun, residueFail_pool_waits (s := begun s) hb hw]
    rfl
  · rw [exec_rowReplaceDone hstart, rowDone_other (s := begun s) hr]
  · rw [retireBlock_exhausted hn]
    exact ⟨rfl, fun m => rfl⟩

end Sys2Proof.Machine
end

section
/-! Weir (19 R363, R364): what a window admits, and what may draw on its credits. -/
namespace Sys2Proof.Machine

variable {s : State}

/-! ### Admission -/

/-- The credits that a request may bring the window to. -/
def creditLimit (budget reserve : Nat) (r : WeirReq) : Nat := if r.cls = 0 then budget else budget - reserve

theorem weirAdmit_fits {b r used : Nat} {x : WeirReq} {xs : List WeirReq} (h : used + x.credits ≤ creditLimit b r x) :
    weirAdmit b r used (x :: xs)
      = ((weirAdmit b r (used + x.credits) xs).1, (weirAdmit b r (used + x.credits) xs).2.1, x.what :: (weirAdmit b r (used + x.credits) xs).2.2) :=
  if_pos h

theorem weirAdmit_stops {b r used : Nat} {x : WeirReq} {xs : List WeirReq} (h : ¬ used + x.credits ≤ creditLimit b r x) :
    weirAdmit b r used (x :: xs) = (x :: xs, used, []) := if_neg h

theorem creditLimit_le (b r : Nat) (x : WeirReq) : creditLimit b r x ≤ b := by
  unfold creditLimit
  split
  · exact le_rfl
  · exact Nat.sub_le b r

/-- What is admitted stands at the front of the queue, within BUDGET; the head of the rest does not fit. -/
theorem weirAdmit_spec (b r : Nat) : ∀ (q : List WeirReq) (used : Nat), used ≤ b →
    used ≤ (weirAdmit b r used q).2.1 ∧ (weirAdmit b r used q).2.1 ≤ b
      ∧ q.map (·.what) = (weirAdmit b r used q).2.2 ++ (weirAdmit b r used q).1.map (·.what)
      ∧ (q.all (fun e => e.cls != 0) = true → (weirAdmit b r used q).2.1 ≤ max used (b - r))
      ∧ ∀ h, (weirAdmit b r used q).1.head? = some h → creditLimit b r h < (weirAdmit b r used q).2.1 + h.credits := by
  intro q
  induction q with
  | nil => exact fun used hu => ⟨le_rfl, hu, rfl, fun _ => le_max_left _ _, fun _ h => by cases h⟩
  | cons x xs ih =>
    intro used hu
    by_cases hfit : used + x.credits ≤ creditLimit b r x
    · obtain ⟨hlow, hhigh, hpre, hcls, hhead⟩ := ih (used + x.credits) (hfit.trans (creditLimit_le b r x))
      rw [weirAdmit_fits hfit]
      dsimp only
      refine ⟨by omega, hhigh, by rw [List.map_cons, hpre]; rfl, fun hall => ?_, hhead⟩
      obtain ⟨hx, hxs⟩ := Bool.and_eq_true_iff.mp hall
      rw [creditLimit, if_neg (by simpa using hx)] at hfit
      have := hcls hxs
      omega
    · rw [weirAdmit_stops hfit]
      dsimp only
      exact ⟨le_rfl, hu, rfl, fun _ => le_max_left _ _, fun h hh => by cases hh; omega⟩

/-! ### What a window starts leaves its credits -/

/-- The limits in force, the credits admitted, and the state of a commit. -/
def State.weir (s : State) : Bool × Bool × Nat × Nat × Nat × Nat :=
  (s.pwr.commit, s.pwr.commitErr, s.pwr.credits, s.pwr.resUsed, tripGet s .budget, tripGet s .reserve)

theorem weir_congr {u : State} (hp : u.pwr = s.pwr) (hv : u.votes = s.votes) : u.weir = s.weir := by
  unfold State.weir
  rw [hp, tripGet_congr hv, tripGet_congr hv]

theorem askWeir_weir (s : State) (c n : Nat) (w : WeirWhat) : (askWeir s c n w).weir = s.weir := by
  unfold askWeir
  split <;> rfl

theorem setDomain_weir (s : State) (d v : Nat) : (setDomain s d v).weir = s.weir := weir_congr rfl rfl

theorem modHealth_weir (s : State) (f : Health → Health) : (modHealth s f).weir = s.weir := weir_congr rfl rfl

theorem spareInserted_weir (s : State) (kind unit cause : Nat) : (spareInserted s kind unit cause).weir = s.weir := weir_congr rfl rfl

theorem finish_weir (s : State) (p : PendCmd) (status aux : Nat) : (finish s p status aux).weir = s.weir :=
  weir_congr (congrArg State.pwr (finish_tables s p status aux) :) (congrArg State.votes (finish_tables s p status aux) :)

theorem finishAll_weir (l : List PendCmd) (st aux : Nat) (s : State) : (l.foldl (fun s p => finish s p st aux) s).weir = s.weir :=
  foldl_keeps State.weir (fun s p => finish_weir s p st aux) l s

theorem taskLoaded_weir (s : State) (n : Nat) : (taskLoaded s n).weir = s.weir :=
  foldl_keeps State.weir (fun s p => finish_weir s p 0 _) _ s

theorem clusterAwake_weir (s : State) (c : Nat) : (clusterAwake s c).weir = s.weir := by
  unfold clusterAwake
  refine (foldl_keeps State.weir (fun s (e : Nat × Task) => taskLoaded_weir s e.1) _ _).trans ?_
  refine foldl_keeps State.weir (fun s d => ?_) _ _
  split
  · exact setDomain_weir _ _ _
  · rfl

theorem eddyTakes_weir (s : State) (b : Nat) : (eddyTakes s b).weir = s.weir := by
  rw [eddyTakes, spareInserted_weir, setDomain_weir, modHealth_weir]

theorem poolTakes_weir (s : State) (b : Nat) : (poolTakes s b).weir = s.weir := by
  rw [poolTakes, spareInserted_weir, setDomain_weir, modHealth_weir]

theorem eddyWear_weir (s : State) (b : Nat) : (eddyWear s b).weir = s.weir := by
  unfold eddyWear eddyMoved
  split
  · rfl
  · split
    · rw [spareInserted_weir, setDomain_weir, setDomain_weir, modHealth_weir]
    · rw [setDomain_weir, modHealth_weir]

theorem poolWear_weir (s : State) (b : Nat) : (poolWear s b).weir = s.weir := by
  unfold poolWear poolMoved
  split
  · rfl
  · split
    · rw [spareInserted_weir, setDomain_weir, setDomain_weir, modHealth_weir]
    · rw [setDomain_weir, modHealth_weir]

theorem gateAdmit_weir (s : State) (d v : Nat) : (gateAdmit s d v).weir = s.weir := finishAll_weir _ _ _ _

/-- What starts with its admission draws no further credits. -/
theorem weirStart_weir (s : State) (w : WeirWhat) : (weirStart s w).weir = s.weir := by
  cases w with
  | eddyFault b => exact eddyTakes_weir s b
  | poolFault b => exact poolTakes_weir s b
  | cluster c => exact clusterAwake_weir s c
  | eddyBank b => exact eddyWear_weir s b
  | poolBank b => exact poolWear_weir s b
  | serdes g =>
    refine foldl_keeps State.weir (fun s i => ?_) _ s
    split <;> rfl
  | hbmExit => rfl
  | lakebed n =>
    unfold weirStart
    dsimp only
    split
    · exact askWeir_weir _ _ _ _
    · rfl
  | gate d v => exact gateAdmit_weir s d v

theorem weirStarts_weir (ws : List WeirWhat) (s : State) : (ws.foldl weirStart s).weir = s.weir := foldl_keeps State.weir weirStart_weir ws s

/-! ### What a failed bank draws (18 R360, 19 R364) -/

theorem tripGet_setRole {f : TripField} (hr : f ≠ .role) (ho : f ≠ .own) (r : Nat) : tripGet (setRole s r) f = tripGet s f := by
  unfold setRole
  by_cases h : role s = r
  · exact congrArg (tripGet · f) (if_pos h)
  · refine (congrArg (tripGet · f) (if_neg h)).trans ?_
    refine (tripGet_congr (s := if r = 2 then tripSet s .role r else tripSet (tripSet s .role r) .own 0) rfl f).trans ?_
    split
    · rw [tripGet_tripSet, if_neg hr]
    · rw [tripGet_tripSet, if_neg ho, tripGet_tripSet, if_neg hr]

theorem setRole_pwr (s : State) (r : Nat) : (setRole s r).pwr = s.pwr := by
  simp [setRole, apply_ite State.pwr, evD, modTwin]

theorem setRole_weir (s : State) (r : Nat) : (setRole s r).weir = s.weir := by
  unfold State.weir
  rw [setRole_pwr, tripGet_setRole (by decide) (by decide), tripGet_setRole (by decide) (by decide)]

theorem unfit_weir (s : State) : (unfit s).weir = s.weir := by
  unfold unfit
  split
  · exact setRole_weir s 4
  · rfl

theorem twinBlockFault_weir (s : State) : (twinBlockFault s).weir = s.weir := by
  unfold twinBlockFault yieldNow
  split
  · rfl
  · split <;> rfl

theorem followAll_weir (s : State) (t : Nat) : (followAll s t).weir = s.weir := by
  unfold followAll
  dsimp only
  refine (foldl_keeps State.weir (by intros; rfl) _ _).trans ?_
  refine (foldl_keeps State.weir (by intros; rfl) _ _).trans ?_
  exact finishAll_weir _ _ _ _

theorem eddyDegrade_weir (s : State) (b : Nat) : (eddyDegrade s b).weir = s.weir := by
  unfold eddyDegrade
  dsimp only
  refine (unfit_weir _).trans ((twinBlockFault_weir _).trans ?_)
  exact foldl_keeps State.weir followAll_weir _ _

theorem poolDegrade_weir (s : State) (b : Nat) : (poolDegrade s b).weir = s.weir := by
  unfold poolDegrade
  dsimp only
  refine (unfit_weir _).trans ((twinBlockFault_weir _).trans ?_)
  exact foldl_keeps State.weir (by intros; rfl) _ _

/-- `n` credits from RESERVE. -/
def State.drawing (s : State) (n : Nat) : State :=
  { s with pwr := { s.pwr with resUsed := s.pwr.resUsed + n, credits := s.pwr.credits + n } }

/-- What a failed bank draws comes from RESERVE, while it lasts. -/
theorem fromReserve_weir {n : Nat} {w : WeirWhat} {f : State → State} (hf : ∀ u, (f u).weir = u.weir) :
    (fromReserve s n w f).weir = s.weir ∨ s.pwr.resUsed + n ≤ tripGet s .reserve ∧ (fromReserve s n w f).weir = (s.drawing n).weir := by
  by_cases h : s.pwr.resUsed + n ≤ tripGet s .reserve
  · rw [fromReserve_at_once h]
    exact .inr ⟨h, hf _⟩
  · rw [fromReserve_asks (not_le.mp h)]
    exact .inl (askWeir_weir _ _ _ _)

theorem residueFail_weir (kind b : Nat) (s : State) :
    (residueFail kind b s).weir = s.weir ∨ ∃ n, s.pwr.resUsed + n ≤ tripGet s .reserve ∧ (residueFail kind b s).weir = (s.drawing n).weir := by
  unfold residueFail
  split
  · exact .inl rfl
  · split
    · exact .inl rfl
    · split
      · split
        · exact .inl (eddyDegrade_weir s b)
        · exact (fromReserve_weir (fun u => eddyTakes_weir u b)).imp_right fun h => ⟨3, h⟩
      · split
        · exact .inl (poolDegrade_weir s b)
        · exact (fromReserve_weir (fun u => poolTakes_weir u b)).imp_right fun h => ⟨2, h⟩

/-- The limits are `b` and `r`, and what has been admitted stays within BUDGET: without RESERVE but for what was drawn from it. -/
def State.inBudget (s : State) (b r : Nat) : Prop :=
  tripGet s .budget = b ∧ tripGet s .reserve = r ∧ (r ≤ b → s.pwr.credits ≤ b ∧ s.pwr.credits + r ≤ b + s.pwr.resUsed)

theorem weir_fields {u : State} (h : u.weir = s.weir) :
    u.pwr.commit = s.pwr.commit ∧ u.pwr.commitErr = s.pwr.commitErr ∧ u.pwr.credits = s.pwr.credits ∧ u.pwr.resUsed = s.pwr.resUsed
      ∧ tripGet u .budget = tripGet s .budget ∧ tripGet u .reserve = tripGet s .reserve := by
  simpa [State.weir] using h

theorem inBudget_of_weir {u : State} {b r : Nat} (h : u.weir = s.weir) (hs : s.inBudget b r) : u.inBudget b r := by
  obtain ⟨-, -, hc, hu, hb, hr⟩ := weir_fields h
  unfold State.inBudget
  rw [hc, hu, hb, hr]
  exact hs

theorem inBudget_drawing {b r n : Nat} (hn : s.pwr.resUsed + n ≤ tripGet s .reserve) (hs : s.inBudget b r) : (s.drawing n).inBudget b r := by
  obtain ⟨hb, hr, hle⟩ := hs
  refine ⟨hb, hr, fun h => ?_⟩
  obtain ⟨h1, h2⟩ := hle h
  rw [hr] at hn
  change s.pwr.credits + n ≤ b ∧ s.pwr.credits + n + r ≤ b + (s.pwr.resUsed + n)
  omega

/-- What the window's triggers keep. -/
def State.windowKept (s : State) (c e : Bool) (b r : Nat) : Prop := s.pwr.commit = c ∧ s.pwr.commitErr = e ∧ s.inBudget b r

theorem residueFail_windowKept {c e : Bool} {b r : Nat} (kind bank : Nat) (h : s.windowKept c e b r) : (residueFail kind bank s).windowKept c e b r := by
  obtain ⟨hc, he, hb⟩ := h
  obtain hw | ⟨n, hn, hw⟩ := residueFail_weir kind bank s
  · obtain ⟨hc', he', -⟩ := weir_fields hw
    exact ⟨hc'.trans hc, he'.trans he, inBudget_of_weir hw hb⟩
  · obtain ⟨hc', he', -⟩ := weir_fields hw
    exact ⟨hc'.trans hc, he'.trans he, inBudget_of_weir hw (inBudget_drawing hn hb)⟩

theorem trigs_windowKept {c e : Bool} {b r : Nat} : ∀ (l : List (Nat × Nat)) {s : State}, s.windowKept c e b r →
    (l.foldl (fun s x => residueFail x.1 x.2 s) s).windowKept c e b r := by
  intro l
  induction l with
  | nil => exact fun h => h
  | cons x l ih => exact fun h => ih (residueFail_windowKept _ _ h)

theorem trigsRun_windowKept {c e : Bool} {b r : Nat} (h : s.windowKept c e b r) : (trigsRun s).windowKept c e b r :=
  trigs_windowKept s.health.trigs (s := modHealth s (fun h => { h with trigs := [] })) h

/-! ### A window begins -/

/-- The state in which a window has admitted what fits. -/
def admitted (s : State) : State :=
  let x := weirAdmit (tripGet s .budget) (tripGet s .reserve) 0 s.pwr.weirQ
  modPwr s (fun p => { p with weirQ := x.1, credits := x.2.1, resUsed := x.2.1 - (tripGet s .budget - tripGet s .reserve) })

/-- The requests it has admitted. -/
def admittedWhat (s : State) : List WeirWhat := (weirAdmit (tripGet s .budget) (tripGet s .reserve) 0 s.pwr.weirQ).2.2

theorem weirWindow_eq (s : State) :
    weirWindow s = trigsRun ((admittedWhat (weirCommit (gridStep 2 12000 s))).foldl weirStart (admitted (weirCommit (gridStep 2 12000 s)))) := by
  unfold weirWindow
  generalize weirCommit (gridStep 2 12000 s) = u
  rfl

theorem admitted_windowKept (s : State) : (admitted s).windowKept s.pwr.commit s.pwr.commitErr (tripGet s .budget) (tripGet s .reserve) := by
  refine ⟨rfl, rfl, rfl, rfl, fun h => ?_⟩
  obtain ⟨-, hx, -⟩ := weirAdmit_spec (tripGet s .budget) (tripGet s .reserve) s.pwr.weirQ 0 (Nat.zero_le _)
  unfold admitted modPwr
  dsimp only
  omega

theorem weirWindow_windowKept {u : State} (hu : weirCommit (gridStep 2 12000 s) = u) :
    (weirWindow s).windowKept u.pwr.commit u.pwr.commitErr (tripGet u .budget) (tripGet u .reserve) := by
  rw [weirWindow_eq, hu]
  refine trigsRun_windowKept ?_
  have hw := weirStarts_weir (admittedWhat u) (admitted u)
  obtain ⟨hc, he, -⟩ := weir_fields hw
  obtain ⟨hc', he', hb⟩ := admitted_windowKept u
  exact ⟨hc.trans hc', he.trans he', inBudget_of_weir hw hb⟩

theorem gridStep_weir (i d : Nat) (s : State) : (gridStep i d s).weir = s.weir ∧ (gridStep i d s).votes = s.votes := by
  unfold gridStep advanceTo advance
  dsimp only
  split
  · split <;> exact ⟨rfl, rfl⟩
  · exact ⟨rfl, rfl⟩

/-! ### A commit (19 PWR_WEIR_CFG) -/

theorem weirCommit_idle (h : s.pwr.commit = false) : weirCommit s = s := if_pos (by simp [h])

theorem weirCommit_takes (h : s.pwr.commit = true) (hok : weirPairOk (tripGet s .budgetSt) (tripGet s .reserveSt) = true) :
    weirCommit s = tripSet (tripSet (modPwr s (fun p => { p with commit := false })) .budget (tripGet s .budgetSt)) .reserve (tripGet s .reserveSt) :=
  (if_neg (by simp [h])).trans (if_pos hok)

theorem weirCommit_refuses (h : s.pwr.commit = true) (hbad : weirPairOk (tripGet s .budgetSt) (tripGet s .reserveSt) = false) :
    weirCommit s = modPwr (modPwr s (fun p => { p with commit := false })) (fun p => { p with commitErr := true }) :=
  (if_neg (by simp [h])).trans (if_neg (by simp [hbad]))

/-- What a commit leaves of the limits. -/
theorem weirCommit_spec (s : State) : (weirCommit s).pwr.commit = false
    ∧ (tripGet s .reserve ≤ tripGet s .budget → tripGet (weirCommit s) .reserve ≤ tripGet (weirCommit s) .budget)
    ∧ (s.pwr.commit = true → weirPairOk (tripGet s .budgetSt) (tripGet s .reserveSt) = true →
        tripGet (weirCommit s) .budget = tripGet s .budgetSt ∧ tripGet (weirCommit s) .reserve = tripGet s .reserveSt)
    ∧ (s.pwr.commit = true → weirPairOk (tripGet s .budgetSt) (tripGet s .reserveSt) = false →
        (weirCommit s).pwr.commitErr = true ∧ tripGet (weirCommit s) .budget = tripGet s .budget)
    ∧ (s.pwr.commit = false → tripGet (weirCommit s) .budget = tripGet s .budget ∧ (weirCommit s).pwr.commitErr = s.pwr.commitErr) := by
  cases hc : s.pwr.commit with
  | false => rw [weirCommit_idle hc]; simp [hc]
  | true =>
    cases hp : weirPairOk (tripGet s .budgetSt) (tripGet s .reserveSt) with
    | false => rw [weirCommit_refuses hc hp]; simp [modPwr, tripGet]
    | true =>
      have hle : tripGet s .reserveSt ≤ tripGet s .budgetSt := by
        simp only [weirPairOk, Bool.and_eq_true, decide_eq_true_eq] at hp
        omega
      rw [weirCommit_takes hc hp]
      simp [tripGet_tripSet, hle, modPwr]

end Sys2Proof.Machine
end

section
/-! Power states (19 R365 to R368): the choice of a state, its entry, and the wake that ends it. -/
namespace Sys2Proof.Machine

variable {s : State}

/-! ### The choice (19 R365, R367) -/

theorem within_le (tol : Nat) : ∀ d, within tol d ≤ d := by
  intro d
  induction d with
  | zero => exact le_rfl
  | succ d ih =>
    unfold within
    split
    · exact le_rfl
    · exact ih.trans (Nat.le_succ d)

/-- A state that is chosen wakes within the tolerance. -/
theorem latency_within (tol : Nat) : ∀ d, 0 < within tol d → latency (within tol d) ≤ tol := by
  intro d
  induction d with
  | zero => exact fun h => absurd h (Nat.lt_irrefl 0)
  | succ d ih =>
    unfold within
    split
    next h => exact fun _ => h
    · exact ih

theorem deepest_spec (s : State) : (deepest s).1 ≤ 4 ∧ (deepest s).2 = { s with free := (deepest s).2.free } := by
  have hb : (drawBelow s 2).1 < 2 := Nat.mod_lt _ (by decide)
  unfold deepest
  split
  · exact ⟨by simp, rfl⟩
  · split
    · exact ⟨by simp, rfl⟩
    · refine ⟨?_, rfl⟩
      dsimp only
      omega

theorem choice_spec (s : State) : (choice s).1 ≤ 4 ∧ (0 < (choice s).1 → latency (choice s).1 ≤ (tolInForce s).1)
    ∧ (choice s).2 = { s with free := (choice s).2.free } := by
  obtain ⟨hd, hs⟩ := deepest_spec s
  have e : choice s = (within (tolInForce (deepest s).2).1 (deepest s).1, (deepest s).2) := rfl
  have ht : tolInForce (deepest s).2 = tolInForce s := by rw [hs]; rfl
  rw [e, ht]
  exact ⟨(within_le _ _).trans hd, latency_within _ _, hs⟩

/-! ### Entry and its end -/

theorem stateEntry_idle (h : s.ctl.stage ≠ 4 ∨ s.pwr.waking = true ∨ s.pwr.entering ≠ none) : stateEntry s = s :=
  if_pos (by rw [Option.isSome_iff_ne_none]; exact h)

theorem stateEntry_chooses (hstage : s.ctl.stage = 4) (hwake : s.pwr.waking = false) (hent : s.pwr.entering = none) :
    stateEntry s = if (choice s).2.pwr.state < (choice s).1 then modPwr (choice s).2 (fun p => { p with entering := some (choice s).1 }) else (choice s).2 :=
  if_neg (by simp [hstage, hwake, hent])

theorem stateEntry_spec (hstage : s.ctl.stage = 4) (hwake : s.pwr.waking = false) (hent : s.pwr.entering = none) :
    (stateEntry s).pwr.state = s.pwr.state ∧ ∀ n, (stateEntry s).pwr.entering = some n → s.pwr.state < n ∧ n ≤ 4 ∧ latency n ≤ (tolInForce s).1 := by
  obtain ⟨hmax, hlat, hs⟩ := choice_spec s
  have hp : (choice s).2.pwr = s.pwr := by rw [hs]
  rw [stateEntry_chooses hstage hwake hent]
  split
  next h =>
    rw [hp] at h
    refine ⟨by rw [modPwr, hp], fun n hn => ?_⟩
    obtain rfl : (choice s).1 = n := Option.some.inj hn
    exact ⟨h, hmax, hlat (Nat.zero_lt_of_lt h)⟩
  · refine ⟨by rw [hp], fun n hn => ?_⟩
    rw [hp, hent] at hn
    cases hn

theorem stateEntryDone_idle (h : s.pwr.entering = none) : stateEntryDone s = s := by
  unfold stateEntryDone
  simp only [h]

theorem stateEntryDone_pwr {n : Nat} (h : s.pwr.entering = some n) : (stateEntryDone s).pwr = { s.pwr with state := n, entering := none } := by
  unfold stateEntryDone
  simp only [h]
  split <;> rfl

/-! ### The wake -/

theorem wake_idle (h : (s.pwr.state = 0 ∧ s.pwr.entering = none) ∨ s.pwr.waking = true) : wake s = s := by
  refine if_neg ?_
  rcases h with ⟨h0, he⟩ | h
  · simp [h0, he]
  · simp [h]

/-- The state in which a wake has ended an entry and begun. -/
def wakeBegun (s : State) : State := { s with pwr := { s.pwr with waking := true, entering := none } }

theorem wake_begins (h : s.pwr.state ≠ 0 ∨ s.pwr.entering ≠ none) (hw : s.pwr.waking = false) :
    wake s = if 3 ≤ s.pwr.state then askWeir (wakeBegun s) 2 6 .hbmExit else wakeBegun s :=
  if_pos ⟨h, by simp [hw]⟩

theorem askWeir_pwr (s : State) (c n : Nat) (w : WeirWhat) : (askWeir s c n w).pwr.state = s.pwr.state
    ∧ (askWeir s c n w).pwr.waking = s.pwr.waking ∧ (askWeir s c n w).pwr.entering = s.pwr.entering := by
  unfold askWeir
  split <;> exact ⟨rfl, rfl, rfl⟩

theorem askWeir_queued (s : State) (c n : Nat) (w : WeirWhat) : (askWeir s c n w).pwr.weirQ.any (fun r => r.what == w) = true := by
  unfold askWeir
  split
  next h => exact h
  · exact List.any_eq_true.mpr ⟨_, mem_insertReq _ _, beq_self_eq_true w⟩

theorem wake_spec (h : s.pwr.state ≠ 0 ∨ s.pwr.entering ≠ none) (hw : s.pwr.waking = false) :
    (wake s).pwr.waking = true ∧ (wake s).pwr.entering = none ∧ (3 ≤ s.pwr.state → (wake s).pwr.weirQ.any (fun r => r.what == .hbmExit) = true) := by
  rw [wake_begins h hw]
  split
  · obtain ⟨-, hwake, hent⟩ := askWeir_pwr (wakeBegun s) 2 6 .hbmExit
    exact ⟨hwake, hent, fun _ => askWeir_queued _ _ _ _⟩
  next h3 => exact ⟨rfl, rfl, fun h => absurd h h3⟩

/-! ### The end of a wake -/

/-- The state without what the delivery of key states changes. -/
def State.offKeys (s : State) : State := { s with keys := [], tenants := [], evs := [] }

theorem keyChange_offKeys (s : State) (t src port node key : Nat) (held : Bool) (cause : Nat) :
    (keyChange s t src port node key held cause).offKeys = s.offKeys := by
  unfold keyChange
  dsimp only
  split <;> rfl

theorem deliverNode_offKeys (s : State) (p n cause : Nat) : (deliverNode s p n cause).offKeys = s.offKeys := by
  unfold deliverNode deliverKeys
  dsimp only
  refine foldl_keeps State.offKeys (fun s i => ?_) _ _
  split
  · rfl
  · exact keyChange_offKeys _ _ _ _ _ _ _ _

theorem deliverAll_offKeys (s : State) : (deliverAll s).offKeys = s.offKeys :=
  foldl_keeps State.offKeys (fun s (e : Nat × KeyNode) => deliverNode_offKeys s (e.1 / 256) (e.1 % 256) 0) s.keys s

theorem offKeys_fields {u v : State} (h : u.offKeys = v.offKeys) : u.pwr = v.pwr ∧ u.refs = v.refs ∧ u.tbs = v.tbs :=
  ⟨(congrArg State.pwr h :), (congrArg State.refs h :), (congrArg State.tbs h :)⟩

/-- The calibration of PLLs, the event and the delivery of key states at a wake. -/
def backInRun (old : Nat) (s : State) : State := deliverAll (evD (wakePlls s) 0xD01 0 old 0)

theorem backInRun_fields (old : Nat) (s : State) :
    (backInRun old s).pwr = s.pwr ∧ (backInRun old s).refs = s.refs ∧ (backInRun old s).tbs = s.tbs :=
  offKeys_fields (u := backInRun old s) (v := evD (wakePlls s) 0xD01 0 old 0) (deliverAll_offKeys _)

theorem takeCand_hist (s : State) (n : Nat) : ((takeCand s n).pwr, (takeCand s n).refs.hist) = (s.pwr, s.refs.hist) := by
  unfold takeCand
  dsimp only
  split
  · rfl
  · split <;> rfl

theorem holdover_hist (s : State) : ((holdover s).pwr, (holdover s).refs.hist) = (s.pwr, s.refs.hist) := by
  unfold holdover
  dsimp only
  split <;> rfl

theorem reselect_hist (s : State) (wtr : Bool) : ((reselect s wtr).pwr, (reselect s wtr).refs.hist) = (s.pwr, s.refs.hist) := by
  obtain h | h | ⟨n, h⟩ := reselect_cases s wtr
  · rw [h]
  · rw [h, holdover_hist]
  · rw [h, takeCand_hist]

theorem mereBack_hist (s : State) : (mereBack s).pwr = s.pwr ∧ (mereBack s).refs.hist = s.refs.hist := Prod.mk.inj (reselect_hist _ _)

/-- The state in which a wake has ended. -/
def wakeOver (s : State) : State := modPwr s (fun p => { p with state := 0, waking := false })

/-- What the end of Sleep does to the time bases and the holdover history. -/
def sleepOver (s : State) : State :=
  modHealth (mereBack (modRefs s (fun r => { r with hist := [], histSum := 0, histN := 0 }))) (fun h => { h with resume := false })

theorem wakeDone_idle (h : s.pwr.waking = false ∨ s.pwr.weirQ.any (fun r => r.cls == 1) = true) : wakeDone s = s :=
  if_pos (by simpa using h)

theorem wakeDone_ends (hw : s.pwr.waking = true) (hq : s.pwr.weirQ.any (fun r => r.cls == 1) = false) :
    wakeDone s = if s.pwr.state = 0 then wakeOver s
      else backInRun s.pwr.state (if s.pwr.state = 4 then sleepOver (wakeOver s) else wakeOver s) :=
  if_neg (by rw [hw, hq]; decide)

theorem sleepOver_pwr (s : State) : (sleepOver s).pwr = s.pwr := (mereBack_hist _).1

theorem sleepOver_hist (s : State) : (sleepOver s).refs.hist = [] := (mereBack_hist _).2

theorem sleepOver_invalid {k : Nat} {b : TimeBase} (h : tget (sleepOver s).tbs k = some b) : b.valid = false :=
  mereBack_invalid (modRefs s (fun r => { r with hist := [], histSum := 0, histN := 0 })) h

theorem wakeDone_spec (hw : s.pwr.waking = true) (hq : s.pwr.weirQ.any (fun r => r.cls == 1) = false) :
    (wakeDone s).pwr.state = 0 ∧ (wakeDone s).pwr.waking = false
      ∧ (s.pwr.state = 4 → (wakeDone s).refs.hist = [] ∧ ∀ k b, tget (wakeDone s).tbs k = some b → b.valid = false) := by
  rw [wakeDone_ends hw hq]
  split
  next h0 => exact ⟨rfl, rfl, fun h => absurd (h0.symm.trans h) (by decide)⟩
  · obtain ⟨hpwr, hrefs, htbs⟩ := backInRun_fields s.pwr.state (if s.pwr.state = 4 then sleepOver (wakeOver s) else wakeOver s)
    rw [hpwr, hrefs, htbs]
    split
    next h4 => exact ⟨by rw [sleepOver_pwr]; rfl, by rw [sleepOver_pwr]; rfl, fun _ => ⟨sleepOver_hist _, fun k b hb => sleepOver_invalid hb⟩⟩
    next h4 => exact ⟨rfl, rfl, fun h => absurd h h4⟩

/-! ### The rows of the step -/

theorem exec_weirWindow (hrun : s.clk.running = true) : exec .weirWindow s = .next (settled s (weirWindow (begun s))) := runMere_of_running hrun _
theorem exec_powerStateEntry (hstart : s.clk.started = true) : exec .powerStateEntry s = .next (settled s (stateEntry (begun s))) :=
  runBase_of_started hstart _
theorem exec_powerStateEntryDone (hstart : s.clk.started = true) : exec .powerStateEntryDone s = .next (settled s (stateEntryDone (begun s))) :=
  runBase_of_started hstart _
theorem exec_wakeEvent (k : Nat) : exec (.wakeEvent k) s = .next (settled s (wake (begun s))) := run_eq _ _
theorem exec_wakeDone (hstart : s.clk.started = true) : exec .wakeDone s = .next (settled s (wakeDone (begun s))) := runBase_of_started hstart _

/-- A write of PWR_WEIR_CFG stages its fields. -/
def weirStaged (v : Nat) (s : State) : State :=
  modPwr (tripSet (tripSet s .budgetSt (bits v 5 0)) .reserveSt (bits v 13 8)) (fun p => { p with commit := p.commit || bit v 16, commitErr := p.commitErr && !bit v 17 })

/-- Whether a write of PWR_WEIR_CFG sets a reserved bit. -/
def weirStray (v : Nat) : Prop := bits v 7 6 ≠ 0 ∨ bits v 15 14 ≠ 0 ∨ bits v 63 18 ≠ 0

theorem exec_weirCommitWrite_stray {v : BitVec 64} (h : weirStray v.toNat) : exec (.weirCommitWrite v) s = .fault (.reservedTestControl 0x070008) :=
  if_pos h

theorem exec_weirCommitWrite (hstart : s.clk.started = true) {v : BitVec 64} (h : ¬ weirStray v.toNat) :
    exec (.weirCommitWrite v) s = .next (settled s (weirStaged v.toNat (begun s))) :=
  (if_neg h).trans (runBase_of_started hstart _)

theorem weirStray_iff (v : BitVec 64) : weirStray v.toNat ↔ v.toNat / 2 ^ 6 % 4 ≠ 0 ∨ v.toNat / 2 ^ 14 % 4 ≠ 0 ∨ v.toNat / 2 ^ 18 ≠ 0 := by
  have h : v.toNat / 2 ^ 18 % 2 ^ 46 = v.toNat / 2 ^ 18 := Nat.mod_eq_of_lt (by have := v.isLt; omega)
  unfold weirStray bits
  simp only [Nat.reduceAdd, Nat.reduceSub, Nat.reducePow] at h ⊢
  rw [h]

theorem weirStaged_spec (v : BitVec 64) (s : State) : tripGet (weirStaged v.toNat s) .budgetSt = v.toNat % 64
    ∧ tripGet (weirStaged v.toNat s) .reserveSt = v.toNat / 2 ^ 8 % 64 ∧ (weirStaged v.toNat s).pwr.commit = (s.pwr.commit || v.getLsbD 16)
    ∧ tripGet (weirStaged v.toNat s) .budget = tripGet s .budget ∧ tripGet (weirStaged v.toNat s) .reserve = tripGet s .reserve := by
  have hv : ∀ f, tripGet (weirStaged v.toNat s) f = tripGet (tripSet (tripSet s .budgetSt (bits v.toNat 5 0)) .reserveSt (bits v.toNat 13 8)) f :=
    fun f => tripGet_congr rfl f
  refine ⟨?_, ?_, congrArg (s.pwr.commit || ·) (bit_toNat v 16), ?_, ?_⟩
  · rw [hv]; simp [tripGet_tripSet, bits]
  · rw [hv]; simp [tripGet_tripSet, bits]
  · rw [hv]; simp [tripGet_tripSet]
  · rw [hv]; simp [tripGet_tripSet]

theorem weirWindow_spec (hrun : s.clk.running = true) :
    ∃ t, exec .weirWindow s = .next t ∧ (tripGet s .reserve ≤ tripGet s .budget → t.pwr.credits ≤ tripGet t .budget) ∧ t.pwr.commit = false
      ∧ (s.pwr.commit = true → weirPairOk (tripGet s .budgetSt) (tripGet s .reserveSt) = true →
          tripGet t .budget = tripGet s .budgetSt ∧ tripGet t .reserve = tripGet s .reserveSt)
      ∧ (s.pwr.commit = true → weirPairOk (tripGet s .budgetSt) (tripGet s .reserveSt) = false → t.pwr.commitErr = true ∧ tripGet t .budget = tripGet s .budget)
      ∧ (s.pwr.commit = false → tripGet t .budget = tripGet s .budget ∧ t.pwr.commitErr = s.pwr.commitErr) := by
  obtain ⟨hw, hv⟩ := gridStep_weir 2 12000 (begun s)
  obtain ⟨hcommit, herr, -⟩ := weir_fields hw
  have htrip : ∀ f, tripGet (gridStep 2 12000 (begun s)) f = tripGet s f := tripGet_congr hv
  obtain ⟨hk, he, hb, hr, hle⟩ := weirWindow_windowKept (s := begun s) rfl
  have hspec := weirCommit_spec (gridStep 2 12000 (begun s))
  refine ⟨_, exec_weirWindow hrun, ?_⟩
  generalize weirWindow (begun s) = t at hk he hb hr hle ⊢
  generalize weirCommit (gridStep 2 12000 (begun s)) = u at hk he hb hr hle hspec
  simp only [htrip, hcommit, herr] at hspec
  rw [settled_pwr, tripGet_settled, tripGet_settled, hk, he, hb, hr]
  exact ⟨fun h => (hle (hspec.2.1 h)).1, hspec.1, hspec.2.2⟩

/-- Settles O56. That the bases lose VALID and the history is gone after Sleep, and that a staged pair out of range is refused at the window,
are the model's (log entries 85, 82); a reserved bit stops by name (log entry 47). -/
theorem powerStatesAndCredits : Obligations.PowerStatesAndCredits := by
  unfold Obligations.PowerStatesAndCredits
  refine ⟨fun b r used q h => weirAdmit_spec b r q used h, fun s => ?_⟩
  intro idle p
  refine ⟨weirWindow_spec, fun v => ⟨fun h => exec_weirCommitWrite_stray ((weirStray_iff v).mpr h), fun h hstart => ?_⟩, fun h => ?_,
    fun hstart hstage hwake hent => ?_, fun h => ?_, fun n hstart hent => ?_, fun k => ⟨fun h => ?_, fun h hwake => ?_⟩, fun h => ?_,
    fun hstart hwake hq => ?_⟩
  · refine ⟨_, exec_weirCommitWrite hstart (mt (weirStray_iff v).mp h), ?_⟩
    rw [tripGet_settled, tripGet_settled, tripGet_settled, tripGet_settled, settled_pwr]
    exact weirStaged_spec v (begun s)
  · exact runBase_of_idle (stateEntry_idle (s := begun s) h)
  · refine ⟨_, exec_powerStateEntry hstart, ?_⟩
    rw [settled_pwr]
    exact stateEntry_spec (s := begun s) hstage hwake hent
  · exact runBase_of_idle (stateEntryDone_idle (s := begun s) h)
  · refine ⟨_, exec_powerStateEntryDone hstart, ?_⟩
    rw [settled_pwr, stateEntryDone_pwr (s := begun s) hent]
    exact ⟨rfl, rfl⟩
  · rw [exec_wakeEvent, wake_idle (s := begun s) h]
  · refine ⟨_, exec_wakeEvent k, ?_⟩
    rw [settled_pwr]
    exact wake_spec (s := begun s) h hwake
  · exact runBase_of_idle (wakeDone_idle (s := begun s) h)
  · refine ⟨_, exec_wakeDone hstart, ?_⟩
    rw [settled_pwr, settled_refs, settled_tbs]
    exact wakeDone_spec (s := begun s) hwake hq

end Sys2Proof.Machine
end

section
/-! Resets (19 R370, 20 R384, 23 R410 to R419, 03 R67): what each clears and what it keeps. -/
namespace Sys2Proof.Machine

variable {s : State}

theorem run_gives {u : State} {f : State → State} (h : f (begun s) = u) : run s f = .next (settled s u) := by
  rw [run_eq, h]

theorem runBase_gives {u : State} {f : State → State} (hstart : s.clk.started = true) (h : f (begun s) = u) :
    runBase s f = .next (settled s u) := by
  rw [runBase_of_started hstart, h]

/-! ### A reset that a pin, a supply or a sensor holds -/

/-- After such a reset tenants, streams, queues, mailboxes and bindings are as after reset; the calendar, the Lakebed content and the images
are kept. -/
def Cleared (cause : Nat) (s t : State) : Prop :=
  t.dev.held = true ∧ t.dev.rstCause = 2 ^ cause ∧ t.tenants = [] ∧ t.streams = [] ∧ t.queues = State.reset.queues ∧ t.mbx = []
    ∧ t.votes = State.reset.votes ∧ t.tarn.cores = [] ∧ t.ctl.stage = 0 ∧ t.cal = s.cal ∧ t.health.store = s.health.store
    ∧ t.ctl.slots = s.ctl.slots ∧ t.ctl.preferred = s.ctl.preferred ∧ t.ctl.rollback = s.ctl.rollback

theorem cleared_settled {cause : Nat} {d : Dev} (hheld : d.held = true) (hcause : d.rstCause = 2 ^ cause) :
    Cleared cause s (settled s { holdReset cause (begun s) with dev := d }) := by
  obtain ⟨-, hq, -⟩ := settled_quiet s ({ holdReset cause (begun s) with dev := d }) rfl
  refine ⟨?_, ?_, ?_, ?_, hq, ?_, ?_, ?_, ?_, ?_, ?_, ?_, ?_, ?_⟩
  · rw [settled_dev_held]; exact hheld
  · rw [settled_dev_rstCause]; exact hcause
  · rw [settled_tenants]; rfl
  · rw [settled_streams]; rfl
  · rw [settled_mbx]; rfl
  · rw [settled_votes]; rfl
  · rw [settled_tarn]; rfl
  · rw [settled_ctl_stage]; rfl
  · rw [settled_cal]; rfl
  · rw [settled_health]; rfl
  · rw [settled_ctl_slots]; rfl
  · rw [settled_ctl_preferred]; rfl
  · rw [settled_ctl_rollback]; rfl

theorem holdReset_cleared (cause : Nat) (s : State) : Cleared cause s (settled s (holdReset cause (begun s))) :=
  cleared_settled (d := (holdReset cause (begun s)).dev) rfl rfl

theorem thermalTrip_cleared (s : State) : Cleared 0 s (settled s (thermalTrip (begun s))) :=
  cleared_settled (d := (thermalTrip (begun s)).dev) rfl rfl

theorem exec_powerOnReset : exec .powerOnReset s = .next (settled s (holdReset 0 (begun s))) := run_eq _ _
theorem exec_resetNLow : exec .resetNLow s = .next (settled s (holdReset 1 (begun s))) := run_eq _ _
theorem exec_thermalTrip (n : Nat) : exec (.thermalTrip n) s = .next (settled s (thermalTrip (begun s))) :=
  run_eq s (fun s => thermalTrip s)

theorem exec_supplyDrop {n : Nat} (h : n < 6) : exec (.supplyDrop n) s = .next (settled s (holdReset 0 (begun s))) :=
  run_gives (if_pos h)

theorem exec_supplyDrop_other {n : Nat} (h : 6 ≤ n) : exec (.supplyDrop n) s = .next (settled s (begun s)) :=
  run_gives (if_neg (not_lt.mpr h))

/-! ### Release of reset, and a reset that starts over by itself -/

theorem applyStraps_alone {v : Nat} (h : bits v 4 3 = 0) :
    applyStraps v s = modClk { s with dev := { s.dev with straps := v } } (fun c => { c with auto := bit v 2 }) := if_pos h

theorem applyStraps_halt {v : Nat} (h : bits v 4 3 = 3) :
    applyStraps v s = { modClk { s with dev := { s.dev with straps := v } } (fun c => { c with auto := bit v 2 }) with
      dev := { s.dev with straps := v, bootHalt := true }, ctl := { s.ctl with stage := 15 } } :=
  (if_neg (by show bits v 4 3 ≠ 0; omega)).trans (if_pos h)

theorem applyStraps_pair {v : Nat} (h : bits v 4 3 = 1 ∨ bits v 4 3 = 2) :
    applyStraps v s = tripSet (modClk { s with dev := { s.dev with straps := v } } (fun c => { c with auto := bit v 2 })) .role 1 :=
  (if_neg (by show bits v 4 3 ≠ 0; omega)).trans (if_neg (by show bits v 4 3 ≠ 3; omega))

theorem strapped_id (v : Nat) : bits v 4 3 = 0 ∨ (bits v 4 3 = 1 ∨ bits v 4 3 = 2) ∨ bits v 4 3 = 3 := by
  have : bits v 4 3 < 4 := Nat.mod_lt _ (by decide)
  omega

/-- The straps, the gating mode, and the rest of the state but for the role and what the boot shows. -/
theorem applyStraps_spec (v : Nat) (s : State) :
    (applyStraps v s).dev.straps = v ∧ (applyStraps v s).clk.auto = bit v 2 ∧ (applyStraps v s).dev.held = s.dev.held
      ∧ (applyStraps v s).dev.rstCause = s.dev.rstCause ∧ (applyStraps v s).tenants = s.tenants ∧ (applyStraps v s).streams = s.streams
      ∧ (applyStraps v s).cal = s.cal ∧ (applyStraps v s).health = s.health := by
  rcases strapped_id v with h | h | h
  · rw [applyStraps_alone h]; exact ⟨rfl, rfl, rfl, rfl, rfl, rfl, rfl, rfl⟩
  · rw [applyStraps_pair h]; exact ⟨rfl, rfl, rfl, rfl, rfl, rfl, rfl, rfl⟩
  · rw [applyStraps_halt h]; exact ⟨rfl, rfl, rfl, rfl, rfl, rfl, rfl, rfl⟩

theorem resetRelease_held {v : Nat} (h : s.dev.held = false ∨ s.dev.thermal = true) : resetRelease v s = s := if_pos (by simpa using h)

theorem resetRelease_samples {v : Nat} (h : s.dev.held = true) (ht : s.dev.thermal = false) :
    resetRelease v s = applyStraps v { s with dev := { s.dev with held := false } } := if_neg (by simp [h, ht])

theorem exec_resetRelease (v : BitVec 9) : exec (.resetRelease v) s = .next (settled s (resetRelease v.toNat (begun s))) := run_eq _ _

theorem resetRelease_spec (v : BitVec 9) (hheld : s.dev.held = true) (hth : s.dev.thermal = false) :
    ∃ t, exec (.resetRelease v) s = .next t ∧ t.dev.straps = v.toNat ∧ t.dev.held = false ∧ t.clk.auto = bit v.toNat 2
      ∧ (bits v.toNat 4 3 = 0 → t.votes = s.votes) ∧ (bits v.toNat 4 3 = 1 ∨ bits v.toNat 4 3 = 2 → tripGet t .role = 1)
      ∧ (bits v.toNat 4 3 = 3 → t.dev.bootHalt = true ∧ t.dev.faultN = false) := by
  obtain ⟨hstraps, hauto, hh, -⟩ := applyStraps_spec v.toNat { begun s with dev := { s.dev with held := false } }
  refine ⟨_, exec_resetRelease v, ?_⟩
  rw [resetRelease_samples (s := begun s) hheld hth]
  refine ⟨(settled_dev_straps _ _).trans hstraps, (settled_dev_held _ _).trans hh, ?_, fun h => ?_, fun h => ?_, fun h => ?_⟩
  · rw [settled_clk]; exact hauto
  · rw [settled_votes, applyStraps_alone h]; rfl
  · rw [tripGet_settled, applyStraps_pair h, tripGet_tripSet, if_pos rfl]
  · rw [settled_dev_bootHalt, settled_faultN, applyStraps_halt h]
    exact ⟨rfl, by simp [faultPin]⟩

/-- A reset that starts over by itself ends under the straps sampled before. -/
theorem restart_spec (cause : Nat) (s : State) :
    (settled s (restart cause (begun s))).dev.rstCause = 2 ^ cause ∧ (settled s (restart cause (begun s))).tenants = []
      ∧ (settled s (restart cause (begun s))).streams = [] ∧ (settled s (restart cause (begun s))).cal = s.cal
      ∧ (settled s (restart cause (begun s))).dev.straps = s.dev.straps
      ∧ (settled s (restart cause (begun s))).health.store = s.health.store := by
  obtain ⟨hstraps, -, -, hcause, hten, hstr, hcal, hh⟩ := applyStraps_spec s.dev.straps (resetDevice cause (begun s))
  rw [settled_dev_rstCause, settled_tenants, settled_streams, settled_cal, settled_dev_straps, settled_health]
  exact ⟨hcause, hten, hstr, hcal, hstraps, (congrArg Health.store hh : _)⟩

/-! ### Host-port and function-level resets (03 R67, 19 R370) -/

/-- The state without what the loss of a function's rings changes. -/
def State.offRings (s : State) : State := { s with tenants := [], queues := [], ctl := { s.ctl with removed := [] } }

theorem noteRemoved_offRings (s : State) (o : Obj) : (noteRemoved s o).offRings = s.offRings := rfl
theorem modTenant_offRings (s : State) (t : Nat) (f : Tenant → Tenant) : (modTenant s t f).offRings = s.offRings := rfl

theorem dropQueue_offRings (s : State) (k : Nat) : (dropQueue s k).offRings = s.offRings := by
  unfold dropQueue freeQueue refund
  cases tget s.queues k with
  | none => rfl
  | some q =>
    dsimp only
    rw [modTenant_offRings, noteRemoved_offRings, noteRemoved_offRings]
    rfl

theorem dropQueues_offRings (l : List (Nat × Queue)) (s : State) : (l.foldl (fun s p => dropQueue s p.1) s).offRings = s.offRings :=
  foldl_keeps State.offRings (fun s (p : Nat × Queue) => dropQueue_offRings s p.1) l s

theorem dropRings_offRings (s : State) (t : Nat) : (dropRings s t).offRings = s.offRings := by
  unfold dropRings
  dsimp only
  refine (dropQueues_offRings _ _).trans ?_
  split <;> rfl

theorem dropQueue_other {j k : Nat} (h : k ≠ j) (s : State) : tget (dropQueue s j).queues k = tget s.queues k := by
  unfold dropQueue freeQueue
  cases tget s.queues j with
  | none => rfl
  | some q => exact tget_tdel_ne _ h

theorem dropQueues_other {k : Nat} : ∀ (l : List (Nat × Queue)) (s : State), (∀ p ∈ l, p.1 ≠ k) →
    tget (l.foldl (fun s p => dropQueue s p.1) s).queues k = tget s.queues k := by
  intro l
  induction l with
  | nil => exact fun _ _ => rfl
  | cons p l ih =>
    intro s h
    exact (ih _ fun x hx => h x (List.mem_cons_of_mem _ hx)).trans (dropQueue_other (h p List.mem_cons_self).symm s)

/-- The rings and event queues of a tenant go, and no other queue. -/
theorem dropRings_other {t k : Nat} (h : ∀ e ∈ s.queues, e.1 = k → e.2.tenant ≠ t ∨ e.2.typ ≤ 4) :
    tget (dropRings s t).queues k = tget s.queues k := by
  have hq : (if thas s.tenants t then closeInput s t (fun r => r.kind == 2) else s).queues = s.queues := by split <;> rfl
  unfold dropRings
  dsimp only
  rw [hq]
  refine (dropQueues_other _ _ fun p hp hk => ?_).trans (congrArg (tget · k) hq)
  obtain ⟨hmem, hcond⟩ := List.mem_filter.mp hp
  simp only [Bool.and_eq_true, beq_iff_eq, decide_eq_true_eq] at hcond
  rcases h p hmem hk with h | h
  · exact h hcond.1
  · omega

theorem offRings_fields {u : State} (h : u.offRings = s.offRings) :
    u.mbx = s.mbx ∧ u.streams = s.streams ∧ u.netPorts = s.netPorts ∧ u.lps = s.lps ∧ u.votes = s.votes ∧ u.cal = s.cal ∧ u.dev = s.dev
      ∧ u.ctl.hostUp = s.ctl.hostUp :=
  ⟨(congrArg State.mbx h :), (congrArg State.streams h :), (congrArg State.netPorts h :), (congrArg State.lps h :), (congrArg State.votes h :),
    (congrArg State.cal h :), (congrArg State.dev h :), (congrArg (·.ctl.hostUp) h :)⟩

/-- What a reset of mailboxes leaves. -/
def State.offMailboxes (s : State) : State := { s with mbx := [], ctl := {} }

theorem resetMailbox_offMailboxes (s : State) (mb : Nat) : (resetMailbox s mb).offMailboxes = s.offMailboxes := rfl

/-- The state in which the host's mailboxes are reset and the host is down. -/
def hostGone (s : State) : State :=
  let s := (s.mbx.filter (fun p => decide (p.1 ≤ 512))).foldl (fun s p => resetMailbox s p.1) s
  { s with ctl := { s.ctl with pend := s.ctl.pend.map (fun (p : PendCmd) => if p.mb ≤ 512 then { p with mute := true } else p), hostUp := false } }

theorem hostGone_offMailboxes (s : State) : (hostGone s).offMailboxes = s.offMailboxes :=
  foldl_keeps State.offMailboxes (fun s (p : Nat × Mbx) => resetMailbox_offMailboxes s p.1) _ s

theorem offMailboxes_fields {u : State} (h : u.offMailboxes = s.offMailboxes) :
    u.streams = s.streams ∧ u.netPorts = s.netPorts ∧ u.lps = s.lps ∧ u.votes = s.votes ∧ u.cal = s.cal ∧ u.dev = s.dev :=
  ⟨(congrArg State.streams h :), (congrArg State.netPorts h :), (congrArg State.lps h :), (congrArg State.votes h :),
    (congrArg State.cal h :), (congrArg State.dev h :)⟩

/-- The rings of every tenant, then PF0's, are gone. -/
def ringsGone (s : State) : State :=
  let s := s.tenants.foldl (fun s p => dropRings s p.1) s
  (s.queues.filter (fun p => decide (5 ≤ p.2.typ))).foldl (fun s p => dropQueue s p.1) s

theorem ringsGone_offRings (s : State) : (ringsGone s).offRings = s.offRings :=
  (dropQueues_offRings _ _).trans (foldl_keeps State.offRings (fun s (p : Nat × Tenant) => dropRings_offRings s p.1) _ s)

theorem hostPortReset_eq (s : State) : hostPortReset s = { ringsGone (hostGone s) with fns := [] } := rfl

theorem hostReset_spec (cause : Nat) (s : State) :
    (hostReset cause s).fns = [] ∧ (hostReset cause s).ctl.hostUp = false ∧ (hostReset cause s).dev.rstCause = setBit s.dev.rstCause cause true
      ∧ (hostReset cause s).streams = s.streams ∧ (hostReset cause s).netPorts = s.netPorts ∧ (hostReset cause s).lps = s.lps
      ∧ (hostReset cause s).votes = s.votes ∧ (hostReset cause s).cal = s.cal := by
  obtain ⟨-, hstr, hnet, hlps, hvotes, hcal, hdev, hup⟩ := offRings_fields (ringsGone_offRings (hostGone s))
  obtain ⟨hstr', hnet', hlps', hvotes', hcal', hdev'⟩ := offMailboxes_fields (hostGone_offMailboxes s)
  unfold hostReset
  rw [hostPortReset_eq]
  dsimp only
  rw [hdev, hdev']
  exact ⟨rfl, hup, rfl, hstr.trans hstr', hnet.trans hnet', hlps.trans hlps', hvotes.trans hvotes', hcal.trans hcal'⟩

/-- A mailbox after the reset of its function. -/
def emptied (m : Mbx) : Mbx := { taken := m.taken.map (fun (c : Taken) => { c with quiet := true }) }

theorem resetMailbox_mbx (s : State) (n : Nat) : (resetMailbox s n).mbx = tset s.mbx n (emptied (mbox s n)) := rfl

theorem vfFlr_of_vf {n : Nat} (h1 : 1 ≤ n) (h2 : n ≤ 512) :
    vfFlr n s = modFn (dropRings (resetMailbox s n) (n - 1)) n (fun f => { f with vecs := [], held := [], latch := [] }) :=
  if_neg (by omega)

theorem vfFlr_spec {n : Nat} (h1 : 1 ≤ n) (h2 : n ≤ 512) :
    (vfFlr n s).mbx = tset s.mbx n (emptied (mbox s n)) ∧ (vfFlr n s).streams = s.streams ∧ (vfFlr n s).votes = s.votes
      ∧ ∀ k, (∀ e ∈ s.queues, e.1 = k → e.2.tenant ≠ n - 1 ∨ e.2.typ ≤ 4) → tget (vfFlr n s).queues k = tget s.queues k := by
  obtain ⟨hmbx, hstr, -, -, hvotes, -⟩ := offRings_fields (dropRings_offRings (resetMailbox s n) (n - 1))
  rw [vfFlr_of_vf h1 h2]
  exact ⟨hmbx, hstr, hvotes, fun k hk => dropRings_other (s := resetMailbox s n) hk⟩

/-! ### The rows of the step -/

/-- PERST_N as PERST_SEL says. -/
def perst (s : State) : State := if bit s.dev.straps 7 then restart 3 s else hostReset 3 s

theorem exec_perst : exec .perst s = .next (settled s (perst (begun s))) := run_eq s perst
theorem perst_all (h : bit s.dev.straps 7 = true) : perst s = restart 3 s := if_pos h
theorem perst_host (h : bit s.dev.straps 7 = false) : perst s = hostReset 3 s := if_neg (by simp [h])
theorem exec_pfFlr (hstart : s.clk.started = true) : exec .pfFlr s = .next (settled s (hostReset 4 (begun s))) := runBase_of_started hstart _
theorem exec_vfFlr (hstart : s.clk.started = true) (n : Nat) : exec (.vfFlr n) s = .next (settled s (vfFlr n (begun s))) := runBase_of_started hstart _

theorem exec_resetAfterResponse (hstart : s.clk.started = true) (h : s.dev.resetDue = true) :
    exec .resetAfterResponse s = .next (settled s (restart 2 (begun s))) :=
  runBase_gives hstart (if_pos h)

/-- Settles O59. Which bits of DEV_RST_CAUSE PERST_N and an FLR of PF0 set, and that a reset which starts over keeps the straps, are the
model's (log entry 86), as is what an FLR of a VF resets (log entry 19). -/
theorem resetsKeepWhatTheyKeep : Obligations.ResetsKeepWhatTheyKeep := by
  unfold Obligations.ResetsKeepWhatTheyKeep
  intro s
  refine ⟨fun i hi => ?_, fun n => ⟨_, exec_thermalTrip n, settled_dev_thermal _ _, settled_dev_tripped _ _⟩, fun n hn => exec_supplyDrop_other hn, run_eq s (fun s => { s with dev := { s.dev with thermal := false } }),
    fun v => ⟨fun h => by rw [exec_resetRelease, resetRelease_held (s := begun s) h], fun hheld hth => resetRelease_spec v hheld hth⟩,
    run_eq s (fun s => { s with cal := {}, dev := { s.dev with rstCause := setBit s.dev.rstCause 0 true } }),
    fun i hi h3 h4 => ?_, fun h => ?_, fun n hstart h1 h2 => ?_, fun h => ?_, fun hstart h => ?_⟩
  · simp only [List.mem_cons, List.not_mem_nil, or_false] at hi
    rcases hi with rfl | rfl | rfl | rfl | rfl
    · exact ⟨_, exec_powerOnReset, holdReset_cleared 0 s⟩
    · exact ⟨_, exec_resetNLow, holdReset_cleared 1 s⟩
    · exact ⟨_, exec_thermalTrip 0, thermalTrip_cleared s⟩
    · exact ⟨_, exec_supplyDrop (by decide), holdReset_cleared 0 s⟩
    · exact ⟨_, exec_supplyDrop (by decide), holdReset_cleared 0 s⟩
  · simp only [List.mem_cons, List.not_mem_nil, or_false] at hi
    rcases hi with rfl | rfl
    · exact ⟨_, exec_perst.trans (by rw [perst_host (s := begun s) (h3 rfl)]), hostReset_spec 3 (begun s)⟩
    · exact ⟨_, exec_pfFlr (h4 rfl), hostReset_spec 4 (begun s)⟩
  · obtain ⟨hcause, hten, hstr, hcal, hstraps, -⟩ := restart_spec 3 s
    exact ⟨_, exec_perst.trans (by rw [perst_all (s := begun s) h]), hcause, hten, hstr, hcal, hstraps⟩
  · obtain ⟨hmbx, hstr, hvotes, hq⟩ := vfFlr_spec (s := begun s) h1 h2
    refine ⟨_, exec_vfFlr hstart n, fun j hj => by rw [hmbx]; exact tget_tset_ne _ _ hj, ?_, ?_, ?_, ?_, hstr, hvotes, hq⟩
    all_goals rw [mbox, hmbx, tgetD_tset_self]; rfl
  · exact runBase_of_idle (if_neg (by exact ne_true_of_eq_false h))
  · obtain ⟨hcause, hten, -, hcal, -, hstore⟩ := restart_spec 2 s
    exact ⟨_, exec_resetAfterResponse hstart h, hcause, hten, hcal, hstore⟩

end Sys2Proof.Machine
end

section
/-! The reset key, the vote sweep and TWIN_FENCE (20 R376, R377, R386, 16 R320). -/
namespace Sys2Proof.Machine

variable {s : State}

/-! ### A discarded write -/

theorem denied_vf (n : Nat) (s : State) : denied (.vf n) s = { s with dev := { s.dev with badAccess := inc48 s.dev.badAccess 1 } } := rfl
theorem denied_causeway (s : State) : denied .causeway s = { s with dev := { s.dev with badAccess := inc48 s.dev.badAccess 1 } } := rfl
theorem denied_chain (s : State) : denied .chain s = { s with chain := { s.chain with denied := inc48 s.chain.denied 1 } } := rfl

/-! ### The reset key (20 R386) -/

theorem rstKey_arms : rstKey 0xD1 s = tripSet s .armed 1 := if_pos rfl

theorem rstKey_resets (h : tripGet s .armed = 1) : rstKey 0x5E s = restart 2 s := (if_neg (by decide)).trans (if_pos ⟨rfl, h⟩)

theorem rstKey_disarms {key : Nat} (h : key ≠ 0xD1) (h' : key ≠ 0x5E ∨ tripGet s .armed ≠ 1) : rstKey key s = tripSet s .armed 0 :=
  (if_neg h).trans (if_neg (by tauto))

/-- The straps take effect whatever the cause of the reset. -/
theorem applyStraps_cause (v c : Nat) (s : State) :
    applyStraps v { s with dev := { s.dev with rstCause := c } }
      = { applyStraps v s with dev := { (applyStraps v s).dev with rstCause := c } } := by
  rcases strapped_id v with h | h | h
  · rw [applyStraps_alone h, applyStraps_alone h]; rfl
  · rw [applyStraps_pair h, applyStraps_pair h]; rfl
  · rw [applyStraps_halt h, applyStraps_halt h]; rfl

/-- A reset by the key is the reset of RESET_N and its release under the same straps, with its own cause. -/
theorem restart_eq_release (hheld : s.dev.held = false) (hth : s.dev.thermal = false) :
    restart 2 s = { resetRelease s.dev.straps (holdReset 1 s) with
      dev := { (resetRelease s.dev.straps (holdReset 1 s)).dev with rstCause := 2 ^ 2 } } := by
  have hr : resetRelease s.dev.straps (holdReset 1 s) = applyStraps s.dev.straps { holdReset 1 s with dev := { (holdReset 1 s).dev with held := false } } :=
    resetRelease_samples (s := holdReset 1 s) rfl hth
  rw [hr, ← applyStraps_cause, restart]
  refine congrArg (applyStraps s.dev.straps) ?_
  unfold holdReset resetDevice
  rw [hheld]

/-- A write of DEV_RST_CTRL.KEY over a path. -/
def keyWrite (path : Path) (key : Nat) (s : State) : State := if path = .pf ∨ path = .wellhead then rstKey key s else denied path s

theorem keyWrite_pf {path : Path} (hp : path = .pf ∨ path = .wellhead) (key : Nat) : keyWrite path key s = rstKey key s := if_pos hp
theorem keyWrite_denied {path : Path} (hp : ¬ (path = .pf ∨ path = .wellhead)) (key : Nat) : keyWrite path key s = denied path s := if_neg hp

theorem exec_devRstKeyWrite (hstart : s.clk.started = true) (path : Path) (key : BitVec 8) :
    exec (.devRstKeyWrite path key) s = .next (settled s (keyWrite path key.toNat (begun s))) := runBase_of_started hstart (keyWrite path key.toNat)

theorem exec_armedLapse (hstart : s.clk.started = true) : exec .armedLapse s = .next (settled s (tripSet (begun s) .armed 0)) :=
  runBase_of_started hstart (fun s => tripSet s .armed 0)

/-- Settles O57. A write over Wellhead counts as one by PF0 (R382); the reset keeps the straps sampled before (log entry 86). -/
theorem resetKeySequence : Obligations.ResetKeySequence := by
  unfold Obligations.ResetKeySequence
  intro key s hstart
  refine ⟨fun path hpath => ?_, exec_armedLapse hstart, fun n => ?_, ?_, ?_⟩
  · have hp : path = .pf ∨ path = .wellhead := by simpa using hpath
    rw [exec_devRstKeyWrite hstart, keyWrite_pf hp]
    refine ⟨fun h => ?_, fun h harmed hheld hth => ?_, fun h h' => ?_⟩
    · subst h
      rw [show (0xD1 : BitVec 8).toNat = 0xD1 from rfl, rstKey_arms]
    · subst h
      rw [show (0x5E : BitVec 8).toNat = 0x5E from rfl, rstKey_resets (s := begun s) harmed, restart_eq_release (s := begun s) hheld hth]
      rfl
    · rw [rstKey_disarms (s := begun s) (fun hk => h (BitVec.eq_of_toNat_eq hk)) (h'.imp_left fun h hk => h (BitVec.eq_of_toNat_eq hk))]
  · rw [exec_devRstKeyWrite hstart, keyWrite_denied (by simp), denied_vf]
    rfl
  · rw [exec_devRstKeyWrite hstart, keyWrite_denied (by simp), denied_causeway]
    rfl
  · rw [exec_devRstKeyWrite hstart, keyWrite_denied (by simp), denied_chain]
    rfl

/-! ### The comparison of one field (20 R377) -/

/-- The copies of a field agree. -/
def Trip.agrees (t : Trip) : Prop := t.a = t.b ∧ t.b = t.c

theorem voteOne_agreed {f : TripField} {t : Trip} (h : (tripCopies s.votes f).agrees) : voteOne s (f, t) = s := if_pos h

/-- Where two copies agree the third takes their value. -/
theorem voteOne_fixed {f : TripField} {t : Trip} (h : ¬ (tripCopies s.votes f).agrees)
    (h2 : (tripCopies s.votes f).a = (tripCopies s.votes f).b ∨ (tripCopies s.votes f).a = (tripCopies s.votes f).c
      ∨ (tripCopies s.votes f).b = (tripCopies s.votes f).c) :
    voteOne s (f, t) = evD { tripSet s f (majority (tripCopies s.votes f)) with dev := { s.dev with voteFixCnt := inc48 s.dev.voteFixCnt 1 } } 0x102 (tripOffset f) 0 0 :=
  (if_neg h).trans (if_pos h2)

/-- Where no two agree the field takes its safe value. -/
theorem voteOne_lost {f : TripField} {t : Trip} (hab : (tripCopies s.votes f).a ≠ (tripCopies s.votes f).b)
    (hac : (tripCopies s.votes f).a ≠ (tripCopies s.votes f).c) (hbc : (tripCopies s.votes f).b ≠ (tripCopies s.votes f).c) :
    voteOne s (f, t) = evD { tripSet (tripLost f s) f (tripSafe (tripCopies s.votes f) f) with
      dev := { (tripLost f s).dev with voteFailCnt := inc48 (tripLost f s).dev.voteFailCnt 1, voteFail := true } } 0x103 (tripOffset f) 0 0 :=
  (if_neg fun h => hab h.1).trans (if_neg (by tauto))

theorem majority_of_two {t : Trip} {x : Nat} (h : (t.a = x ∧ t.b = x) ∨ (t.a = x ∧ t.c = x) ∨ (t.b = x ∧ t.c = x)) : majority t = x := by
  unfold majority
  split_ifs <;> omega

/-- What the loss of a field's copies leaves as it was. -/
def State.sweepKept (s : State) : Nat × Tbl Nat × Dev := (s.mere, s.grid, s.dev)

theorem modRefs_sweepKept (s : State) (f : Refs → Refs) : (modRefs s f).sweepKept = s.sweepKept := rfl
theorem evD_sweepKept (s : State) (typ obj status aux : Nat) : (evD s typ obj status aux).sweepKept = s.sweepKept := rfl
theorem setSel_sweepKept (s : State) (n : Nat) : (setSel s n).sweepKept = s.sweepKept := rfl

theorem holdover_sweepKept (s : State) : (holdover s).sweepKept = s.sweepKept := by
  unfold holdover freeRun refFault
  dsimp only
  split <;> simp only [modRefs_sweepKept, evD_sweepKept, setSel_sweepKept]

theorem displace_sweepKept (s : State) (r : Nat) : (displace s r).sweepKept = s.sweepKept := by
  unfold State.sweepKept displace
  simp [setRole, apply_ite State.mere, apply_ite State.grid, apply_ite State.dev, evD, modTwin]

theorem tripLost_sweepKept (f : TripField) (s : State) : (tripLost f s).sweepKept = s.sweepKept := by
  unfold tripLost
  split
  · split
    · rfl
    · exact holdover_sweepKept s
  · exact displace_sweepKept s 5
  · rfl

theorem holdover_state (s : State) : (holdover s).refs.state = 4 ∨ (holdover s).refs.state = 0 := by
  unfold holdover
  dsimp only
  split
  · exact .inr rfl
  · exact .inl rfl

theorem tripLost_refSel (s : State) : (tripLost .refSel s).refs.state = 4 ∨ (tripLost .refSel s).refs.state = 0 := by
  unfold tripLost
  dsimp only
  split
  next h => exact .inl h
  · exact holdover_state s

theorem voteOne_lost_spec {f : TripField} {t : Trip} (hab : (tripCopies s.votes f).a ≠ (tripCopies s.votes f).b)
    (hac : (tripCopies s.votes f).a ≠ (tripCopies s.votes f).c) (hbc : (tripCopies s.votes f).b ≠ (tripCopies s.votes f).c) :
    tripGet (voteOne s (f, t)) f = tripSafe (tripCopies s.votes f) f ∧ (voteOne s (f, t)).refs.state = (tripLost f s).refs.state
      ∧ (voteOne s (f, t)).dev.voteFail = true ∧ (voteOne s (f, t)).dev.voteFailCnt = inc48 s.dev.voteFailCnt 1 := by
  have hdev : (tripLost f s).dev = s.dev := (congrArg (·.2.2) (tripLost_sweepKept f s) :)
  rw [voteOne_lost hab hac hbc]
  refine ⟨?_, rfl, rfl, ?_⟩
  · refine (tripGet_congr (s := tripSet (tripLost f s) f (tripSafe (tripCopies s.votes f) f)) rfl f).trans ?_
    rw [tripGet_tripSet, if_pos rfl]
  · change inc48 (tripLost f s).dev.voteFailCnt 1 = _
    rw [hdev]

/-! ### The sweep -/

/-- The copies of field `f` agree. -/
def State.agreed (s : State) (f : TripField) : Prop := (tripCopies s.votes f).agrees

theorem agreed_tripSet (s : State) (f : TripField) (n : Nat) : (tripSet s f n).agreed f := by
  unfold State.agreed
  rw [tripSet_votes, tripCopies_tripPut, if_pos rfl]
  exact ⟨rfl, rfl⟩

theorem State.agreed.tripSet {f : TripField} (h : s.agreed f) (g : TripField) (n : Nat) : (Machine.tripSet s g n).agreed f := by
  unfold State.agreed
  rw [tripSet_votes, tripCopies_tripPut]
  split
  · exact ⟨rfl, rfl⟩
  · exact h

theorem State.agreed.congr {f : TripField} {u : State} (h : s.agreed f) (e : u.votes = s.votes) : u.agreed f := by
  unfold State.agreed
  rw [e]
  exact h

theorem State.agreed.holdover {f : TripField} (h : s.agreed f) : (Machine.holdover s).agreed f := by
  have hs := h.tripSet .refSel 0x7F
  unfold Machine.holdover
  dsimp only
  split
  · exact hs
  · exact hs

theorem State.agreed.setRole {f : TripField} (h : s.agreed f) (r : Nat) : (Machine.setRole s r).agreed f := by
  unfold Machine.setRole
  dsimp only
  split
  · exact h
  · split
    · exact h.tripSet .role r
    · exact (h.tripSet .role r).tripSet .own 0

theorem State.agreed.tripLost {f : TripField} (h : s.agreed f) (g : TripField) : (Machine.tripLost g s).agreed f := by
  unfold Machine.tripLost
  split
  · split
    · exact h
    · exact h.holdover
  · exact State.agreed.setRole (s := modTwin s (fun w => { w with displaced := some s.mere })) h 5
  · exact h

theorem State.agreed.voteOne {f : TripField} (h : s.agreed f) (e : TripField × Trip) : (Machine.voteOne s e).agreed f := by
  unfold Machine.voteOne
  dsimp only
  split
  · exact h
  · split
    · exact h.tripSet _ _
    · exact (h.tripLost e.1).tripSet _ _

theorem voteOne_agrees (s : State) (e : TripField × Trip) : (voteOne s e).agreed e.1 := by
  unfold voteOne
  dsimp only
  split
  next h => exact h
  · split
    · exact agreed_tripSet _ _ _
    · exact agreed_tripSet _ _ _

/-- The sweep of a list of fields leaves those that agree and those of the list in agreement. -/
theorem voteAll_agrees {f : TripField} : ∀ (l : List (TripField × Trip)) (s : State), s.agreed f ∨ (∃ t, (f, t) ∈ l) → (l.foldl voteOne s).agreed f := by
  intro l
  induction l with
  | nil => exact fun s h => h.elim id fun ⟨_, h⟩ => by cases h
  | cons e l ih =>
    rintro s (h | ⟨t, h⟩)
    · exact ih _ (.inl (h.voteOne e))
    · rcases List.mem_cons.mp h with rfl | h
      · exact ih _ (.inl (voteOne_agrees s _))
      · exact ih _ (.inr ⟨t, h⟩)

/-- A field without an entry is at its reset value in all three copies. -/
theorem agrees_or_listed (v : List (TripField × Trip)) (f : TripField) : (tripCopies v f).agrees ∨ ∃ t, (f, t) ∈ v := by
  induction v with
  | nil => exact .inl ⟨rfl, rfl⟩
  | cons e v ih =>
    obtain ⟨g, t⟩ := e
    by_cases h : g = f
    · subst h; exact .inr ⟨t, List.mem_cons_self⟩
    · unfold tripCopies
      rw [if_neg h]
      exact ih.imp_right fun ⟨t, ht⟩ => ⟨t, List.mem_cons_of_mem _ ht⟩

theorem voteOne_time (s : State) (e : TripField × Trip) : ((voteOne s e).mere, (voteOne s e).grid) = (s.mere, s.grid) := by
  have hk := tripLost_sweepKept e.1 s
  unfold voteOne
  dsimp only
  split
  · rfl
  · split
    · rfl
    · exact Prod.ext (congrArg (·.1) hk :) (congrArg (·.2.1) hk :)

theorem voteAll_time (l : List (TripField × Trip)) (s : State) :
    ((l.foldl voteOne s).mere, (l.foldl voteOne s).grid) = (s.mere, s.grid) :=
  foldl_keeps (fun s : State => (s.mere, s.grid)) voteOne_time l s

theorem gridStep_time (i d : Nat) (s : State) : tgetD (gridStep i d s).grid i 0 = tgetD s.grid i 0 + 1
    ∧ (s.clk.running = true → (tgetD s.grid i 0 + 1) * d ≤ (gridStep i d s).mere) := by
  have hgrid : ∀ (c : Nat) (u : State), (advanceTo c u).grid = u.grid := fun c u => by
    unfold advanceTo advance
    split
    · split <;> rfl
    · rfl
  have hmere : ∀ (c : Nat) (u : State), u.clk.running = true → c ≤ (advanceTo c u).mere := fun c u h => by
    unfold advanceTo
    split
    next hlt => rw [mere_advance h]; omega
    next hge => exact not_lt.mp hge
  unfold gridStep
  refine ⟨?_, fun h => hmere _ _ h⟩
  dsimp only
  rw [hgrid, tgetD_tset_self]

theorem voteSweep_eq (s : State) : voteSweep s = (gridStep 3 1200 s).votes.foldl voteOne (gridStep 3 1200 s) := rfl

theorem voteSweep_spec (s : State) : (∀ f, (voteSweep s).agreed f) ∧ tgetD (voteSweep s).grid 3 0 = tgetD s.grid 3 0 + 1
    ∧ (s.clk.running = true → (tgetD s.grid 3 0 + 1) * 1200 ≤ (voteSweep s).mere) := by
  obtain ⟨hgrid, hmere⟩ := gridStep_time 3 1200 s
  rw [voteSweep_eq]
  generalize gridStep 3 1200 s = u at hgrid hmere ⊢
  obtain ⟨hm, hg⟩ := Prod.mk.inj (voteAll_time u.votes u)
  rw [hm, hg]
  exact ⟨fun f => voteAll_agrees _ _ (agrees_or_listed u.votes f), hgrid, hmere⟩

theorem exec_voteSweep (hstart : s.clk.started = true) : exec .voteSweep s = .next (settled s (voteSweep (begun s))) := runBase_of_started hstart _

/-! ### TWIN_FENCE (16 R320) -/

theorem yieldNow_spec (s : State) : (yieldNow s).votes = s.votes ∧ (yieldNow s).twin = s.twin := by
  unfold yieldNow
  split <;> exact ⟨rfl, rfl⟩

theorem fenceWrite_spec (b : Nat) (s : State) : tripGet (fenceWrite b s) .fence = b ∧ tripGet (fenceWrite b s) .role = tripGet s .role
    ∧ (fenceWrite b s).twin = s.twin ∧ (b = 0 → (fenceWrite b s).out = s.out) := by
  obtain ⟨hv, ht⟩ := yieldNow_spec s
  unfold fenceWrite
  rw [tripGet_tripSet, if_pos rfl, tripGet_tripSet, if_neg (by decide)]
  refine ⟨rfl, ?_, ?_, fun h => by rw [h]; rfl⟩
  · split
    · exact tripGet_congr hv .role
    · rfl
  · split
    · exact ht
    · rfl

theorem exec_twinFenceWrite {b : BitVec 32} (hstart : s.clk.started = true) (hb : b.toNat < 2) :
    exec (.twinFenceWrite .pf b) s = .next (settled s (fenceWrite b.toNat (begun s))) := by
  have e : fenceWrite (b.toNat % 2) (begun s) = fenceWrite b.toNat (begun s) := by rw [Nat.mod_eq_of_lt hb]
  exact (if_neg fun h => h.2 (Nat.div_eq_of_lt hb)).trans (runBase_gives hstart ((if_pos (.inl rfl)).trans e))

/-- A write of TWIN_FENCE over a path. -/
def fencePath (path : Path) (b : Nat) (s : State) : State := if path = .pf ∨ path = .wellhead then fenceWrite b s else denied path s

theorem exec_twinFenceWrite_vf (hstart : s.clk.started = true) (n : Nat) (b : BitVec 32) :
    exec (.twinFenceWrite (.vf n) b) s = .next (settled s (denied (.vf n) (begun s))) := by
  have hp : ¬ (Path.vf n = .pf ∨ Path.vf n = .wellhead) := by simp
  have e : fencePath (.vf n) (b.toNat % 2) (begun s) = denied (.vf n) (begun s) := if_neg hp
  have h : exec (.twinFenceWrite (.vf n) b) s = if (Path.vf n = .pf ∨ Path.vf n = .wellhead) ∧ b.toNat / 2 ≠ 0
      then .fault (.reservedTestControl 0x080008) else runBase s (fencePath (.vf n) (b.toNat % 2)) := rfl
  rw [h, if_neg fun h => hp h.1, runBase_of_started hstart, e]

/-- Settles O58. That the sweep falls on a grid of Mere time is the model's (log entry 6). -/
theorem voteSweepAndFence : Obligations.VoteSweepAndFence := by
  unfold Obligations.VoteSweepAndFence
  refine ⟨fun s hstart => ?_, fun f tr s htr => ?_, fun b s hstart hb => ⟨?_, fun n => exec_twinFenceWrite_vf hstart n b⟩⟩
  · obtain ⟨hagree, hgrid, hmere⟩ := voteSweep_spec (begun s)
    refine ⟨_, exec_voteSweep hstart, fun f => ?_, ?_, ?_⟩
    · dsimp only
      rw [settled_votes]
      exact hagree f
    · rw [settled_grid]; exact hgrid
    · rw [settled_mere]; exact hmere
  · subst htr
    refine ⟨fun h1 h2 => voteOne_agreed ⟨h1, h2⟩, fun x hx hne => ?_, fun hab hac hbc => ?_⟩
    · rw [voteOne_fixed hne (by omega), majority_of_two hx]
    · obtain ⟨hget, hstate, hfail, hcnt⟩ := voteOne_lost_spec (t := tripCopies s.votes f) hab hac hbc
      rw [hget, hstate]
      refine ⟨fun g hg hfg => ?_, ?_, ?_, ?_, ?_, ?_, ?_, ?_, hfail, hcnt⟩
      · subst hfg
        simp only [List.mem_cons, List.not_mem_nil, or_false] at hg
        rcases hg with rfl | rfl <;> rfl
      · rintro rfl; exact ⟨rfl, tripLost_refSel s⟩
      · rintro rfl; rfl
      · rintro rfl; rfl
      · rintro rfl; rfl
      · rintro (rfl | rfl) <;> rfl
      · rintro (rfl | rfl) <;> rfl
      · rintro (rfl | rfl | rfl | ⟨n, rfl | rfl | rfl | rfl⟩) <;> rfl
  · obtain ⟨hf, hr, ht, ho⟩ := fenceWrite_spec b.toNat (begun s)
    exact ⟨_, exec_twinFenceWrite hstart hb, hf, hr, ht, fun h => ho (by rw [h]; rfl)⟩

end Sys2Proof.Machine
end

section
/-! Accesses to the register file (20 R374 to R387) and to CHAIN_ADDR (17 R344, R345). -/
namespace Sys2Proof.Machine

variable {s : State}

/-! ### Bits of what a write leaves -/

theorem bit_eq_testBit (n k : Nat) : bit n k = n.testBit k := by
  rw [bit, Nat.testBit_eq_decide_div_mod_eq]
  rfl

theorem bit_ofNat {n k : Nat} (h : k < 64) : (BitVec.ofNat 64 n).getLsbD k = bit n k := by
  rw [bit_eq_testBit, BitVec.getLsbD_ofNat, decide_eq_true h, Bool.true_and]

theorem bit_and (n m k : Nat) : bit (n &&& m) k = (bit n k && bit m k) := by
  rw [bit_eq_testBit, bit_eq_testBit, bit_eq_testBit, Nat.testBit_and]

/-- A bit of a field of read-write bits takes the written value where the write reaches it. -/
theorem bit_rw (l : Lane) (field old : Nat) {k : Nat} (h : k < 64) :
    bit (l.rw field old) k = if bit field k && bit l.m k then bit l.v k else bit old k := by
  rw [Lane.rw, bit_toNat, BitVec.getLsbD_or, BitVec.getLsbD_and, BitVec.getLsbD_and, BitVec.getLsbD_not, bit_ofNat h, bit_ofNat h, bit_ofNat h, bit_and,
    decide_eq_true h]
  cases bit field k <;> cases bit l.m k <;> simp

/-- A bit that clears on 1. -/
theorem bit_w1c (l : Lane) (field old : Nat) {k : Nat} (h : k < 64) :
    bit (l.w1c field old) k = (bit old k && !(bit l.v k && bit l.m k && bit field k)) := by
  rw [Lane.w1c, bit_toNat, BitVec.getLsbD_and, BitVec.getLsbD_not, bit_ofNat h, bit_ofNat h, bit_and, bit_and, decide_eq_true h, Bool.true_and]

theorem bit_ones {n k : Nat} (h : k < n) : bit (2 ^ n - 1) k = true := by
  rw [bit_eq_testBit, Nat.testBit_two_pow_sub_one, decide_eq_true h]

theorem bit_complement {n x k : Nat} (hx : x < 2 ^ n) (h : k < n) : bit (2 ^ n - 1 - x) k = !bit x k := by
  rw [bit_eq_testBit, bit_eq_testBit, Nat.sub_sub, Nat.add_comm 1 x, Nat.testBit_two_pow_sub_succ hx, decide_eq_true h, Bool.true_and]

/-! ### A write of the register file -/

theorem barOf_of_lt {o : Nat} (h : o < 2 ^ 32) : barOf o = (0, o) := by
  rw [barOf, Nat.div_eq_of_lt h, Nat.mod_eq_of_lt h]

/-- A width or an alignment that no register takes. -/
theorem regWrite_unaligned {p : Path} {o size v : Nat} (ho : o < 2 ^ 32) (h : ¬ ((size = 4 ∨ size = 8) ∧ o % size = 0)) :
    regWrite p o size v s = some (denied p s) := by
  unfold regWrite
  rw [barOf_of_lt ho]
  dsimp only
  rw [if_neg (by simp), if_pos (by rw [decide_eq_false h]; rfl)]

/-- What a path may not write. -/
theorem regWrite_unwritable {p : Path} {o size v : Nat} (ho : o < 2 ^ 32) (h : writable p (o / 8 * 8) = false) :
    regWrite p o size v s = some (denied p s) := by
  by_cases hs : (size = 4 ∨ size = 8) ∧ o % size = 0
  · unfold regWrite
    rw [barOf_of_lt ho]
    dsimp only
    rw [if_neg (by simp), if_neg (by rw [decide_eq_true hs]; decide), if_neg (by simp), if_pos (by simp [h])]
  · exact regWrite_unaligned ho hs

/-- What a write by PF0 of an allowed width does to the word it addresses. -/
def wordWrite (o size v : Nat) (s : State) : Option RegWord → Option State
  | none => some (denied .pf s)
  | some w => if w.half && size == 4 && o % 8 == 4 then some (denied .pf s) else if breaksRv w (laneOf o size v) then none
    else some (bar0Write .pf (o / 8 * 8) size (laneOf o size v) (compareAt .pf (o / 8 * 8) s))

theorem regWrite_pf {o size v : Nat} (ho : o < 2 ^ 32) (hs : (size = 4 ∨ size = 8) ∧ o % size = 0) :
    regWrite .pf o size v s = wordWrite o size v s (pathWord s .pf (o / 8 * 8)) := by
  unfold regWrite
  rw [barOf_of_lt ho]
  dsimp only
  rw [if_neg (by simp), if_neg (by rw [decide_eq_true hs]; decide), if_neg (by simp), if_neg (by simp [writable])]
  cases pathWord s .pf (o / 8 * 8) <;> rfl

theorem regWrite_no_register {o size v : Nat} (ho : o < 2 ^ 32) (hs : (size = 4 ∨ size = 8) ∧ o % size = 0)
    (h : pathWord s .pf (o / 8 * 8) = none) : regWrite .pf o size v s = some (denied .pf s) := by
  rw [regWrite_pf ho hs, h, wordWrite]

theorem regWrite_reserved {o size v : Nat} {w : RegWord} (ho : o < 2 ^ 32) (hs : (size = 4 ∨ size = 8) ∧ o % size = 0)
    (h : pathWord s .pf (o / 8 * 8) = some w) (hhalf : (w.half && size == 4 && o % 8 == 4) = false) (hrv : breaksRv w (laneOf o size v) = true) :
    regWrite .pf o size v s = none := by
  rw [regWrite_pf ho hs, h, wordWrite, if_neg (by rw [hhalf]; decide), if_pos hrv]

theorem regWrite_word {o size v : Nat} {w : RegWord} (ho : o < 2 ^ 32) (hs : (size = 4 ∨ size = 8) ∧ o % size = 0)
    (h : pathWord s .pf (o / 8 * 8) = some w) (hhalf : (w.half && size == 4 && o % 8 == 4) = false) (hrv : breaksRv w (laneOf o size v) = false) :
    regWrite .pf o size v s = some (bar0Write .pf (o / 8 * 8) size (laneOf o size v) (compareAt .pf (o / 8 * 8) s)) := by
  rw [regWrite_pf ho hs, h, wordWrite, if_neg (by rw [hhalf]; decide), if_neg (by rw [hrv]; decide)]

/-- An offset of an aligned word. -/
theorem base_of_aligned {o : Nat} (h : o % 8 = 0) : o / 8 * 8 = o := Nat.div_mul_cancel (Nat.dvd_of_mod_eq_zero h)

theorem pathWord_begun (s : State) (o : Nat) : pathWord (begun s) .pf o = pathWord s .pf o := rfl

/-- A word without reserved bits takes every write. -/
theorem breaksRv_none {w : RegWord} (h : w.rv = 0) (l : Lane) : breaksRv w l = false := by
  simp [breaksRv, h]

theorem laneOf_low {o v : Nat} (h : o % 8 = 0) (hv : v < 2 ^ 32) : laneOf o 4 v = ⟨v, 2 ^ 32 - 1⟩ := by
  rw [laneOf, if_neg (by decide), h, Nat.mod_eq_of_lt hv]
  simp

theorem laneOf_whole {o v : Nat} (hv : v < 2 ^ 64) : laneOf o 8 v = ⟨v, 2 ^ 64 - 1⟩ := by
  simp only [laneOf, if_true, Nat.mod_eq_of_lt hv]

/-! ### The rows of a write -/

theorem exec_registerWrite {p : Path} {o size : Nat} {v : BitVec 64} {u u' : State} (hstart : s.clk.started = true)
    (h : regWrite p o size v.toNat s = some u) (h' : regWrite p o size v.toNat (begun s) = some u') :
    exec (.registerWrite p o size v) s = .next (settled s u') := by
  have e : execRegisterWrite p o size v s = .next (settled s ((regWrite p o size v.toNat (begun s)).getD (begun s))) := by
    unfold execRegisterWrite
    rw [h]
    exact runBase_of_started hstart (fun s => (regWrite p o size v.toNat s).getD s)
  exact e.trans (by rw [h']; rfl)

theorem exec_registerWrite_reserved {p : Path} {o size : Nat} {v : BitVec 64} (h : regWrite p o size v.toNat s = none) :
    exec (.registerWrite p o size v) s = .fault (.reservedTestControl o) := by
  have e : execRegisterWrite p o size v s = .fault (.reservedTestControl o) := by
    unfold execRegisterWrite
    rw [h]
  exact e

theorem exec_w1cWrite {p : Path} {o size : Nat} {v : BitVec 64} {u u' : State} (hstart : s.clk.started = true)
    (h : regWrite p o size v.toNat s = some u) (h' : regWrite p o size v.toNat (begun s) = some u') :
    exec (.w1cWrite p o size v) s = .next (settled s u') := by
  have e : execW1cWrite p o size v s = .next (settled s ((regWrite p o size v.toNat (begun s)).getD (begun s))) := by
    unfold execW1cWrite
    rw [h]
    exact runBase_of_started hstart (fun s => (regWrite p o size v.toNat s).getD s)
  exact e.trans (by rw [h']; rfl)

/-- A discarded write over PCIe or Causeway. -/
theorem registerWrite_denied {p : Path} {o size : Nat} {v : BitVec 64} (hstart : s.clk.started = true)
    (h : ∀ u : State, u = s ∨ u = begun s → regWrite p o size v.toNat u = some (denied p u)) :
    exec (.registerWrite p o size v) s = .next (settled s (denied p (begun s))) :=
  exec_registerWrite hstart (h s (.inl rfl)) (h (begun s) (.inr rfl))

theorem causeway_unwritable {o : Nat} (h : o < 0xFF0000 ∨ 0xFF1830 ≤ o) : writable .causeway (o / 8 * 8) = false := by
  simp only [writable, decide_eq_false_iff_not]
  omega

theorem chain_unwritable {o : Nat} (h : o < 0xFF0000 ∨ 0xFF1830 ≤ o) (h' : o / 8 ≠ 0x98000 / 8) : writable .chain (o / 8 * 8) = false := by
  simp only [writable, Bool.or_eq_false_iff, decide_eq_false_iff_not, beq_eq_false_iff_ne]
  omega

/-! ### GPIO and FAIL_CODE (20 R387, R376) -/

/-- The registers that the comparison of copies leaves alone. -/
def State.offVotes (s : State) : Gpio × Tbl GpioKey × Ctl := (s.gpio, s.gpioKeys, s.ctl)

theorem modRefs_offVotes (s : State) (f : Refs → Refs) : (modRefs s f).offVotes = s.offVotes := rfl
theorem evD_offVotes (s : State) (typ obj status aux : Nat) : (evD s typ obj status aux).offVotes = s.offVotes := rfl
theorem tripSet_offVotes (s : State) (f : TripField) (n : Nat) : (tripSet s f n).offVotes = s.offVotes := rfl
theorem dev_offVotes (s : State) (d : Dev) : ({ s with dev := d } : State).offVotes = s.offVotes := rfl

theorem holdover_offVotes (s : State) : (holdover s).offVotes = s.offVotes := by
  unfold holdover freeRun refFault setSel
  dsimp only
  split <;> simp only [modRefs_offVotes, evD_offVotes, tripSet_offVotes]

theorem displace_offVotes (s : State) (r : Nat) : (displace s r).offVotes = s.offVotes := by
  unfold State.offVotes displace
  simp [setRole, apply_ite State.gpio, apply_ite State.gpioKeys, apply_ite State.ctl, evD, modTwin]

theorem tripLost_offVotes (f : TripField) (s : State) : (tripLost f s).offVotes = s.offVotes := by
  unfold tripLost
  split
  · split
    · rfl
    · exact holdover_offVotes s
  · exact displace_offVotes s 5
  · rfl

theorem voteOne_offVotes (s : State) (e : TripField × Trip) : (voteOne s e).offVotes = s.offVotes := by
  unfold voteOne
  dsimp only
  split
  · rfl
  · split
    · rw [evD_offVotes, dev_offVotes, tripSet_offVotes]
    · rw [evD_offVotes, dev_offVotes, tripSet_offVotes, tripLost_offVotes]

theorem compareAt_offVotes (p : Path) (base : Nat) (s : State) : (compareAt p base s).offVotes = s.offVotes := by
  unfold compareAt
  split
  · rfl
  · exact foldl_keeps State.offVotes voteOne_offVotes _ s

theorem compareAt_fields (p : Path) (base : Nat) (s : State) :
    (compareAt p base s).gpio = s.gpio ∧ keyPins (compareAt p base s) = keyPins s ∧ (compareAt p base s).ctl = s.ctl := by
  have h := compareAt_offVotes p base s
  generalize compareAt p base s = u at h
  obtain ⟨hg, hk, hc⟩ : u.gpio = s.gpio ∧ u.gpioKeys = s.gpioKeys ∧ u.ctl = s.ctl := by simpa [State.offVotes] using h
  exact ⟨hg, by rw [keyPins, hk, keyPins], hc⟩

theorem regWrite_gpioOut {v : Nat} (hv : v < 2 ^ 32) (s : State) :
    regWrite .pf 0x0F0008 4 v s = some (bar0Write .pf 0x0F0008 4 ⟨v, 2 ^ 32 - 1⟩ (compareAt .pf 0x0F0008 s)) := by
  have hw : pathWord s .pf (0x0F0008 / 8 * 8) = some (reg32 s.gpio.out 0) := rfl
  rw [regWrite_word (by decide) (by decide) hw (by simp) (breaksRv_none rfl _), laneOf_low (by decide) hv]

theorem regWrite_gpioEdge {v : Nat} (hv : v < 2 ^ 32) (s : State) :
    regWrite .pf 0x0F0028 4 v s = some (bar0Write .pf 0x0F0028 4 ⟨v, 2 ^ 32 - 1⟩ (compareAt .pf 0x0F0028 s)) := by
  have hw : pathWord s .pf (0x0F0028 / 8 * 8) = some (reg32 s.gpio.edge 0) := rfl
  rw [regWrite_word (by decide) (by decide) hw (by simp) (breaksRv_none rfl _), laneOf_low (by decide) hv]

theorem bar0Write_gpioOut (l : Lane) (s : State) :
    bar0Write .pf 0x0F0008 4 l s = { s with gpio := { s.gpio with out := l.rw (2 ^ 32 - 1 - keyPins s) s.gpio.out } } := rfl

theorem bar0Write_gpioEdge (l : Lane) (s : State) :
    bar0Write .pf 0x0F0028 4 l s = { s with gpio := { s.gpio with edge := l.w1c (span 31 0) s.gpio.edge } } := rfl

theorem bar0Write_boot (l : Lane) (s : State) :
    bar0Write .pf 0x40 4 l s = if bits (l.v &&& l.m) 23 20 = 15 then { s with ctl := { s.ctl with failCode := 0 } } else s := rfl

/-- What is below 24 bits touches no reserved bit of DEV_BOOT_STATUS. -/
theorem low_and_span {x : Nat} (h : x < 2 ^ 24) : x &&& span 31 24 = 0 := by
  refine Nat.eq_of_testBit_eq fun i => ?_
  rw [Nat.testBit_and, Nat.zero_testBit, show span 31 24 = 2 ^ 24 * 255 from rfl, Nat.testBit_two_pow_mul]
  by_cases hi : 24 ≤ i
  · rw [Nat.testBit_lt_two_pow (h.trans_le (Nat.pow_le_pow_right (by decide) hi)), Bool.false_and]
  · rw [decide_eq_false hi, Bool.false_and, Bool.and_false]

theorem breaksRv_boot {v : Nat} (hv : v < 2 ^ 24) (hb : bootStatus s < 2 ^ 24) :
    breaksRv (reg32 (bootStatus s) (span 31 24)) ⟨v, 2 ^ 32 - 1⟩ = false := by
  have hx : v ^^^ bootStatus s % 2 ^ 32 < 2 ^ 24 := Nat.xor_lt_two_pow hv ((Nat.mod_le _ _).trans_lt hb)
  unfold breaksRv reg32
  dsimp only
  rw [low_and_span hx, Nat.zero_and]
  rfl

theorem regWrite_boot {v : Nat} (hv : v < 2 ^ 24) (hb : bootStatus s < 2 ^ 24) :
    regWrite .pf 0x40 4 v s = some (bar0Write .pf 0x40 4 ⟨v, 2 ^ 32 - 1⟩ (compareAt .pf 0x40 s)) := by
  have hw : pathWord s .pf (0x40 / 8 * 8) = some (reg32 (bootStatus s) (span 31 24)) := rfl
  have hl : laneOf 0x40 4 v = ⟨v, 2 ^ 32 - 1⟩ := laneOf_low (by decide) (hv.trans (by decide))
  rw [regWrite_word (by decide) (by decide) hw (by simp) (by rw [hl]; exact breaksRv_boot hv hb), hl]

theorem gpioOut_write {v : BitVec 64} (hstart : s.clk.started = true) (hv : v.toNat < 2 ^ 32) (hk : keyPins s < 2 ^ 32) :
    ∃ t, exec (.registerWrite .pf 0x0F0008 4 v) s = .next t
      ∧ ∀ n, n < 32 → bit t.gpio.out n = if bit (keyPins s) n then bit s.gpio.out n else bit v.toNat n := by
  obtain ⟨hg, hkeys, -⟩ := compareAt_fields .pf 0x0F0008 (begun s)
  refine ⟨_, exec_registerWrite hstart (regWrite_gpioOut hv s) (regWrite_gpioOut hv (begun s)), fun n hn => ?_⟩
  rw [settled_gpio, bar0Write_gpioOut, hg, hkeys]
  change bit (Lane.rw ⟨v.toNat, 2 ^ 32 - 1⟩ (2 ^ 32 - 1 - keyPins s) s.gpio.out) n = _
  rw [bit_rw _ _ _ (hn.trans (by decide)), bit_complement hk hn, bit_ones hn]
  cases bit (keyPins s) n <;> rfl

theorem gpioEdge_write {v : BitVec 64} (hstart : s.clk.started = true) (hv : v.toNat < 2 ^ 32) :
    ∃ t, exec (.w1cWrite .pf 0x0F0028 4 v) s = .next t ∧ ∀ n, n < 32 → bit t.gpio.edge n = (bit s.gpio.edge n && !bit v.toNat n) := by
  obtain ⟨hg, -, -⟩ := compareAt_fields .pf 0x0F0028 (begun s)
  refine ⟨_, exec_w1cWrite hstart (regWrite_gpioEdge hv s) (regWrite_gpioEdge hv (begun s)), fun n hn => ?_⟩
  rw [settled_gpio, bar0Write_gpioEdge, hg]
  change bit (Lane.w1c ⟨v.toNat, 2 ^ 32 - 1⟩ (2 ^ 32 - 1) s.gpio.edge) n = _
  rw [bit_w1c _ _ _ (hn.trans (by decide)), bit_ones hn, Bool.and_true, Bool.and_true]

theorem failCode_write {v : BitVec 64} (hstart : s.clk.started = true) (hv : v.toNat < 2 ^ 24) (hb : bootStatus s < 2 ^ 24) :
    ∃ t, exec (.w1cWrite .pf 0x40 4 v) s = .next t ∧ t.ctl.failCode = if bits v.toNat 23 20 = 15 then 0 else s.ctl.failCode := by
  obtain ⟨-, -, hc⟩ := compareAt_fields .pf 0x40 (begun s)
  refine ⟨_, exec_w1cWrite hstart (regWrite_boot hv hb) (regWrite_boot (s := begun s) hv hb), ?_⟩
  rw [settled_ctl_failCode, bar0Write_boot, Nat.and_two_pow_sub_one_eq_mod, Nat.mod_eq_of_lt (hv.trans (by decide))]
  split
  · rfl
  · rw [hc]; rfl

/-! ### A 32-bit read of a counter (R379, R380) -/

theorem exec_counterLowRead (hstart : s.clk.started = true) (p : Path) (o : Nat) :
    exec (.counterLowRead p o) s = .next (settled s (read32 p o (begun s))) := runBase_of_started hstart (read32 p o)

theorem read32_across {p : Path} {o : Nat} (h : 4 < o % 8) : read32 p o s = emit (badAccess s) (.read p o 0) := by
  rw [read32, if_pos h]

section
variable {p : Path} {o : Nat} {w : RegWord} (ho : o < 2 ^ 32) (hw : pathWord (compareAt p (o / 8 * 8) s) p (o / 8 * 8) = some w)
  (hc : w.counter = true)
include ho hw hc

/-- The low half of a counter: its high half goes to the latch. -/
theorem read32_low (h : o % 8 = 0) : read32 p o s = emit (modFn (compareAt p (o / 8 * 8) s) (latchOf p).1
    (fun x => { x with latch := tset x.latch (latchOf p).2 (o / 8 * 8, w.val / 2 ^ 32) })) (.read p o (w.val % 2 ^ 32)) := by
  unfold read32
  rw [if_neg (by omega), barOf_of_lt ho, if_neg (by simp), if_neg (by simp)]
  simp only [hw, Option.getD_some, hc, h, beq_self_eq_true, Bool.and_self, if_true]

/-- The high half of a counter. -/
theorem read32_high (h : o % 8 = 4) {n : Nat}
    (hlatch : ∀ c x, tget (tgetD (compareAt p (o / 8 * 8) s).fns (latchOf p).1 {}).latch (latchOf p).2 = some (c, x) →
      (if c = o / 8 * 8 then x else w.val / 2 ^ 32) = n)
    (hnone : tget (tgetD (compareAt p (o / 8 * 8) s).fns (latchOf p).1 {}).latch (latchOf p).2 = none → w.val / 2 ^ 32 = n) :
    read32 p o s = emit (compareAt p (o / 8 * 8) s) (.read p o n) := by
  unfold read32
  rw [if_neg (by omega), barOf_of_lt ho, if_neg (by simp), if_neg (by simp)]
  simp only [hw, Option.getD_some, hc, h, Bool.true_and, beq_self_eq_true, if_true, show ((4 : Nat) == 0) = false from rfl, Bool.false_eq_true, if_false]
  cases hl : tget (tgetD (compareAt p (o / 8 * 8) s).fns (latchOf p).1 {}).latch (latchOf p).2 with
  | none => rw [← hnone hl]
  | some e => rw [← hlatch e.1 e.2 hl]

theorem read32_high_latched (h : o % 8 = 4) {x : Nat}
    (hl : tget (tgetD (compareAt p (o / 8 * 8) s).fns (latchOf p).1 {}).latch (latchOf p).2 = some (o / 8 * 8, x)) :
    read32 p o s = emit (compareAt p (o / 8 * 8) s) (.read p o x) := by
  refine read32_high ho hw hc h (fun c y hy => ?_) (fun hn => ?_)
  · obtain ⟨rfl, rfl⟩ : o / 8 * 8 = c ∧ x = y := by simpa using hl.symm.trans hy
    exact if_pos rfl
  · cases hl.symm.trans hn

theorem read32_high_live (h : o % 8 = 4)
    (hl : ∀ x, tget (tgetD (compareAt p (o / 8 * 8) s).fns (latchOf p).1 {}).latch (latchOf p).2 ≠ some (o / 8 * 8, x)) :
    read32 p o s = emit (compareAt p (o / 8 * 8) s) (.read p o (w.val / 2 ^ 32)) := by
  refine read32_high ho hw hc h (fun c y hy => if_neg fun hcb => ?_) (fun _ => rfl)
  rw [hcb] at hy
  exact hl y hy

end

/-! ### CHAIN_ADDR (17 R344, R345) -/

/-- The address the device answers at. -/
def State.chainHere (s : State) : Nat := if s.chain.assigned then s.chain.addr else 0x4C

theorem exec_chainAddrWrite_reserved {v : BitVec 32} (h : 256 ≤ v.toNat) (via : Nat) :
    exec (.chainAddrWrite via v) s = .fault (.reservedTestControl 0x098000) := by
  have hv := v.isLt
  exact if_pos (by unfold bits; omega)

theorem exec_chainAddrWrite {v : BitVec 32} (hstart : s.clk.started = true) (h : v.toNat < 256) (via : Nat) :
    exec (.chainAddrWrite via v) s = .next (settled s (chainAddrWrite via (v.toNat % 128) (begun s))) :=
  (if_neg (by unfold bits; omega)).trans (runBase_of_started hstart (chainAddrWrite via (v.toNat % 128)))

theorem chainAddrWrite_elsewhere {via : Nat} (h : via ≠ s.chainHere) (a : Nat) : chainAddrWrite via a s = s := if_pos h

theorem chainAddrWrite_here {via : Nat} (h : via = s.chainHere) (a : Nat) : chainAddrWrite via a s =
    if chainReserved a then { s with chain := { s.chain with addrErr := true, addrIn := s.chain.addrIn || !s.chain.assigned } }
    else { s with chain := { s.chain with addr := a, assigned := true, addrOut := true, addrIn := s.chain.addrIn || !s.chain.assigned } } :=
  if_neg (not_not_intro h)

theorem exec_chainPartialWrite (hstart : s.clk.started = true) : exec .chainPartialWrite s
    = .next (settled s { begun s with chain := { s.chain with partials := min 0xFFFF (s.chain.partials + 1) } }) :=
  runBase_of_started hstart (fun s => modChain s (fun w => { w with partials := min 0xFFFF (w.partials + 1) }))

theorem exec_chainBusTimeout (hstart : s.clk.started = true) :
    exec .chainBusTimeout s = .next (settled s { begun s with chain := { s.chain with busTmo := true } }) :=
  runBase_of_started hstart (fun s => modChain s (fun w => { w with busTmo := true }))

end Sys2Proof.Machine
end

section
/-! Register accesses settled (20 R374 to R387, 17 R344, R345). -/
namespace Sys2Proof.Machine

/-- Reads of a counter by halves. -/
theorem counterLowRead_halves (p : Path) (o : Nat) (s : State) {w : RegWord} (hstart : s.clk.started = true) (ho : o < 2 ^ 32)
    (hw : pathWord (compareAt p (o / 8 * 8) (begun s)) p (o / 8 * 8) = some w) (hc : w.counter = true) :
    (o % 8 = 0 → ∃ v, exec (.counterLowRead p o) s = .next (settled s v)
        ∧ v.out = (compareAt p (o / 8 * 8) (begun s)).out ++ [.read p o (w.val % 2 ^ 32)]
        ∧ tget (tgetD v.fns (latchOf p).1 {}).latch (latchOf p).2 = some (o, w.val / 2 ^ 32)
        ∧ ∀ g, g ≠ (latchOf p).1 → tget v.fns g = tget (compareAt p (o / 8 * 8) (begun s)).fns g)
      ∧ (∀ h, o % 8 = 4 → tget (tgetD (compareAt p (o / 8 * 8) (begun s)).fns (latchOf p).1 {}).latch (latchOf p).2 = some (o / 8 * 8, h) →
          exec (.counterLowRead p o) s = .next (settled s (emit (compareAt p (o / 8 * 8) (begun s)) (.read p o h))))
      ∧ (o % 8 = 4 → (∀ h, tget (tgetD (compareAt p (o / 8 * 8) (begun s)).fns (latchOf p).1 {}).latch (latchOf p).2 ≠ some (o / 8 * 8, h)) →
          exec (.counterLowRead p o) s = .next (settled s (emit (compareAt p (o / 8 * 8) (begun s)) (.read p o (w.val / 2 ^ 32))))) := by
  refine ⟨fun h => ⟨_, (exec_counterLowRead hstart p o).trans (by rw [read32_low ho hw hc h]), rfl, ?_, fun g hg => ?_⟩, fun x h hl => ?_, fun h hl => ?_⟩
  · simp [emit, modFn, base_of_aligned h]
  · exact tget_tset_ne _ _ hg
  · rw [exec_counterLowRead hstart, read32_high_latched ho hw hc h hl]
  · rw [exec_counterLowRead hstart, read32_high_live ho hw hc h hl]

/-- A write of 8 bytes that changes a reserved bit. -/
theorem registerWrite_reserved {o : Nat} {v : BitVec 64} {w : RegWord} {s : State} (ho : o < 2 ^ 32) (h8 : o % 8 = 0) (hw : pathWord s .pf o = some w)
    (h : (v.toNat ^^^ w.val) &&& w.rv &&& (2 ^ 64 - 1) ≠ 0) : exec (.registerWrite .pf o 8 v) s = .fault (.reservedTestControl o) := by
  refine exec_registerWrite_reserved (regWrite_reserved ho ⟨.inr rfl, h8⟩ (by rw [base_of_aligned h8]; exact hw) (by simp) ?_)
  rw [laneOf_whole v.isLt]
  exact bne_iff_ne.2 h

/-- Writes over the chain bus through address `via`, against the address the device answers at. -/
theorem chainAddr_rows (s : State) (via : Nat) (v : BitVec 32) :
    (256 ≤ v.toNat → exec (.chainAddrWrite via v) s = .fault (.reservedTestControl 0x098000))
    ∧ (s.clk.started = true → v.toNat < 256 →
      (via ≠ s.chainHere → exec (.chainAddrWrite via v) s = .next (settled s (begun s)))
      ∧ (via = s.chainHere → chainReserved (v.toNat % 128) = false → exec (.chainAddrWrite via v) s = .next (settled s { begun s with chain := { s.chain with
          addr := v.toNat % 128, assigned := true, addrOut := true, addrIn := s.chain.addrIn || !s.chain.assigned } }))
      ∧ (via = s.chainHere → chainReserved (v.toNat % 128) = true → exec (.chainAddrWrite via v) s = .next (settled s { begun s with chain := { s.chain with
          addrErr := true, addrIn := s.chain.addrIn || !s.chain.assigned } }))) := by
  refine ⟨fun h => exec_chainAddrWrite_reserved h via, fun hstart hv => ⟨fun h => ?_, fun h hr => ?_, fun h hr => ?_⟩⟩
  · rw [exec_chainAddrWrite hstart hv, chainAddrWrite_elsewhere (s := begun s) h]
  · rw [exec_chainAddrWrite hstart hv, chainAddrWrite_here (s := begun s) h, hr, if_neg (by decide)]
    rfl
  · rw [exec_chainAddrWrite hstart hv, chainAddrWrite_here (s := begun s) h, hr, if_pos rfl]
    rfl

/-- Settles O54: reads by halves, writes turned away, GPIO_OUT and the W1C bits, and CHAIN_ADDR, row by row. That a write through 0x4C
sets ADDR_IN is the model's choice of log entry 34, and that a reserved bit stops the run that of log entry 47. -/
theorem registerAccesses : Obligations.RegisterAccesses := by
  unfold Obligations.RegisterAccesses
  dsimp only
  refine ⟨⟨fun p o s w hstart ho hw hc => counterLowRead_halves p o s hstart ho hw hc, fun p o s hstart h => ?_,
    fun o size v s hstart ho => ⟨fun h => ?_, fun hs ha hn => ?_, fun h => ?_, fun h h' => ?_, fun w h8 hw h => registerWrite_reserved ho h8 hw h⟩,
    fun v s hstart hv => ⟨gpioOut_write hstart hv, gpioEdge_write hstart hv, failCode_write hstart⟩⟩,
    fun s => ⟨chainAddr_rows s, fun hstart => ⟨_, exec_chainPartialWrite hstart, by rw [settled_chain], by rw [settled_chain]⟩, exec_chainBusTimeout⟩⟩
  · rw [exec_counterLowRead hstart, read32_across h]
    rfl
  · exact registerWrite_denied hstart fun _ _ => regWrite_unaligned ho h
  · exact exec_registerWrite hstart (regWrite_no_register ho ⟨hs, ha⟩ hn) (regWrite_no_register ho ⟨hs, ha⟩ ((pathWord_begun s _).trans hn))
  · exact registerWrite_denied hstart fun _ _ => regWrite_unwritable ho (causeway_unwritable h)
  · exact registerWrite_denied hstart fun _ _ => regWrite_unwritable ho (chain_unwritable h h')

end Sys2Proof.Machine
end
